-- ==== Sys2Proof/Word.lean ====
section
/-! DEFINITION. The plain index types of the 2208 (conventions of 00_scope.md 1.7) and the text of the
supervisory line. A lever, a circuit and a proving input are counted from 0 here and from 1 on the line. -/

namespace Sys2Proof

/-- A lever L1 to L48, counted from 0. -/
abbrev Lever := Fin 48

/-- A track circuit T1 to T20, counted from 0. -/
abbrev Circuit := Fin 20

/-- A proving input G1 to G16, counted from 0. -/
abbrev Input := Fin 16

/-- A logical lamp cell: row × 32 + column (R133). -/
abbrev Cell := Fin 512

/-- A register sequence number, modulo 65536 (R127). -/
abbrev Seq := BitVec 16

/-- One converter sample, −2048 to +2047 in two's complement (R62). -/
abbrev Sample := BitVec 12

/-- Characters of the supervisory line (R145). -/
abbrev Text := List Char

/-- A section, or the line port that serves it. A and B are the through pair. -/
inductive Sec
  | a | b | c
deriving DecidableEq, Repr

/-- The port that through working joins to this one: A and B are the through pair (R122). -/
def Sec.throughPair : Sec → Option Sec
  | .a => some .b
  | .b => some .a
  | .c => none

/-- One value for each section or port. -/
structure PerSec (α : Type) where
  a : α
  b : α
  c : α
deriving DecidableEq, Repr

/-- The value held for a section or port. -/
def PerSec.get {α : Type} (v : PerSec α) : Sec → α
  | .a => v.a
  | .b => v.b
  | .c => v.c

/-- The same values with one replaced. -/
def PerSec.set {α : Type} (v : PerSec α) (x : Sec) (y : α) : PerSec α :=
  match x with
  | .a => { v with a := y }
  | .b => { v with b := y }
  | .c => { v with c := y }

/-- Normal or reverse: the two ends of a lever's stroke. -/
inductive LeverEnd
  | n | r
deriving DecidableEq, Repr

/-- The position opposite. -/
def LeverEnd.opposite : LeverEnd → LeverEnd
  | .n => .r
  | .r => .n

/-- Line Blocked, Line Clear or Train On Line: an indicator current or a block switch position. -/
inductive Ind
  | lb | lc | tol
deriving DecidableEq, Repr

end Sys2Proof
end

