-- ==== Sys2Proof/Config.lean ====
section
/-! DEFINITION. What the manual fixes once for the part: capacities, load defaults and ranges; and the free
values, constants without a body, for the figures the manual leaves unstated. -/

namespace Sys2Proof.Config

/-- Capacities of 00_scope.md 1.9 and of the reply to ID (R151). -/
def maxLocks : Nat := 320
def maxCodes : Nat := 24
def maxRegister : Nat := 256
/-- Received lines that may wait (R146). -/
def maxWaiting : Nat := 2
/-- Busy tally limit (R146). -/
def maxTally : Nat := 255
/-- Characters of a received line, of a sent text and of a joined request (R145, R146, R149). -/
def maxLine : Nat := 120
def maxText : Nat := 115
def maxJoined : Nat := 460
/-- A code's bounds (R83). -/
def maxGroups : Nat := 5
def maxBeats : Nat := 9
/-- A count of R66 stops here. -/
def maxCount : Nat := 255
/-- The clear reference's upper limit in sixteenths of a millivolt (R68). -/
def maxReference : Nat := 40000
/-- The release count stops here (R97). -/
def maxReleases : Nat := 9999
/-- The highest train id (R110). -/
def maxTrainId : Nat := 999
/-- Tenths of a second in a day (R129). -/
def tenthsPerDay : Nat := 864000
/-- The unsettled time after which a reading becomes INVALID, in ms (R98). -/
def unsettledLimit : Nat := 2000
/-- The default time release of approach locking, in s (R5's record table). -/
def defaultTimeRelease : Nat := 120

/-- FREE VALUE: the figures SHOW TC gives after the state for a circuit whose record is stored but has not yet
taken effect. R78 gives them for each circuit with a record and R61 gives a reference, counts and polarity to
enabled circuits only, so no value is stated. The argument is the circuit and the model's time. -/
opaque unstatedFigures : Circuit → Nat → List Text

/-- FREE VALUE: the host value SHOW LAMP gives, as 0 for OFF, 1 for ON and 2 for FLASH, for a cell published as HOST whose
binding another load or an erase has replaced since. R140 gives its present host value, and by R137 it has none any more.
The arguments are the cell and the model's time. -/
opaque unstatedHost : Cell → Nat → Fin 3

end Sys2Proof.Config
end

