-- ==== Sys2Proof/Syntax.lean ====
section
/-! DEFINITION. The commands of the 2208: one constructor of `Instr` for each row of spec/opcode_table.json. The
table gives its rows no operand bits, so each operand is the lever, circuit, section or port the row's rule
speaks of, or what arrives from outside at that step (a scan of the contact matrix, samples, a character). The
words of a request are NOT operands: they arrive as characters on the supervisory line (R145, R146), and a request
row handles the line at the front of the receive queue (R147). -/

namespace Sys2Proof

/-- The contacts of the 12 × 16 matrix (R1; 00_scope.md 1.6). -/
inductive Contact
  | leverN (n : Lever)
  | leverR (n : Lever)
  | leverH (n : Lever)
  | proving (g : Input)
  | switchLC (x : Sec)
  | switchTOL (x : Sec)
  | tapper (p : Sec)
  | plunger (x : Sec)
  | box
deriving DecidableEq, Repr

/-- The units that hand entries to the Register unit (00_scope.md 1.4). -/
inductive RegUnit
  | leverFrame | track | bell | block | service
deriving DecidableEq, Repr

/-- A character as the supervisory line delivers it: eight bits, or one with a framing error (R145). -/
inductive RxChar
  | byte (b : BitVec 8)
  | framingError
deriving DecidableEq, Repr

/-- The current of an incoming indicator circuit at one sample: one of the three valid classes, or outside the
window the line interface accepts (R98). -/
inductive IndClass
  | valid (k : Ind)
  | outside
deriving DecidableEq, Repr

/-- The commands, one constructor per row of the table. -/
inductive Instr
  -- reset and initialisation
  | reset (strap : Fin 4)
  | initialisationComplete
  | restartPowerUp (strap : Fin 4)
  -- contact matrix and lever frame
  | contactScan (made : List Contact)
  | grip (n : Lever)
  | gripEnd (n : Lever)
  | leavingN (n : Lever)
  | leavingR (n : Lever)
  | arrivalAtN (n : Lever)
  | arrivalAtR (n : Lever)
  | bothMade (n : Lever)
  | freedomWithdrawn (n : Lever)
  | backLockRelease (n : Lever)
  | travelLimitExpiry (n : Lever)
  -- locking
  | provingInputChange (g : Input)
  | reTest
  | timeReleaseExpiry (n : Lever)
  -- track circuits
  | scanFrameStart
  | measurementComplete (samples : List Sample)
  | scanFrameComplete
  -- bells
  | startOfBeat (p : Sec)
  | endOfBeat (p : Sec)
  | beatHeld (p : Sec)
  | codeComplete (p : Sec)
  | tapperPress (p : Sec)
  | tapperRelease (p : Sec)
  | stretchEnd (p : Sec)
  | tapperHeldCut (p : Sec)
  | collision (p : Sec)
  | strokeEnd (p : Sec)
  | repeatEnd (q : Sec)
  | repeatClash (q : Sec)
  -- delivered codes, indicators and the block
  | outCodeTaken (x : Sec)
  | inCodeTaken (x : Sec)
  | codeExchangeUpdate (p : Sec)
  | indicatorSettled (p : Sec)
  | unsettledTimeout (p : Sec)
  | throughIndicatorRepeat (p : Sec)
  | arrivalAtLC (x : Sec)
  | arrivalAtTOL (x : Sec)
  | arrivalAtLB (x : Sec)
  | blockControlArrival (n : Lever)
  | autoTol (x : Sec)
  | progressCheck (x : Sec)
  | releasePlungerPress (x : Sec)
  | emergencyTimerExpiry (x : Sec)
  -- the box switch
  | arrivalAtOut
  | arrivalAtIn
  -- register and clock
  | registerAppend (u : RegUnit)
  | clockTick
  -- diagram
  | diagramFrameStart
  | diagramFrameComplete
  | signallerActivity
  | idleTimeout
  | diagramServiceChange
  -- supervisory link
  | characterReceived (ch : RxChar)
  | faultedLine
  | busyReply
  | unknownKeyword
  | moreLine
  | lineSent
  -- requests
  | ident
  | mode
  | more
  | notify
  | lev
  | lock
  | tc
  | sec
  | code
  | lamp
  | times
  | boxout
  | eraseLev
  | eraseLock
  | eraseTc
  | eraseSec
  | eraseCode
  | eraseLamp
  | eraseBoxout
  | check
  | start
  | withdraw
  | restart
  | tuneTc
  | tuneGroup
  | clearTc
  | clearLev
  | clock
  | bright
  | dim
  | paint
  | showLev
  | showTc
  | showSec
  | showBox
  | showGroup
  | showLamp
  | rawTc
  | reg
  -- rows at the end of the table
  | resetRelease
  | bellSenseSample (p : Sec) (current : Bool)
  | indicatorSample (p : Sec) (cls : IndClass)
  | bothContactsBreak (n : Lever)
deriving DecidableEq, Repr

end Sys2Proof
end

