-- ==== Sys2Proof/Decode.lean ====
section
/-! DEFINITION. The 2208 has no instruction words: no row of spec/opcode_table.json gives bits ("fields" is empty
in every row), so no word spells a command. -/

namespace Sys2Proof

/-- The command that a word spells by the table's bits. No row gives bits, so there is none. -/
def decodeTableWord (_nbits _w : Nat) : Option Instr :=
  none

end Sys2Proof
end

