-- ==== Sys2Proof/Machine/State.lean ====
section
/-! DEFINITION. The state of the 2208, unit by unit (00_scope.md 1.3), as plain data, and the state right after
reset. Every moment and every deadline is in milliseconds of the model's own time `now`. -/

namespace Sys2Proof.Machine

/-! ### Clock times and durations -/

/-- A reading of the Register unit's clock with its unset flag (R129). -/
structure ClockTime where
  day : Nat
  tenths : Nat
  unset : Bool
deriving DecidableEq, Repr

/-! ### Contact matrix (R1) -/

/-- One contact's debouncing: its reading (none until the first, R1), and the value the latest scans have sensed
against it with how many of them in a row. -/
structure ContactState where
  reading : Option Bool
  seen : Bool
  count : Nat
deriving DecidableEq, Repr

/-- The N, R and catch-handle contacts of a lever. -/
structure LeverContacts where
  n : ContactState
  r : ContactState
  h : ContactState
deriving DecidableEq, Repr

/-- The LC and TOL contacts of a block switch (R99). -/
structure SwitchContacts where
  lc : ContactState
  tol : ContactState
deriving DecidableEq, Repr

/-- The contact matrix. -/
structure Contacts where
  levers : Vector LeverContacts 48
  proving : Vector ContactState 16
  switches : PerSec SwitchContacts
  tappers : PerSec ContactState
  plungers : PerSec ContactState
  box : ContactState
deriving DecidableEq, Repr

/-! ### Service states (R158) -/

/-- The four service states. -/
inductive ServiceState
  | powerUp | configure | inService | switchedOut
deriving DecidableEq, Repr

/-! ### Levers and locking (chapters 1 and 2) -/

/-- The seven lever states of R7's table. -/
inductive LeverPos
  | nLocked | nFree | travel | rLocked | rFree | backlocked | fault
deriving DecidableEq, Repr

/-- The six kinds of lever (R5). -/
inductive LeverKind
  | signal | points | lock | gate | release | spare
deriving DecidableEq, Repr

/-- When a term applies: gripped at N, gripped at R, or either. -/
inductive Applies
  | leaveN | leaveR | both
deriving DecidableEq, Repr

/-- A track term of a lever record (R28). -/
structure TrackTerm where
  circuit : Circuit
  applies : Applies
deriving DecidableEq, Repr

/-- A proving term of a lever record (R29); `active` is the required state. -/
structure ProvingTerm where
  input : Input
  active : Bool
  applies : Applies
deriving DecidableEq, Repr

/-- The approach locking of a signal lever; the time release in seconds. -/
structure Approach where
  circuits : List Circuit
  sec : Option Sec
  time : Nat
deriving DecidableEq, Repr

/-- A lever record (R4). -/
structure LevRecord where
  kind : LeverKind
  tracks : List TrackTerm
  provings : List ProvingTerm
  block : Option Sec
  approach : Option Approach
deriving DecidableEq, Repr

/-- A back-lock record (R35); TIMING holds the moment its time release expires. -/
inductive BackLock
  | idle
  | timing (expires : Nat)
  | due
deriving DecidableEq, Repr

/-- All that is held for one lever: its record, state, lock and flags and running travel limit (Lever Frame unit),
its last end and back-lock record (Locking unit). -/
structure LeverData where
  record : Option LevRecord
  pos : LeverPos
  lock : Bool
  refused : Bool
  forced : Bool
  stalled : Bool
  limit : Option Nat
  lastEnd : Option LeverEnd
  backlock : BackLock
deriving DecidableEq, Repr

/-- A lever and a position: a term of a locking entry or of the switch-out list. -/
structure LeverTerm where
  lever : Lever
  pos : LeverEnd
deriving DecidableEq, Repr

/-- A locking table entry (R21): while X is at pX, Y is held at pY, when every condition holds. -/
structure LockEntry where
  x : LeverTerm
  y : LeverTerm
  conds : List LeverTerm
deriving DecidableEq, Repr

/-- The position events of R2 and the grip, as the contact matrix hands them to the Lever Frame unit. -/
inductive LeverEvent
  | grip | leavingN | leavingR | bothBreak | arrivalN | arrivalR | bothMade | gripEnd
deriving DecidableEq, Repr

/-! ### Track circuits (chapters 3 and 4) -/

/-- The sign of a feed (R52). -/
inductive Polarity
  | positive | negative
deriving DecidableEq, Repr

/-- The cause of a failure (R61). -/
inductive FailCause
  | joint | proof | lowRef
deriving DecidableEq, Repr

/-- The four track states, FAILED with its cause (R61). -/
inductive TrackState
  | disabled | occupied | clear
  | failed (cause : FailCause)
deriving DecidableEq, Repr

/-- The causes of a masked measurement (R53). -/
inductive MaskCause
  | reversal | proof | restore | tune
deriving DecidableEq, Repr

/-- The fourteen values of a track circuit record (chapter 3's table). -/
structure TcRecord where
  coarse : Nat
  fine : Nat
  window : Nat
  ref : Nat
  drop : Nat
  pick : Nat
  floor : Nat
  low : Nat
  joint : Nat
  dropf : Nat
  pickf : Nat
  phase : Nat
  inv : Nat
  group : Nat
deriving DecidableEq, Repr

/-- The names of those values. -/
inductive TcField
  | coarse | fine | window | ref | drop | pick | floor | low | joint | dropf | pickf | phase | inv | group
deriving DecidableEq, Repr

/-- A measurement as RAW TC gives it (R59): the sign is none for a proof frame, in which the feed is OFF. -/
structure Measurement where
  sum : Int
  count : Nat
  average : Int
  level : Int
  signed : Int
  sign : Option Polarity
  saturated : Bool
  masks : List MaskCause
deriving DecidableEq, Repr

/-- All that is held for one track circuit: the stored record (R45) and the record in force since a frame start
(R47), the state, the clear reference Q, the three counts, the applied polarity and the feed (none is OFF), the
masks of the frame in progress, the measurement taken in it, the last published one, STALE, and whether a TUNE of it has
been accepted since the last frame start, so that no frame has begun with all of its tuning applied (R60). -/
structure CircuitData where
  stored : Option TcRecord
  live : Option TcRecord
  state : TrackState
  q : Nat
  low : Nat
  high : Nat
  reverse : Nat
  applied : Option Polarity
  feed : Option Polarity
  masks : List MaskCause
  taken : Option Measurement
  published : Option Measurement
  stale : Bool
  retuned : Bool
deriving DecidableEq, Repr

/-- A request accepted and waiting for the next scan frame start, in order of acceptance (R49). -/
inductive TrackOp
  | load (t : Circuit) (r : TcRecord)
  | erase
  | tune (t : Circuit) (vals : List (TcField × Nat))
  | clear (t : Circuit)
deriving DecidableEq, Repr

/-- The scan values in force since the last frame start (R48). -/
structure ScanParams where
  frame : Nat
  reverse : Nat
  proof : Nat
  track : Nat
deriving DecidableEq, Repr

/-- The Track unit: the circuits, the waiting requests, the scan values in force, the polarity generator and its
count (R51), the proof count, cursor and circuit (R54), and the frame in progress: whether one is, when it
started, its actual length, whether it is extended, and the circuits not yet measured in it (R49, R50). -/
structure TrackUnit where
  circuits : Vector CircuitData 20
  ops : List TrackOp
  params : ScanParams
  gen : BitVec 7
  reversals : Nat
  proofs : Nat
  cursor : Option Circuit
  proofNow : Option Circuit
  scanning : Bool
  started : Nat
  actual : Nat
  extended : Bool
  toMeasure : List Circuit
deriving DecidableEq, Repr

/-! ### Bells (chapter 5) -/

/-- The sense of a bell circuit (R79). -/
inductive Sense
  | idle | incoming | outgoing | clash
deriving DecidableEq, Repr

/-- A sensed pulse that began from IDLE: its start, its end once the sense has left IN, whether it has become a
beat, and whether that beat is held (R81). -/
structure Pulse where
  start : Nat
  ended : Option Nat
  beat : Bool
  held : Bool
deriving DecidableEq, Repr

/-- Who owns a bell line (R82). -/
inductive Owner
  | free | incoming | outgoing
deriving DecidableEq, Repr

/-- The direction of a code (R82). -/
inductive Dir
  | incoming | outgoing | thru
deriving DecidableEq, Repr

/-- The cause of an ERRONEOUS code (R83). -/
inductive SpoilCause
  | held | interrupted | clashed
deriving DecidableEq, Repr

/-- The spoil mark of a code: absent, or present with or without a cause (R82). -/
inductive Spoil
  | absent
  | present (cause : Option SpoilCause)
deriving DecidableEq, Repr

/-- The meanings of R84. -/
inductive Meaning
  | attention
  | offer (cls : Nat)
  | entering | outOfSection | cancel | obstruction | boxOut | boxIn | test
  | info (number : Nat)
deriving DecidableEq, Repr

/-- How a complete code is classified (R84). -/
inductive Classification
  | meaning (m : Meaning)
  | unknown
  | erroneous (cause : Option SpoilCause)
deriving DecidableEq, Repr

/-- A code table entry (R85). -/
structure CodeEntry where
  pattern : List Nat
  meaning : Meaning
deriving DecidableEq, Repr

/-- A code in assembly (R82): `lastEnd` is none while a beat of it is in progress, `overflow` says the current
group is beyond the fifth and not recorded (R83), `unrepeated` that its repetition through the box is spoiled (R118). -/
structure Code where
  dir : Dir
  groups : List Nat
  lastEnd : Option Nat
  spoil : Spoil
  overflow : Bool
  suppressed : Bool
  unrepeated : Bool
deriving DecidableEq, Repr

/-- A completed code's record (R92), with the model's moment of completion, from which its age is counted (R118). -/
structure CodeRecord where
  pattern : List Nat
  cls : Classification
  time : ClockTime
  stamp : Nat
deriving DecidableEq, Repr

/-- An outgoing tapper beat in progress: the drive's start, and whether the tapper is made (not made is the
stretch, R86). -/
structure OutBeat where
  start : Nat
  made : Bool
deriving DecidableEq, Repr

/-- A repeat drive of through working on this port: its start, and when it is to end once the repeated beat has
ended (R122). -/
structure Repeat where
  start : Nat
  stop : Option Nat
deriving DecidableEq, Repr

/-- The local bell sounder (R91). -/
inductive Sounder
  | off
  | stroke (ends : Nat)
  | follow
deriving DecidableEq, Repr

/-- The Bell unit's state for a port; `rpt` is the repeat of through working driven on it. `sensed` says a sense has been
taken since POWER_UP: the first one is the starting value and begins no pulse (R79). `clash` says a sense of CLASH has been
taken under the drive now on and not yet acted on (R90, R123). -/
structure PortData where
  drive : Bool
  out : Option OutBeat
  rpt : Option Repeat
  held : Bool
  sense : Sense
  sensed : Bool
  lastSample : Option (Sense × Nat)
  clash : Bool
  pulses : List Pulse
  owner : Owner
  code : Option Code
  sounder : Sounder
  sent : Option CodeRecord
  rcvd : Option CodeRecord
deriving DecidableEq, Repr

/-! ### Block sections (chapter 6) -/

/-- The eleven section states (R96). -/
inductive SecState
  | closed | blocked | protected_ | offerOut | clearOut | unofferedClear | enteredOut | offerIn | clearIn
  | enteredIn | through
deriving DecidableEq, Repr

/-- A section record (R95). -/
structure SecRecord where
  accept : List Lever
  clearing : List Circuit
  arrival : List Circuit
  autotol : Bool
deriving DecidableEq, Repr

/-- The stage of a train record (R110). -/
inductive Stage
  | offered | accepted | entered | cleared
deriving DecidableEq, Repr

/-- How a train record ends (R112). -/
inductive TrainEnd
  | complete | cancelled | void | released
deriving DecidableEq, Repr

/-- A train record (R110); `inward` is direction IN. -/
structure Train where
  ident : Nat
  inward : Bool
  cls : Nat
  stage : Stage
  offered : ClockTime
  accepted : Option ClockTime
  entered : Option ClockTime
  progress : Nat
deriving DecidableEq, Repr

/-- The Block unit's mark on the last code of a direction (R108). -/
inductive Mark
  | taken | outOfTurn
deriving DecidableEq, Repr

/-- The Block unit's state for a section. The reading is none for INVALID (R98). `showing` is the valid class the
samples now show without a break and since when, `unsettled` when the unsettled time started, `timer` when the
emergency timer expires (R113). -/
structure SectionData where
  record : Option SecRecord
  state : SecState
  drive : Ind
  releaseUnused : Bool
  cancelHeard : Bool
  enteringHeard : Bool
  timer : Option Nat
  released : Bool
  releases : Nat
  reading : Option Ind
  showing : Option (Ind × Nat)
  unsettled : Option Nat
  position : Ind
  train : Option Train
  sentMark : Option Mark
  rcvdMark : Option Mark
deriving DecidableEq, Repr

/-! ### Service controller (chapters 7 and 11) -/

/-- The box switch's two positions (R116). -/
inductive BoxPos
  | inn | out
deriving DecidableEq, Repr

/-- Why a box switch arrival was refused, with its index (R120, R125). -/
inductive BoxRefusal
  | noList
  | notBlocked (x : Sec)
  | lever (n : Lever)
  | term (n : Lever)
  | exchange (x : Sec)
  | indicator (x : Sec)
deriving DecidableEq, Repr

/-- A remembered code (R118). -/
structure MemCode where
  pattern : List Nat
  cls : Classification
  time : ClockTime
  stamp : Nat
deriving DecidableEq, Repr

/-- The code exchange memory of a port, and its two marks, each with the moment of the sending that earned it. -/
structure Memory where
  sent : Option MemCode
  rcvd : Option MemCode
  boxOut : Option Nat
  boxIn : Option Nat
deriving DecidableEq, Repr

/-- The Service controller. -/
structure ServiceUnit where
  state : ServiceState
  position : BoxPos
  path : Option Sec
  memory : PerSec Memory
  refusal : Option BoxRefusal
  boxout : Option (List LeverTerm)
deriving DecidableEq, Repr

/-- LOCALMODE (R80). -/
inductive LocalMode
  | follow | stroke
deriving DecidableEq, Repr

/-- The TIMES record (R160's order). -/
structure Times where
  travel : Nat
  frame : Nat
  reverse : Nat
  proof : Nat
  track : Nat
  beatmin : Nat
  beatmax : Nat
  join : Nat
  endWait : Nat
  localmode : LocalMode
  stroke : Nat
  indstable : Nat
  emrel : Nat
  codewin : Nat
  div : Nat
  flashms : Nat
  idle : Nat
  darkout : Nat
  rowrev : Nat
  colrev : Nat
deriving DecidableEq, Repr

/-! ### Register (chapter 8) -/

inductive LeverEntry
  | forced | fault | stalled
deriving DecidableEq, Repr

inductive BoxEntry
  | inService | switchedOut | switchedIn | withdrawn
deriving DecidableEq, Repr

/-- What a register entry says: its kind and the fields of its kind (R128). A TRACK entry with a cause is FAILED,
without one RESTORED. A DISAGREE entry names a section or, with none, BOX. -/
inductive RegBody
  | bell (p : Sec) (dir : Dir) (pattern : List Nat) (cls : Classification)
  | change (x : Sec) (before after : SecState) (train : Option Nat) (auto : Bool)
  | train (ident : Nat) (x : Sec) (inward : Bool) (cls : Nat) (outcome : TrainEnd) (offered : ClockTime)
      (entered : Option ClockTime)
  | release (x : Sec) (count : Nat)
  | lever (n : Lever) (event : LeverEntry)
  | track (t : Circuit) (failed : Option FailCause)
  | box (event : BoxEntry)
  | disagree (x : Option Sec)
  | clash (p : Sec)
  | crossed (x : Sec)
  | clock (old new : ClockTime)
deriving DecidableEq, Repr

/-- A register entry (R128). -/
structure RegEntry where
  seq : Seq
  time : ClockTime
  body : RegBody
deriving DecidableEq, Repr

/-- The Register unit: the ring, oldest entry first, the sequence number the next append takes, and the clock. -/
structure Register where
  ring : List RegEntry
  next : Seq
  clock : ClockTime
deriving DecidableEq, Repr

/-! ### Diagram (chapter 9) -/

/-- A lamp value. -/
inductive Lamp
  | off | on | flash
deriving DecidableEq, Repr

/-- The qualifiers of a LEVER binding (R138). -/
inductive LeverQual
  | n | r | free | refused
deriving DecidableEq, Repr

/-- A binding's source with its index and qualifier (R137, R138). `clr` is the qualifier CLR, else OCC; `lc` is
the qualifier LC, else TOL. -/
inductive Source
  | off | on | host
  | track (t : Circuit) (clr : Bool)
  | lever (n : Lever) (q : LeverQual)
  | sec (x : Sec) (states : List SecState)
  | indicator (x : Sec) (lc : Bool)
  | bell (x : Sec)
  | box
  | disagree (x : Option Sec)
  | alarm
deriving DecidableEq, Repr

/-- A binding; `flash` is mode FLASH. -/
structure Binding where
  source : Source
  flash : Bool
  invert : Bool
deriving DecidableEq, Repr

/-- A binding load or an erase waiting for the next diagram frame start (R134, R137). -/
inductive LampOp
  | load (c : Cell) (b : Binding)
  | erase
deriving DecidableEq, Repr

/-- The light level (R142). -/
inductive Light
  | active | dimmed | dark
deriving DecidableEq, Repr

/-- What a diagram frame shows, fixed at its start: the values of the bound cells (a cell not listed is OFF) and their
bindings, the flash half, t_on, the light level and b, and the remap (R134, R135, R140). -/
structure LampFrame where
  cells : List (Cell × Lamp)
  bindings : List (Cell × Binding)
  half : Bool
  ton : Nat
  level : Light
  b : Nat
  rowrev : Bool
  colrev : Bool
deriving DecidableEq, Repr

/-- The Diagram unit: the stored binding map, the bindings in effect, the loads and erases waiting, the host
values, the BELL latches, BRIGHT and DIM, the light level, when the idle time began, the flash half and count, the
half-period F and the divider fixed at the last frame start, the frame in progress with its start, and the last
published frame. The two maps and the host values are kept by rising cell number. -/
structure Diagram where
  stored : List (Cell × Binding)
  bound : List (Cell × Binding)
  ops : List LampOp
  host : List (Cell × Lamp)
  latches : PerSec Bool
  bright : Nat
  dim : Nat
  level : Light
  idleFrom : Nat
  half : Bool
  flashCount : Nat
  period : Nat
  div : Nat
  current : Option LampFrame
  started : Nat
  published : Option LampFrame
deriving DecidableEq, Repr

/-- The two ways an activity is told to the Diagram unit (R142). -/
inductive Activity
  | grip | other
deriving DecidableEq, Repr

/-! ### Supervisory link (chapter 10) -/

/-- An item of the pending report set (R155). -/
inductive Item
  | lev (n : Lever)
  | tc (t : Circuit)
  | sec (x : Sec)
  | box
deriving DecidableEq, Repr

/-- A finished line as it waits in the queue (R146). -/
inductive WaitingLine
  | request (text : Text)
  | long
  | badCheck
deriving DecidableEq, Repr

/-- A waiting line with its busy tally. -/
structure Waiting where
  line : WaitingLine
  tally : Nat
deriving DecidableEq, Repr

/-- The notify classes (R154). -/
structure Classes where
  lev : Bool
  tc : Bool
  sec : Bool
  box : Bool
  reg : Bool
deriving DecidableEq, Repr

/-- Where an accepted RESTART stands (R157): none, its reply in the reply slot, its reply being sent. -/
inductive RestartPhase
  | none | replyWaiting | replySending
deriving DecidableEq, Repr

/-- The line being sent, whole, with its check and line end, and when its sending started (R153). -/
structure Sending where
  line : Text
  since : Nat
deriving DecidableEq, Repr

/-- The Supervisory Link unit: the line being built with its count, whether it is long and whether it holds a
character with a framing error; the receive queue; the ?BUSY replies owed; the reply slot; the transmitter; the
phase of an accepted RESTART; the notify classes; the pending report set; the register send mark; the words held
of a run of MORE lines; and the words kept of a cut reply. -/
structure Link where
  building : Text
  count : Nat
  long : Bool
  framing : Bool
  queue : List Waiting
  owed : Nat
  slot : Option Text
  sending : Option Sending
  restart : RestartPhase
  classes : Classes
  reports : List Item
  mark : Option Seq
  heldWords : List Text
  keptWords : List Text
deriving DecidableEq, Repr

/-! ### Changes handed from unit to unit and not yet taken (00_scope.md 1.4) -/

/-- A change as it reaches the Locking unit (R32, R38). A change of a circuit or of a section's state brings with it the
state before it, in which the unit goes on holding the circuit or the section until it takes the change (R36, R75). -/
inductive Change
  | lever (n : Lever)
  | track (t : Circuit) (was : TrackState)
  | sec (x : Sec) (was : SecState)
  | release (x : Sec)
  | input (g : Input)
deriving DecidableEq, Repr

/-- A change of a circuit on its way to the section whose record names it, with the circuit's state before it, in which
the section goes on holding the circuit until it takes the change (R75). -/
structure TrackHanded where
  sec : Sec
  circuit : Circuit
  was : TrackState
deriving DecidableEq, Repr

/-- A completed code on its way from the Bell unit, with the port, the direction and whether its repetition
through the box was spoiled. -/
structure CodeHanded where
  port : Sec
  dir : Dir
  code : CodeRecord
  unrepeated : Bool
deriving DecidableEq, Repr

/-- What has been handed to a unit and not yet taken by it, oldest first. -/
structure Inbox where
  frame : List (Lever × LeverEvent)
  inputs : List Input
  switches : List (Sec × Ind)
  plungers : List Sec
  tappers : List (Sec × Bool)
  box : List BoxPos
  activity : List Activity
  demands : List Lever
  backReleases : List Lever
  changes : List Change
  atR : List Lever
  autoTol : List Sec
  progress : List TrackHanded
  codes : List CodeHanded
  exchange : List CodeHanded
  readings : List Sec
  entries : List (RegUnit × RegBody)
  service : List (ServiceState × ServiceState)
deriving DecidableEq, Repr

/-! ### The whole part -/

/-- The state of the 2208. `pending` is the queue of commands waiting, `now` the model's time in milliseconds,
`resetHeld` whether the reset pin is asserted, `strap` the box number read from the strap pins at POWER_UP. -/
structure State where
  pending : List Instr
  now : Nat
  resetHeld : Bool
  strap : Fin 4
  contacts : Contacts
  levers : Vector LeverData 48
  locking : List LockEntry
  track : TrackUnit
  ports : PerSec PortData
  codes : List CodeEntry
  sections : PerSec SectionData
  lastTrain : Nat
  service : ServiceUnit
  times : Times
  timesLoaded : Bool
  register : Register
  diagram : Diagram
  link : Link
  inbox : Inbox
deriving DecidableEq, Repr

/-- Why the part stops. It has no constructor: the manual describes no event that stops the 2208. -/
inductive Fault
deriving DecidableEq, Repr

/-- Why a command has no meaning here. -/
inductive Refusal
  /-- The command's row has no meaning in this model yet. Raised by `exec` only; safe: the model stops. -/
  | notModelled (mnemonic : String)
deriving DecidableEq, Repr

/-! ### Reset (R158 and each chapter's POWER_UP values) -/

/-- A contact before its first reading (R1). -/
def ContactState.reset : ContactState := ⟨none, false, 0⟩

/-- The contact matrix after reset: no contact has a reading (R1). -/
def Contacts.reset : Contacts where
  levers := Vector.replicate 48 ⟨.reset, .reset, .reset⟩
  proving := Vector.replicate 16 .reset
  switches := ⟨⟨.reset, .reset⟩, ⟨.reset, .reset⟩, ⟨.reset, .reset⟩⟩
  tappers := ⟨.reset, .reset, .reset⟩
  plungers := ⟨.reset, .reset, .reset⟩
  box := .reset

/-- A lever at POWER_UP: no record, lock de-energised, flags clear, no travel limit (R4, R7), back-lock record
IDLE (R35). DESIGN CHOICE (unsafe, log 3): its state before the contacts are established is caught TRAVEL. -/
def LeverData.reset : LeverData where
  record := none
  pos := .travel
  lock := false
  refused := false
  forced := false
  stalled := false
  limit := none
  lastEnd := none
  backlock := .idle

/-- A track circuit at POWER_UP: no record, DISABLED, feed OFF, not STALE (R45, R52, R60, R61). DESIGN CHOICE
(unsafe, log 3): the reference and counts, which only enabled circuits hold, are 0. -/
def CircuitData.reset : CircuitData where
  stored := none
  live := none
  state := .disabled
  q := 0
  low := 0
  high := 0
  reverse := 0
  applied := none
  feed := none
  masks := []
  taken := none
  published := none
  stale := false
  retuned := false

/-- The TIMES values at POWER_UP: every default. -/
def Times.reset : Times where
  travel := 15
  frame := 50
  reverse := 8
  proof := 20
  track := 5
  beatmin := 30
  beatmax := 400
  join := 450
  endWait := 1800
  localmode := .stroke
  stroke := 60
  indstable := 200
  emrel := 120
  codewin := 180
  div := 4
  flashms := 500
  idle := 30
  darkout := 1
  rowrev := 0
  colrev := 0

/-- The Track unit at POWER_UP (R48, R51, R54). DESIGN CHOICE (unsafe, log 3): before the first frame the actual
length reads FRAME's default, not extended. -/
def TrackUnit.reset : TrackUnit where
  circuits := Vector.replicate 20 .reset
  ops := []
  params := ⟨50, 8, 20, 5⟩
  gen := 1
  reversals := 0
  proofs := 0
  cursor := none
  proofNow := none
  scanning := false
  started := 0
  actual := 50
  extended := false
  toMeasure := []

/-- A port at POWER_UP: drive and sounder off, owner FREE, no code, no sense taken (R79, R92, R93). DESIGN CHOICE (unsafe,
log 17): until one is taken the sense is IDLE. -/
def PortData.reset : PortData where
  drive := false
  out := none
  rpt := none
  held := false
  sense := .idle
  sensed := false
  lastSample := none
  clash := false
  pulses := []
  owner := .free
  code := none
  sounder := .off
  sent := none
  rcvd := none

/-- A section at POWER_UP: no record, CLOSED, drive LB, flags clear, timer stopped, count 0, reading INVALID (R95
to R98). DESIGN CHOICE (unsafe, log 3): the switch position before the first readings is LB. -/
def SectionData.reset : SectionData where
  record := none
  state := .closed
  drive := .lb
  releaseUnused := false
  cancelHeard := false
  enteringHeard := false
  timer := none
  released := false
  releases := 0
  reading := none
  showing := none
  unsettled := none
  position := .lb
  train := none
  sentMark := none
  rcvdMark := none

/-- The code exchange memory at POWER_UP: empty, every mark absent (R118, R119). -/
def Memory.reset : Memory := ⟨none, none, none, none⟩

/-- The Service controller at POWER_UP (R117, R122, R126, R158). DESIGN CHOICE (unsafe, log 3): the box switch
position before the first reading is IN. -/
def ServiceUnit.reset : ServiceUnit where
  state := .powerUp
  position := .inn
  path := none
  memory := ⟨.reset, .reset, .reset⟩
  refusal := none
  boxout := none

/-- The Register unit at POWER_UP (R127, R129). -/
def Register.reset : Register where
  ring := []
  next := 0
  clock := ⟨0, 0, true⟩

/-- The Diagram unit at POWER_UP (R144). F and the divider are fixed at the first frame start; until then they
read the defaults' 125 and 4. -/
def Diagram.reset : Diagram where
  stored := []
  bound := []
  ops := []
  host := []
  latches := ⟨false, false, false⟩
  bright := 200
  dim := 40
  level := .active
  idleFrom := 0
  half := true
  flashCount := 0
  period := 125
  div := 4
  current := none
  started := 0
  published := none

/-- The Supervisory Link unit at POWER_UP (R146, R149, R154 to R156). -/
def Link.reset : Link where
  building := []
  count := 0
  long := false
  framing := false
  queue := []
  owed := 0
  slot := none
  sending := none
  restart := .none
  classes := ⟨false, false, false, false, false⟩
  reports := []
  mark := none
  heldWords := []
  keptWords := []

/-- Nothing handed on: every unit takes its POWER_UP values (R158). -/
def Inbox.reset : Inbox := ⟨[], [], [], [], [], [], [], [], [], [], [], [], [], [], [], [], [], []⟩

/-- The part right after the reset pin is asserted (R158). The pin is held; DESIGN CHOICE (unsafe, log 3): the
strap pins read box number 0. -/
def State.reset : State where
  pending := []
  now := 0
  resetHeld := true
  strap := 0
  contacts := .reset
  levers := Vector.replicate 48 .reset
  locking := []
  track := .reset
  ports := ⟨.reset, .reset, .reset⟩
  codes := []
  sections := ⟨.reset, .reset, .reset⟩
  lastTrain := 0
  service := .reset
  times := .reset
  timesLoaded := false
  register := .reset
  diagram := .reset
  link := .reset
  inbox := .reset

end Sys2Proof.Machine
end

