-- ==== Sys2Proof/Machine/Flags.lean ====
section
/-! DEFINITION. The indications the manual defines by other state: lever positions as other units read them,
granted travel, the outgoing drive of a section state, disagree, beat in progress, ALARM. -/

namespace Sys2Proof.Machine

/-- The end a state is at; TRAVEL, BACKLOCKED and FAULT are away from both (R23). -/
def LeverPos.atEnd : LeverPos → Option LeverEnd
  | .nLocked | .nFree => some .n
  | .rLocked | .rFree => some .r
  | .travel | .backlocked | .fault => none

/-- N_FREE or R_FREE. -/
def LeverPos.isFree : LeverPos → Bool
  | .nFree | .rFree => true
  | _ => false

/-- N_LOCKED or R_LOCKED. -/
def LeverPos.isLocked : LeverPos → Bool
  | .nLocked | .rLocked => true
  | _ => false

/-- TRAVEL with the lock energised (R7). -/
def LeverData.granted (l : LeverData) : Bool :=
  l.pos = .travel && l.lock

/-- The lever has a record. -/
def LeverData.loaded (l : LeverData) : Bool :=
  l.record.isSome

/-- The block control of a lever's record. -/
def LeverData.blockControl (l : LeverData) : Option Sec :=
  match l.record with
  | some r => r.block
  | none => none

/-- The lever's record names the section in its block control. -/
def LeverData.controls (l : LeverData) (x : Sec) : Bool :=
  decide (l.blockControl = some x)

/-- A contact's reading is made. -/
def ContactState.made (c : ContactState) : Bool :=
  c.reading = some true

/-- The state a lever takes from its N and R readings (R7). -/
def posOfContacts (n r : Bool) : LeverPos :=
  match n, r with
  | true, false => .nLocked
  | false, true => .rLocked
  | true, true => .fault
  | false, false => .travel

/-- The last end a state sets of itself (R23): none for TRAVEL and FAULT. -/
def LeverPos.freshEnd : LeverPos → Option LeverEnd
  | .nLocked | .nFree => some .n
  | .rLocked | .rFree | .backlocked => some .r
  | .travel | .fault => none

/-- The switch position shown by the LC and TOL readings at POWER_UP: LB if both are made (R99). -/
def positionOfContacts (lc tol : Bool) : Ind :=
  match lc, tol with
  | true, false => .lc
  | false, true => .tol
  | _, _ => .lb

/-- The current a section state drives on the outgoing indicator (R96). THROUGH is regenerated by R124; LB stands
until it is. -/
def driveOf : SecState → Ind
  | .clearIn => .lc
  | .protected_ | .enteredIn => .tol
  | _ => .lb

/-- The states that hold no train record (R110). -/
def SecState.holdsNone : SecState → Bool
  | .closed | .blocked | .protected_ | .unofferedClear | .through => true
  | _ => false

/-- The disagree condition of a section (R99). -/
def SectionData.disagree (k : SectionData) : Bool :=
  decide (k.state ≠ .closed ∧ k.state ≠ .through ∧ k.position ≠ k.drive)

/-- The box disagree condition (R116). -/
def ServiceUnit.disagree (v : ServiceUnit) : Bool :=
  decide ((v.state = .inService ∧ v.position = .out) ∨ (v.state = .switchedOut ∧ v.position = .inn))

/-- A sensed beat is in progress on the port, from its start-of-beat event to its end-of-beat event (R81). -/
def PortData.sensedBeat (k : PortData) : Bool :=
  k.pulses.any (·.beat)

/-- The beat in progress indication (R81), of beats of both directions and of repeat drives (R138). -/
def PortData.beatInProgress (k : PortData) : Bool :=
  k.drive || k.sensedBeat

/-- The code in assembly has its suppressed flag set (R88). -/
def PortData.suppressed (k : PortData) : Bool :=
  match k.code with
  | some c => c.suppressed
  | none => false

/-- The condition of the ALARM source (R138). -/
def alarm (levers : Vector LeverData 48) (circuits : Vector CircuitData 20) : Bool :=
  circuits.toList.any (fun t => match t.state with | .failed _ => true | _ => false) ||
    levers.toList.any (·.forced)

end Sys2Proof.Machine
end

