-- ==== Sys2Proof/Machine/Ops.lean ====
section
/-! DEFINITION. The operations every unit works with: reading and replacing one lever, circuit, section or port;
handing an event or a register entry to another unit and taking one; and what every step hands on at its end. -/

namespace Sys2Proof.Machine

/-! ### One lever, circuit, section, port -/

def State.lever (s : State) (n : Lever) : LeverData := s.levers[n]

def State.setLever (s : State) (n : Lever) (l : LeverData) : State :=
  { s with levers := s.levers.set n.val l }

def State.circuit (s : State) (t : Circuit) : CircuitData := s.track.circuits[t]

def State.setTrack (s : State) (k : TrackUnit) : State :=
  { s with track := k }

def State.section_ (s : State) (x : Sec) : SectionData := s.sections.get x

def State.setSection (s : State) (x : Sec) (k : SectionData) : State :=
  { s with sections := s.sections.set x k }

def State.port (s : State) (p : Sec) : PortData := s.ports.get p

def State.setPort (s : State) (p : Sec) (k : PortData) : State :=
  { s with ports := s.ports.set p k }

def State.setService (s : State) (v : ServiceUnit) : State :=
  { s with service := v }

def State.setLink (s : State) (k : Link) : State :=
  { s with link := k }

def State.setInbox (s : State) (b : Inbox) : State :=
  { s with inbox := b }

def State.setDiagram (s : State) (d : Diagram) : State :=
  { s with diagram := d }

def State.setRegister (s : State) (r : Register) : State :=
  { s with register := r }

def State.setContacts (s : State) (c : Contacts) : State :=
  { s with contacts := c }

/-- Every lever, circuit and section, in order of number or letter. -/
def allLevers : List Lever := List.finRange 48
def allCircuits : List Circuit := List.finRange 20
def allInputs : List Input := List.finRange 16
def allSections : List Sec := [.a, .b, .c]

/-- The part is in the service state. -/
def State.isIn (s : State) (v : ServiceState) : Bool :=
  decide (s.service.state = v)

/-- A circuit is CLEAR. A circuit that is not CLEAR counts as occupied everywhere (R76). -/
def State.clear (s : State) (t : Circuit) : Bool :=
  decide ((s.circuit t).state = .clear)

/-- The proving input's reading is ACTIVE (R3). -/
def State.proves (s : State) (g : Input) : Bool :=
  s.contacts.proving[g].made

/-! ### What a unit has taken (R36, R75)

A reader of a circuit holds it in the state before the first of its changes still on their way to the reader; with none on
its way, in the state the Track unit holds. DEDUCED (log 40): R75 governs R28, R36 and R100 where a change is on its
way. -/

/-- The state of circuit `t` before a change of it. -/
def Change.trackWas (t : Circuit) : Change → Option TrackState
  | .track u was => if u = t then some was else none
  | _ => none

/-- The state of section `x` before a change of it. -/
def Change.secWas (x : Sec) : Change → Option SecState
  | .sec y was => if y = x then some was else none
  | _ => none

/-- The state of circuit `t` before a change of it handed to section `x`. -/
def TrackHanded.trackWas (x : Sec) (t : Circuit) (h : TrackHanded) : Option TrackState :=
  if h.sec = x ∧ h.circuit = t then some h.was else none

/-- The track state in which the Locking unit holds a circuit. -/
def State.lockTrack (s : State) (t : Circuit) : TrackState :=
  (s.inbox.changes.findSome? (·.trackWas t)).getD (s.circuit t).state

/-- The state in which the Locking unit holds an approach section (R36). -/
def State.lockSec (s : State) (x : Sec) : SecState :=
  (s.inbox.changes.findSome? (·.secWas x)).getD (s.section_ x).state

/-- The track state in which the Block unit holds a circuit for section `x`. -/
def State.blockTrack (s : State) (x : Sec) (t : Circuit) : TrackState :=
  (s.inbox.progress.findSome? (·.trackWas x t)).getD (s.circuit t).state

/-! ### Taking what has been handed on -/

/-- The first of a list that meets a test, and the list without it. -/
def takeFirst {α : Type} (p : α → Bool) : List α → Option (α × List α)
  | [] => none
  | y :: ys =>
    if p y then some (y, ys)
    else
      match takeFirst p ys with
      | some (z, zs) => some (z, y :: zs)
      | none => none

/-- A list without the first of it that meets a test. -/
def dropFirst {α : Type} (p : α → Bool) (ys : List α) : List α :=
  match takeFirst p ys with
  | some (_, zs) => zs
  | none => ys

/-- A list with a value at its end, unless it holds the value already. -/
def addOnce {α : Type} [DecidableEq α] (y : α) (ys : List α) : List α :=
  if y ∈ ys then ys else ys ++ [y]

/-- Hand an entry to the Register unit (R127: entries of one unit keep their order). -/
def State.enter (s : State) (u : RegUnit) (e : RegBody) : State :=
  { s with inbox := { s.inbox with entries := s.inbox.entries ++ [(u, e)] } }

/-- Hand several entries of one unit. -/
def State.enterAll (s : State) (u : RegUnit) (es : List RegBody) : State :=
  { s with inbox := { s.inbox with entries := s.inbox.entries ++ es.map (u, ·) } }

/-! ### What a step hands on (R19, R32, R75, R92, R114, R126, R138, R155)

Each change of a unit's state is handed to the units that read it. The changes of a step are found by comparing
the state before it with the state after it, so no meaning can leave one out. -/

/-- A change of the item LEV n: of the state, the lock or a flag (R19). -/
def leverItemChanged (a b : LeverData) : Bool :=
  decide (a.pos ≠ b.pos ∨ a.lock ≠ b.lock ∨ a.refused ≠ b.refused ∨ a.forced ≠ b.forced ∨ a.stalled ≠ b.stalled)

/-- The changes of the item SEC s (R87, R88, R92, R114): everything the section holds but its record and the
settling of its reading, and of the port the held and suppressed flags and the last codes. DEDUCED (log 37): of a running
emergency timer the start and the stop are changes, not each second of the time left. -/
def sectionItemChanged (a b : SectionData) (p q : PortData) : Bool :=
  decide ({ a with record := b.record, showing := b.showing, unsettled := b.unsettled } ≠ b ∨
    p.held ≠ q.held ∨ p.suppressed ≠ q.suppressed ∨ p.sent ≠ q.sent ∨ p.rcvd ≠ q.rcvd)

/-- A change of the item BOX (R126): service state, switch position, disagree, last refusal, actual frame length
and extended condition. -/
def boxItemChanged (s t : State) : Bool :=
  decide (s.service.state ≠ t.service.state ∨ s.service.position ≠ t.service.position ∨
    s.service.disagree ≠ t.service.disagree ∨ s.service.refusal ≠ t.service.refusal ∨
    s.track.actual ≠ t.track.actual ∨ s.track.extended ≠ t.track.extended)

/-- A change of a lever's state as the Locking unit is handed it: of the state (R19, R32), or a stall, granted travel
that becomes caught (R34). -/
def leverStateChanged (a b : LeverData) : Bool :=
  decide (a.pos ≠ b.pos) || (a.granted && !b.granted)

/-- Levers with a record whose state a step changed: a lever with no record is handed to no unit (R19). -/
def changedLevers (s t : State) : List Lever :=
  allLevers.filter fun n => (t.lever n).loaded && leverStateChanged (s.lever n) (t.lever n)

/-- Circuits whose track state a step changed (R75). -/
def changedCircuits (s t : State) : List Circuit :=
  allCircuits.filter fun c => decide ((s.circuit c).state ≠ (t.circuit c).state)

/-- Sections whose state a step changed. -/
def changedSections (s t : State) : List Sec :=
  allSections.filter fun x => decide ((s.section_ x).state ≠ (t.section_ x).state)

/-- Sections whose release a step changed (R104). -/
def changedReleases (s t : State) : List Sec :=
  allSections.filter fun x => decide ((s.section_ x).releaseUnused ≠ (t.section_ x).releaseUnused)

/-- What goes to the Locking unit (R32, R38), a circuit's or a section's change with the state before it. -/
def changesFor (s t : State) : List Change :=
  (changedLevers s t).map .lever ++ (changedCircuits s t).map (fun c => .track c (s.circuit c).state) ++
    (changedSections s t).map (fun x => .sec x (s.section_ x).state) ++ (changedReleases s t).map .release

/-- The arrival tracks of a section's record. -/
def SectionData.arrivals (k : SectionData) : List Circuit :=
  match k.record with
  | some r => r.arrival
  | none => []

/-- The clearing tracks of a section's record. -/
def SectionData.clearings (k : SectionData) : List Circuit :=
  match k.record with
  | some r => r.clearing
  | none => []

/-- Sections whose first arrival track a step took from CLEAR to not CLEAR (R109): such a change is handed to AUTO_TOL as
well as to PROGRESS_CHECK, and one of the two takes it (log 40). -/
def autoTolFor (s t : State) : List Sec :=
  allSections.filter fun x =>
    match (t.section_ x).arrivals with
    | [] => false
    | c :: _ => s.clear c && !t.clear c

/-- What goes to one section: each changed circuit that is an arrival track of it (R111) or a clearing track of it
(R75, R100). -/
def progressOf (s t : State) (x : Sec) : List TrackHanded :=
  ((changedCircuits s t).filter fun c =>
    decide (c ∈ (t.section_ x).arrivals ∨ c ∈ (t.section_ x).clearings)).map fun c => ⟨x, c, (s.circuit c).state⟩

/-- What goes to the sections. -/
def progressFor (s t : State) : List TrackHanded :=
  progressOf s t .a ++ progressOf s t .b ++ progressOf s t .c

/-- DISAGREE entries of the Block unit: each change of a section's disagree from false to true (R99). -/
def disagreeFor (s t : State) : List RegBody :=
  (allSections.filter fun x => !(s.section_ x).disagree && (t.section_ x).disagree).map fun x => .disagree (some x)

/-- The DISAGREE BOX entry of the Service controller (R126). -/
def boxDisagreeFor (s t : State) : List RegBody :=
  if !s.service.disagree && t.service.disagree then [.disagree none] else []

/-- Hand the changes of a step to the Locking, Block, Register and Diagram units. -/
def handChanges (s t : State) : State :=
  { t with inbox := { t.inbox with
      changes := t.inbox.changes ++ changesFor s t
      autoTol := t.inbox.autoTol ++ autoTolFor s t
      progress := t.inbox.progress ++ progressFor s t
      entries := t.inbox.entries ++ (disagreeFor s t).map (.block, ·) ++ (boxDisagreeFor s t).map (.service, ·)
      service := t.inbox.service ++
        (if s.service.state = t.service.state then [] else [(s.service.state, t.service.state)]) } }

/-- A BELL latch is set whenever the port's beat in progress indication becomes true (R138). -/
def latchAfter (s t : State) (p : Sec) : Bool :=
  t.diagram.latches.get p || (!(s.port p).beatInProgress && (t.port p).beatInProgress)

/-- Set the BELL latches of a step. -/
def setLatches (s t : State) : State :=
  { t with diagram := { t.diagram with latches := ⟨latchAfter s t .a, latchAfter s t .b, latchAfter s t .c⟩ } }

/-- The items a step changed. DESIGN CHOICE (log 9): levers, then circuits, then sections, then the box, after those a
meaning puts in itself. -/
def itemsFor (s t : State) : List Item :=
  ((allLevers.filter fun n => (t.lever n).loaded && leverItemChanged (s.lever n) (t.lever n)).map .lev) ++
    ((changedCircuits s t).map .tc) ++
    ((allSections.filter fun x =>
      sectionItemChanged (s.section_ x) (t.section_ x) (s.port x) (t.port x)).map .sec) ++
    (if boxItemChanged s t then [.box] else [])

/-- The item's class is notified (R155). -/
def Classes.has (k : Classes) : Item → Bool
  | .lev _ => k.lev
  | .tc _ => k.tc
  | .sec _ => k.sec
  | .box => k.box

/-- Items put into the pending report set: one already present keeps its place (R155). -/
def addItems (k : Classes) : List Item → List Item → List Item
  | set, [] => set
  | set, i :: is => addItems k (if k.has i then addOnce i set else set) is

/-- Changes of items are handed to the pending report set (R155). -/
def State.report (s : State) (is : List Item) : State :=
  { s with link := { s.link with reports := addItems s.link.classes s.link.reports is } }

/-- Put the changed items of a step into the pending report set. -/
def noteItems (s t : State) : State :=
  t.report (itemsFor s t)

/-- The end of every step that is not a reset: what changed between `s` and `t` is handed on. -/
def commit (s t : State) : State :=
  noteItems s (setLatches s (handChanges s t))

end Sys2Proof.Machine
end

