-- ==== Sys2Proof/Machine/Bell.lean ====
section
/-! DEFINITION. The Bell unit: sense, beats, codes, the tapper, collisions, the local bell and the through path of
the bells (R79 to R93, R122, R123). -/

namespace Sys2Proof.Machine

/-! ### Sense (R79) -/

/-- The sense the line interface gives. -/
def senseOf (drive current : Bool) : Sense :=
  match drive, current with
  | false, false => .idle
  | false, true => .incoming
  | true, true => .outgoing
  | true, false => .clash

/-- The open pulse ends at `t`: kept if it is a beat or has lasted BEATMIN, else it was noise (R81). -/
def closePulse (beatmin t : Nat) : List Pulse → List Pulse
  | [] => []
  | u :: us =>
    match u.ended with
    | some _ => u :: closePulse beatmin t us
    | none => if u.beat || decide (u.start + beatmin ≤ t) then { u with ended := some t } :: us else us

/-- A new sense is taken, measured from `t` (R79). The first one is the starting value and begins no pulse. -/
def PortData.takeSense (k : PortData) (beatmin : Nat) (v : Sense) (t : Nat) : PortData :=
  if !k.sensed then { k with sense := v, sensed := true }
  else if k.sense = v then k
  else
    { k with
      sense := v
      pulses := (if k.sense = .incoming then closePulse beatmin t k.pulses else k.pulses) ++
        (if k.sense = .idle ∧ v = .incoming then [⟨t, none, false, false⟩] else []) }

/-- A sample of the sense: two consecutive samples that agree are taken (R79). A sense of CLASH taken under the
drive is kept until the collision or the end of the drive (R90, R123). DESIGN CHOICE (log 47): where the sense still
stands at CLASH from an earlier drive, one sample of CLASH under the new drive is its collision. -/
def PortData.sample (k : PortData) (beatmin now : Nat) (v : Sense) : PortData :=
  let k' :=
    match k.lastSample with
    | some (u, t) => if u = v then k.takeSense beatmin v t else { k with lastSample := some (v, now) }
    | none => { k with lastSample := some (v, now) }
  if k'.drive && decide (v = .clash) && decide (k'.sense = .clash) then { k' with clash := true } else k'

/-- BELL_SENSE_SAMPLE. In POWER_UP the sense is not read. -/
def bellSenseSample (p : Sec) (current : Bool) (s : State) : State :=
  if s.isIn .powerUp then s
  else s.setPort p ((s.port p).sample s.times.beatmin s.now (senseOf (s.port p).drive current))

def execBellSenseSample (p : Sec) (current : Bool) (s : State) : Host.Outcome State Fault Refusal :=
  .next (commit s (bellSenseSample p current s))

/-! ### The drive -/

/-- The drive is turned on. A pulse that has not lasted BEATMIN ends with it and is no beat (R89). -/
def PortData.driveOn (k : PortData) (beatmin now : Nat) : PortData :=
  { k with
    drive := true
    clash := false
    pulses := k.pulses.filter fun u => u.beat || u.ended.isSome || decide (u.start + beatmin ≤ now) }

/-- The drive is turned off, which ends the beat or the repeat it carried. -/
def PortData.driveOff (k : PortData) : PortData :=
  { k with drive := false, clash := false, out := none, rpt := none }

/-! ### Assembling a code (R82, R83) -/

/-- A new code of one group of one beat, the beat in progress. -/
def newCode (d : Dir) : Code where
  dir := d
  groups := [1]
  lastEnd := none
  spoil := .absent
  overflow := false
  suppressed := false
  unrepeated := false

/-- A code is spoiled; one already spoiled keeps the mark it has (R83). -/
def Code.spoilBy (c : Code) (cause : Option SpoilCause) : Code :=
  match c.spoil with
  | .absent => { c with spoil := .present cause }
  | .present _ => c

/-- One beat more in the last group, or a spoil when the group is full (R83). -/
def Code.extend (c : Code) : Code :=
  match c.groups.reverse with
  | [] => { c with groups := [1] }
  | g :: gs =>
    if g < Config.maxBeats then { c with groups := ((g + 1) :: gs).reverse } else c.spoilBy none

/-- A beat is added at its gap (R82, R83). Until it ends, the code's last beat has no end time. -/
def Code.addBeat (c : Code) (gap join : Nat) : Code :=
  let c := { c with lastEnd := none }
  if c.overflow then c.spoilBy none
  else if gap ≤ join then c.extend
  else if c.groups.length < Config.maxGroups then { c with groups := c.groups ++ [1] }
  else { c with overflow := true }.spoilBy none

/-- The gap from the code's last beat to a beat that starts at `start`. -/
def Code.gapTo (c : Code) (start : Nat) : Nat :=
  match c.lastEnd with
  | some t => start - t
  | none => 0

/-- The code of a port changed, if it has one. -/
def PortData.withCode (k : PortData) (f : Code → Code) : PortData :=
  { k with code := k.code.map f }

/-- The code's last beat ends at `t`. -/
def Code.beatEnds (t : Nat) (c : Code) : Code :=
  { c with lastEnd := some t }

/-! ### Completion (R84, R92) -/

/-- The classification of a complete code, by the table as it stands (R84). -/
def classify (table : List CodeEntry) (c : Code) : Classification :=
  match c.spoil with
  | .present cause => .erroneous cause
  | .absent =>
    match table.find? fun e => decide (e.pattern = c.groups) with
    | some e => .meaning e.meaning
    | none => .unknown

/-- The record of a code that completes now (R92). -/
def State.recordOf (s : State) (c : Code) : CodeRecord :=
  ⟨c.groups, classify s.codes c, s.register.clock, s.now⟩

/-- A code of port `p` completes: recorded as last sent or last received, the owner FREE, and handed to the Block
unit, the Service controller and the Register unit (R82, R92). -/
def completeCode (p : Sec) (c : Code) (s : State) : State :=
  let r := s.recordOf c
  let k := s.port p
  let k' : PortData :=
    { k with
      owner := .free
      code := none
      sent := if c.dir = .outgoing then some r else k.sent
      rcvd := if c.dir = .outgoing then k.rcvd else some r }
  let h : CodeHanded := ⟨p, c.dir, r, c.unrepeated⟩
  ((s.setPort p k').setInbox
    { s.inbox with codes := s.inbox.codes ++ [h], exchange := s.inbox.exchange ++ [h] }).enter .bell
      (.bell p c.dir c.groups r.cls)

/-- The end wait of a code has run out with no beat of it begun (R82). -/
def Code.waitOver (c : Code) (endWait now : Nat) : Bool :=
  match c.lastEnd with
  | some t => decide (t + endWait ≤ now)
  | none => false

/-- CODE_COMPLETE. -/
def codeComplete (p : Sec) (s : State) : State :=
  match (s.port p).code with
  | none => s
  | some c => if c.waitOver s.times.endWait s.now then completeCode p c s else s

def execCodeComplete (p : Sec) (s : State) : Host.Outcome State Fault Refusal :=
  .next (commit s (codeComplete p s))

/-! ### Sensed beats (R81, R82, R89, R91) -/

/-- The direction of a code begun by a sensed beat (R82). -/
def State.sensedDir (s : State) (p : Sec) : Dir :=
  if s.isIn .switchedOut && p.throughPair.isSome then .thru else .incoming

/-- A sensed beat begins a new code and owns the line. -/
def beginSensed (p : Sec) (s : State) : State :=
  s.setPort p { s.port p with owner := .incoming, code := some (newCode (s.sensedDir p)) }

/-- A sensed beat that started at `start` is assembled; under an owner of OUT it first interrupts that code, which
is complete at once (R89). -/
def assembleBeat (p : Sec) (start : Nat) (s : State) : State :=
  match (s.port p).owner, (s.port p).code with
  | .incoming, some c => s.setPort p { s.port p with code := some (c.addBeat (c.gapTo start) s.times.join) }
  | .outgoing, some c => beginSensed p (completeCode p (c.spoilBy (some .interrupted)) s)
  | _, _ => beginSensed p s

/-- The sounder at a start-of-beat event (R91). -/
def ringOf (t : Times) (now : Nat) : Sounder :=
  match t.localmode with
  | .follow => .follow
  | .stroke => .stroke (now + t.stroke)

/-- The local bell is rung. -/
def ringBell (p : Sec) (s : State) : State :=
  s.setPort p { s.port p with sounder := ringOf s.times s.now }

/-- The sounder of a beat that is over or held: off under FOLLOW, a stroke runs on (R91). -/
def Sounder.beatOver : Sounder → Sounder
  | .follow => .off
  | v => v

/-- A THRU code in assembly on `p` is marked as not repeated whole onto the other port (R118). -/
def markUnrepeated (p : Sec) (s : State) : State :=
  s.setPort p ((s.port p).withCode fun c => if c.dir = .thru then { c with unrepeated := true } else c)

/-- The through path owner (R122). -/
def State.setPath (s : State) (o : Option Sec) : State :=
  s.setService { s.service with path := o }

/-- A beat of `p` takes the through path toward `q` (R122). A path still owned by `p` for its last repeat is taken
as one with no owner (DEDUCED, log 18: the new beat is after that one). -/
def throughPath (p q : Sec) (s : State) : State :=
  if s.service.path = some q then (markUnrepeated p s).enter .service (.clash p)
  else if (s.port q).owner = .free then
    (s.setPath (some p)).setPort q
      { (s.port q).driveOn s.times.beatmin s.now with rpt := some ⟨s.now, none⟩, out := none }
  else markUnrepeated p (s.setPath (some p))

/-- A start-of-beat event on `p` as through working takes it (R122). A beat of a THRU code begun after the part has
switched in is not repeated. -/
def throughBeat (p : Sec) (s : State) : State :=
  match p.throughPair with
  | none => s
  | some q => if s.isIn .switchedOut then throughPath p q s else markUnrepeated p s

/-- The pulse has lasted BEATMIN (R81). One that has ended had, or it would have been dropped as noise. DESIGN CHOICE
(log 45): it is judged once, by the BEATMIN in force at its end, and one in progress by the BEATMIN in force now. -/
def Pulse.lasted (u : Pulse) (beatmin now : Nat) : Bool :=
  match u.ended with
  | some _ => true
  | none => decide (u.start + beatmin ≤ now)

/-- START_OF_BEAT: the oldest pulse has lasted BEATMIN and becomes a beat, which is assembled, rung and taken by
through working. While an outgoing beat is in progress no pulse becomes a beat (R89, R90). -/
def startOfBeat (p : Sec) (s : State) : State :=
  match (s.port p).pulses with
  | [] => s
  | u :: us =>
    if !u.beat && (s.port p).out.isNone && u.lasted s.times.beatmin s.now then
      throughBeat p (ringBell p (assembleBeat p u.start
        (s.setPort p { s.port p with pulses := { u with beat := true } :: us })))
    else s

def execStartOfBeat (p : Sec) (s : State) : Host.Outcome State Fault Refusal :=
  .next (commit s (startOfBeat p s))

/-- The repeat of a beat of `p` that ended at `t` is to end BEATMIN later; where none is driven, the path owner
returns to NONE (R122). -/
def endThrough (p : Sec) (t : Nat) (s : State) : State :=
  match p.throughPair with
  | none => s
  | some q =>
    if s.service.path = some p then
      match (s.port q).rpt with
      | some r => s.setPort q { s.port q with rpt := some { r with stop := some (t + s.times.beatmin) } }
      | none => s.setPath none
    else s

/-- END_OF_BEAT: the beat's sense has left IN (R81). -/
def endOfBeat (p : Sec) (s : State) : State :=
  match (s.port p).pulses with
  | [] => s
  | u :: us =>
    match u.beat, u.ended with
    | true, some t =>
      endThrough p t (s.setPort p
        { (s.port p).withCode (Code.beatEnds t) with pulses := us, sounder := (s.port p).sounder.beatOver })
    | _, _ => s

def execEndOfBeat (p : Sec) (s : State) : Host.Outcome State Fault Refusal :=
  .next (commit s (endOfBeat p s))

/-- The beat was still in progress when it had lasted BEATMAX (R81). -/
def Pulse.over (u : Pulse) (beatmax now : Nat) : Bool :=
  match u.ended with
  | some t => decide (u.start + beatmax < t)
  | none => decide (u.start + beatmax ≤ now)

/-- BEAT_HELD: the beat becomes held and spoils its code; FOLLOW falls silent (R81, R83, R91). -/
def beatHeld (p : Sec) (s : State) : State :=
  match (s.port p).pulses with
  | [] => s
  | u :: us =>
    if u.beat && !u.held && u.over s.times.beatmax s.now then
      s.setPort p
        { (s.port p).withCode (·.spoilBy (some .held)) with
          pulses := { u with held := true } :: us
          sounder := (s.port p).sounder.beatOver }
    else s

def execBeatHeld (p : Sec) (s : State) : Host.Outcome State Fault Refusal :=
  .next (commit s (beatHeld p s))

/-- STROKE_END: the local bell stroke has lasted its length (R91). -/
def strokeEnd (p : Sec) (s : State) : State :=
  match (s.port p).sounder with
  | .stroke t => if t ≤ s.now then s.setPort p { s.port p with sounder := .off } else s
  | _ => s

def execStrokeEnd (p : Sec) (s : State) : Host.Outcome State Fault Refusal :=
  .next (commit s (strokeEnd p s))

/-! ### The tapper (R86 to R88) -/

/-- A press on the port is taken under the ownership rule (R86). -/
def State.tapperWorks (s : State) (p : Sec) : Bool :=
  s.isIn .inService || (s.isIn .switchedOut && decide (p = .c))

/-- An outgoing beat begins with a code. -/
def beginOut (p : Sec) (c : Code) (s : State) : State :=
  s.setPort p
    { (s.port p).driveOn s.times.beatmin s.now with
      out := some ⟨s.now, true⟩
      rpt := none
      owner := .outgoing
      code := some c }

/-- A press that is taken under the ownership rule (R86, R88). -/
def pressTaken (p : Sec) (s : State) : State :=
  let k := s.port p
  match k.out with
  | some o => s.setPort p { k with out := some { o with made := true } }
  | none =>
    if k.held then s
    else
      match k.owner, k.code with
      | .incoming, _ => s.setPort p (k.withCode fun c => { c with suppressed := true })
      | .outgoing, some c => beginOut p (c.addBeat (c.gapTo s.now) s.times.join) s
      | _, _ => beginOut p (newCode .outgoing) s

/-- Take a tapper event of a port: the first one waiting for it, if it is of this kind. -/
def takeTapper (p : Sec) (press : Bool) (s : State) : Option State :=
  match takeFirst (fun e => decide (e.1 = p)) s.inbox.tappers with
  | some ((_, e), rest) => if e = press then some (s.setInbox { s.inbox with tappers := rest }) else none
  | none => none

/-- TAPPER_PRESS. -/
def tapperPress (p : Sec) (s : State) : State :=
  match takeTapper p true s with
  | none => s
  | some s' => if s'.tapperWorks p then pressTaken p s' else s'

def execTapperPress (p : Sec) (s : State) : Host.Outcome State Fault Refusal :=
  .next (commit s (tapperPress p s))

/-- The outgoing beat ends now with the drive (R86). -/
def PortData.endOutBeat (k : PortData) (now : Nat) : PortData :=
  (k.withCode (Code.beatEnds now)).driveOff

/-- A release under an outgoing beat: the beat ends, or the stretch begins (R86). -/
def releaseTaken (p : Sec) (s : State) : State :=
  let k := { s.port p with held := false }
  match k.out with
  | none => s.setPort p k
  | some o =>
    if o.start + s.times.beatmin ≤ s.now then s.setPort p (k.endOutBeat s.now)
    else s.setPort p { k with out := some { o with made := false } }

/-- TAPPER_RELEASE; it clears the held flag (R87). -/
def tapperRelease (p : Sec) (s : State) : State :=
  match takeTapper p false s with
  | none => s
  | some s' => releaseTaken p s'

def execTapperRelease (p : Sec) (s : State) : Host.Outcome State Fault Refusal :=
  .next (commit s (tapperRelease p s))

/-- STRETCH_END: BEATMIN has passed from the drive's start with the tapper released (R86). -/
def stretchEnd (p : Sec) (s : State) : State :=
  match (s.port p).out with
  | some o =>
    if !o.made && decide (o.start + s.times.beatmin ≤ s.now) then s.setPort p ((s.port p).endOutBeat s.now) else s
  | none => s

def execStretchEnd (p : Sec) (s : State) : Host.Outcome State Fault Refusal :=
  .next (commit s (stretchEnd p s))

/-- TAPPER_HELD_CUT: the drive has been on for BEATMAX with the tapper made (R87). -/
def tapperHeldCut (p : Sec) (s : State) : State :=
  match (s.port p).out with
  | some o =>
    if o.made && decide (o.start + s.times.beatmax ≤ s.now) then
      s.setPort p { ((s.port p).withCode (·.spoilBy (some .held))).endOutBeat s.now with held := true }
    else s
  | none => s

def execTapperHeldCut (p : Sec) (s : State) : Host.Outcome State Fault Refusal :=
  .next (commit s (tapperHeldCut p s))

/-- A tapper drive that is on is turned off and its beat ends (R93: at WITHDRAW and at switching out). -/
def cutTapper (p : Sec) (s : State) : State :=
  if (s.port p).out.isSome then s.setPort p ((s.port p).endOutBeat s.now) else s

/-! ### Collisions (R90) -/

/-- COLLISION: CLASH has been taken under an outgoing beat. -/
def collision (p : Sec) (s : State) : State :=
  let k := s.port p
  if k.clash && k.out.isSome then
    let s' := (s.setPort p k.driveOff).enter .bell (.clash p)
    match k.code with
    | some c => completeCode p (c.spoilBy (some .clashed)) s'
    | none => s'
  else s

def execCollision (p : Sec) (s : State) : Host.Outcome State Fault Refusal :=
  .next (commit s (collision p s))

/-! ### Repeats of through working (R122, R123) -/

/-- A sensed beat of the port has begun and its end has not been taken. -/
def PortData.beatOn (k : PortData) : Bool :=
  match k.pulses with
  | [] => false
  | u :: _ => u.beat

/-- A repeat on `q` is over: the path owner returns to NONE if the beat it repeated is over too (R122). -/
def repeatOver (q : Sec) (s : State) : State :=
  let s' := s.setPort q (s.port q).driveOff
  match q.throughPair with
  | none => s'
  | some p => if (s.port p).beatOn then s' else s'.setPath none

/-- The repeat is to end now (R122): BEATMIN after its beat's end, or when it has been on for BEATMAX. -/
def Repeat.due (r : Repeat) (beatmax now : Nat) : Bool :=
  (match r.stop with
    | some t => decide (t ≤ now)
    | none => false) || decide (r.start + beatmax ≤ now)

/-- REPEAT_END. -/
def repeatEnd (q : Sec) (s : State) : State :=
  match (s.port q).rpt with
  | some r => if r.due s.times.beatmax s.now then repeatOver q s else s
  | none => s

def execRepeatEnd (q : Sec) (s : State) : Host.Outcome State Fault Refusal :=
  .next (commit s (repeatEnd q s))

/-- The code of the other through port is marked as not repeated whole. -/
def markOther (q : Sec) (s : State) : State :=
  match q.throughPair with
  | none => s
  | some p => markUnrepeated p s

/-- REPEAT_CLASH: CLASH has been taken under a repeat on `q` (R123). -/
def repeatClash (q : Sec) (s : State) : State :=
  if (s.port q).clash && (s.port q).rpt.isSome then (markOther q (repeatOver q s)).enter .service (.clash q) else s

def execRepeatClash (q : Sec) (s : State) : Host.Outcome State Fault Refusal :=
  .next (commit s (repeatClash q s))

end Sys2Proof.Machine
end

