-- ==== Sys2Proof/Machine/Block.lean ====
section
/-! DEFINITION. The Block unit: the incoming indicator, the block switch, delivered codes, auto-TOL, the train
record, the release and the emergency release (R95 to R115). -/

namespace Sys2Proof.Machine

/-! ### Entering a state (R96, R97, R110, R112, R114) -/

/-- A section enters a state: its drive follows, the flags of CLEAR_OUT and CLEAR_IN are cleared, and a state that
holds no record ends it with its emergency timer and released flag. `train` is the record it holds otherwise. -/
def SectionData.enter (k : SectionData) (st : SecState) (train : Option Train) : SectionData :=
  { k with
    state := st
    drive := driveOf st
    releaseUnused := false
    cancelHeard := false
    enteringHeard := false
    timer := if st.holdsNone then none else k.timer
    released := if st.holdsNone then false else k.released
    train := if st.holdsNone then none else train }

/-- The id of the record held before a change, else after it (R114). -/
def trainIdOf (before after : Option Train) : Option Nat :=
  match before with
  | some t => some t.ident
  | none => after.map (·.ident)

/-- The TRAIN entry of a record's end (R112). -/
def trainEntry (x : Sec) (t : Train) (outcome : TrainEnd) : RegBody :=
  .train t.ident x t.inward t.cls outcome t.offered t.entered

/-- The entries of a section's change of state: SECTION, then TRAIN if the change ends a record (R114). -/
def sectionEntries (x : Sec) (a b : SectionData) (outcome : TrainEnd) (auto : Bool) : List RegBody :=
  .change x a.state b.state (trainIdOf a.train b.train) auto ::
    match a.train, b.train with
    | some t, none => [trainEntry x t outcome]
    | _, _ => []

/-- Section `x` enters a state. `outcome` is how a record it held ends if the state holds none. -/
def enterSec (x : Sec) (st : SecState) (train : Option Train) (outcome : TrainEnd) (auto : Bool) (s : State) : State :=
  let k := s.section_ x
  let k' := k.enter st train
  (s.setSection x k').enterAll .block (sectionEntries x k k' outcome auto)

/-- A section enters a state that holds no record. -/
def endSec (x : Sec) (st : SecState) (outcome : TrainEnd) (s : State) : State :=
  enterSec x st none outcome false s

/-! ### The train record (R110, R111) -/

/-- The id after another: 1 again after 999. -/
def nextTrain (n : Nat) : Nat :=
  if n < Config.maxTrainId then n + 1 else 1

/-- The record created next. -/
def State.newTrain (s : State) (inward : Bool) (cls : Nat) (stage : Stage) : Train where
  ident := nextTrain s.lastTrain
  inward := inward
  cls := cls
  stage := stage
  offered := s.register.clock
  accepted := none
  entered := none
  progress := 0

/-- The counter has given its next id. -/
def countTrain (s : State) : State :=
  { s with lastTrain := nextTrain s.lastTrain }

def Train.accept (now : ClockTime) (t : Train) : Train :=
  { t with stage := .accepted, accepted := some now }

def Train.enter (now : ClockTime) (t : Train) : Train :=
  { t with stage := .entered, entered := some now }

/-- How many arrival tracks at the head of a list are not CLEAR. -/
def occupiedRun (clear : Circuit → Bool) : List Circuit → Nat
  | [] => 0
  | c :: cs => if clear c then 0 else occupiedRun clear cs + 1

/-- The record has been carried over every arrival track and the first of them is CLEAR (R111). -/
def arrivedClear (clear : Circuit → Bool) (tracks : List Circuit) (p : Nat) : Bool :=
  match tracks with
  | [] => false
  | c :: _ => decide (p = tracks.length) && clear c

/-- A record after a progress check. -/
def Train.progressed (t : Train) (clear : Circuit → Bool) (tracks : List Circuit) : Train :=
  let p := t.progress + occupiedRun clear (tracks.drop t.progress)
  { t with progress := p, stage := if arrivedClear clear tracks p then .cleared else t.stage }

/-- The progress check of an IN record in ENTERED_IN (R111: the tracks are read as they stand when the change is
taken). -/
def progressCheck (x : Sec) (s : State) : State :=
  let k := s.section_ x
  match k.train with
  | none => s
  | some t =>
    if decide (k.state = .enteredIn) && t.inward then
      s.setSection x { k with train := some (t.progressed s.clear k.arrivals) }
    else s

/-- Section `x` enters ENTERED_IN: its record ENTERED with the entered time, and the progress check (R101, R102,
R109, R111). -/
def enterEnteredIn (x : Sec) (auto : Bool) (s : State) : State :=
  progressCheck x (enterSec x .enteredIn ((s.section_ x).train.map (Train.enter s.register.clock)) .void auto s)

/-- The section's record has AUTOTOL 1 and an arrival track (R109). -/
def SectionData.autoTols (k : SectionData) : Bool :=
  match k.record with
  | some r => r.autotol && !r.arrival.isEmpty
  | none => false

/-- A change of the first arrival track from CLEAR turns the section to ENTERED_IN now (R109). -/
def SectionData.autoTolActs (k : SectionData) : Bool :=
  k.autoTols && decide (k.state = .clearIn)

/-- A change on its way to section `x` is one of its first arrival track from CLEAR, which AUTO_TOL takes too (R109). -/
def State.isFall (s : State) (x : Sec) (h : TrackHanded) : Bool :=
  decide (h.sec = x ∧ (s.section_ x).arrivals.head? = some h.circuit ∧ h.was = .clear)

/-- PROGRESS_CHECK: a change of a track handed to the section is taken. That of an arrival track brings the check; that of
a clearing track is seen by the next arrival at LC (log 40). DEDUCED (log 40): a change of the first arrival track from CLEAR
is one change for the section, so AUTO_TOL has no part in one taken here, and one on which auto-TOL acts is left to it. -/
def takeProgress (x : Sec) (s : State) : State :=
  match takeFirst (fun h => decide (h.sec = x)) s.inbox.progress with
  | none => s
  | some (h, rest) =>
    if s.isFall x h && decide (x ∈ s.inbox.autoTol) && (s.section_ x).autoTolActs then s
    else
      let s' := s.setInbox { s.inbox with
        progress := rest
        autoTol := if s.isFall x h then dropFirst (· = x) s.inbox.autoTol else s.inbox.autoTol }
      if h.circuit ∈ (s.section_ x).arrivals then progressCheck x s' else s'

def execProgressCheck (x : Sec) (s : State) : Host.Outcome State Fault Refusal :=
  .next (commit s (takeProgress x s))

/-- AUTO_TOL: the first arrival track went from CLEAR to not CLEAR (R109). DEDUCED (log 40): the change is taken here whatever
the section's state, and an arrival at LC after it sees it (R100); where auto-TOL does not act it brings the progress check
of R111, which it brings by the entry where auto-TOL acts. -/
def autoTol (x : Sec) (s : State) : State :=
  match takeFirst (· = x) s.inbox.autoTol with
  | none => s
  | some (_, rest) =>
    let s' := s.setInbox { s.inbox with autoTol := rest, progress := dropFirst (s.isFall x) s.inbox.progress }
    if (s.section_ x).autoTolActs then enterEnteredIn x true s' else progressCheck x s'

def execAutoTol (x : Sec) (s : State) : Host.Outcome State Fault Refusal :=
  .next (commit s (autoTol x s))

/-! ### The incoming indicator (R98, R103) -/

/-- The class the samples show and since when. -/
def nowShowing (showing : Option (Ind × Nat)) (now : Nat) : IndClass → Option (Ind × Nat)
  | .outside => none
  | .valid c =>
    match showing with
    | some (c', t) => if c' = c then some (c', t) else some (c, now)
    | none => some (c, now)

/-- The sample's class differs from the reading's, or lies outside the window (R98). -/
def differs (reading : Option Ind) : IndClass → Bool
  | .outside => true
  | .valid c => decide (reading ≠ some c)

/-- INDICATOR_SAMPLE. -/
def SectionData.sampled (k : SectionData) (now : Nat) (cls : IndClass) : SectionData :=
  { k with
    showing := nowShowing k.showing now cls
    unsettled := match k.unsettled with
      | some t => some t
      | none => if differs k.reading cls then some now else none }

def indicatorSample (p : Sec) (cls : IndClass) (s : State) : State :=
  if s.isIn .powerUp then s else s.setSection p ((s.section_ p).sampled s.now cls)

def execIndicatorSample (p : Sec) (cls : IndClass) (s : State) : Host.Outcome State Fault Refusal :=
  .next (commit s (indicatorSample p cls s))

/-- A noted reading: a SECTION entry from the state to itself (R103). -/
def noteReading (x : Sec) (s : State) : State :=
  let k := s.section_ x
  s.enter .block (.change x k.state k.state (trainIdOf k.train none) false)

/-- CLEAR_OUT entered on the neighbour's acceptance, with its release (R103). -/
def enterClearOut (x : Sec) (s : State) : State :=
  let s' := enterSec x .clearOut ((s.section_ x).train.map (Train.accept s.register.clock)) .void false s
  s'.setSection x { s'.section_ x with releaseUnused := true }

/-- READING_CHANGE_TAKEN: the table of R103. -/
def takeReading (x : Sec) (reading : Option Ind) (s : State) : State :=
  let k := s.section_ x
  match k.state, reading with
  | .offerOut, some .lc => enterClearOut x s
  | .clearOut, some .tol => enterSec x .enteredOut (k.train.map (Train.enter s.register.clock)) .void false s
  | .clearOut, some .lb => endSec x .blocked .cancelled s
  | .clearOut, none => noteReading x (s.setSection x { k with releaseUnused := false })
  | .enteredOut, some .lb => endSec x .blocked .complete s
  | .unofferedClear, some .lb => endSec x .blocked .cancelled s
  | .blocked, some .lc => endSec x .unofferedClear .cancelled s
  | .blocked, some .tol => noteReading x s
  | _, _ => s

/-- The reading of a port changes: it is an event for the section, and handed to the Service controller (R98). -/
def changeReading (p : Sec) (reading : Option Ind) (s : State) : State :=
  takeReading p reading
    ((s.setSection p { s.section_ p with reading := reading }).setInbox
      { s.inbox with readings := s.inbox.readings ++ [p] })

/-- The unsettled time stops, and the reading becomes `reading` (R98). -/
def settleReading (p : Sec) (reading : Option Ind) (s : State) : State :=
  let s' := s.setSection p { s.section_ p with unsettled := none }
  if (s.section_ p).reading = reading then s' else changeReading p reading s'

/-- INDICATOR_SETTLED: one valid class shown without a break for INDSTABLE. -/
def indicatorSettled (p : Sec) (s : State) : State :=
  match (s.section_ p).showing with
  | some (c, t) => if t + s.times.indstable ≤ s.now then settleReading p (some c) s else s
  | none => s

def execIndicatorSettled (p : Sec) (s : State) : Host.Outcome State Fault Refusal :=
  .next (commit s (indicatorSettled p s))

/-- UNSETTLED_TIMEOUT: the unsettled time has reached 2 s. -/
def unsettledTimeout (p : Sec) (s : State) : State :=
  match (s.section_ p).unsettled with
  | some t => if t + Config.unsettledLimit ≤ s.now then settleReading p none s else s
  | none => s

def execUnsettledTimeout (p : Sec) (s : State) : Host.Outcome State Fault Refusal :=
  .next (commit s (unsettledTimeout p s))

/-! ### The block switch (R99 to R102) -/

/-- Take a switch arrival: the first one waiting for the section, if it is at this position, which becomes the
switch's position (R99). -/
def takeSwitch (x : Sec) (i : Ind) (s : State) : Option State :=
  match takeFirst (fun e => decide (e.1 = x)) s.inbox.switches with
  | some ((_, j), rest) =>
    if j = i then
      some ((s.setInbox { s.inbox with switches := rest }).setSection x { s.section_ x with position := i })
    else none
  | none => none

/-- Every clearing track is CLEAR, as the section has taken it (R75; R100: a track change taken before the arrival is
seen by it), and every acceptance lever is in N_LOCKED or N_FREE. -/
def State.mayAccept (s : State) (x : Sec) : Bool :=
  match (s.section_ x).record with
  | none => true
  | some r => (r.clearing.all fun t => decide (s.blockTrack x t = .clear)) &&
      r.accept.all fun n => decide ((s.lever n).pos.atEnd = some .n)

/-- An arrival at LC (R100). -/
def switchLC (x : Sec) (s : State) : State :=
  let k := s.section_ x
  if decide (k.state = .offerIn) && s.mayAccept x then
    enterSec x .clearIn (k.train.map (Train.accept s.register.clock)) .void false s
  else s

def arrivalAtLC (x : Sec) (s : State) : State :=
  match takeSwitch x .lc s with
  | none => s
  | some s' => switchLC x s'

def execArrivalAtLC (x : Sec) (s : State) : Host.Outcome State Fault Refusal :=
  .next (commit s (arrivalAtLC x s))

/-- An arrival at TOL (R101). -/
def switchTOL (x : Sec) (s : State) : State :=
  match (s.section_ x).state with
  | .clearIn => enterEnteredIn x false s
  | .blocked | .offerIn | .offerOut | .clearOut | .unofferedClear | .enteredOut => endSec x .protected_ .cancelled s
  | .enteredIn | .protected_ | .closed | .through => s

def arrivalAtTOL (x : Sec) (s : State) : State :=
  match takeSwitch x .tol s with
  | none => s
  | some s' => switchTOL x s'

def execArrivalAtTOL (x : Sec) (s : State) : Host.Outcome State Fault Refusal :=
  .next (commit s (arrivalAtTOL x s))

/-- The section's record has been carried to CLEARED. -/
def SectionData.cleared (k : SectionData) : Bool :=
  match k.train with
  | some t => decide (t.stage = .cleared)
  | none => false

/-- An arrival at LB (R102). -/
def switchLB (x : Sec) (s : State) : State :=
  let k := s.section_ x
  match k.state with
  | .clearIn =>
    if k.enteringHeard then enterEnteredIn x false s
    else if k.cancelHeard then endSec x .blocked .cancelled s
    else s
  | .enteredIn =>
    if k.cleared then endSec x .blocked .complete s
    else if k.released then endSec x .blocked .released s
    else s
  | .protected_ => endSec x .blocked .cancelled s
  | .closed | .blocked | .offerOut | .clearOut | .unofferedClear | .enteredOut | .offerIn | .through => s

def arrivalAtLB (x : Sec) (s : State) : State :=
  match takeSwitch x .lb s with
  | none => s
  | some s' => switchLB x s'

def execArrivalAtLB (x : Sec) (s : State) : Host.Outcome State Fault Refusal :=
  .next (commit s (arrivalAtLB x s))

/-- BLOCK_CONTROL_ARRIVAL: a lever under block control has arrived at R, and the release of its section is cleared, whatever
the section's state (R104). -/
def blockControlArrival (n : Lever) (s : State) : State :=
  match takeFirst (· = n) s.inbox.atR with
  | none => s
  | some (_, rest) =>
    let s' := s.setInbox { s.inbox with atR := rest }
    match (s.lever n).blockControl with
    | some x => s'.setSection x { s'.section_ x with releaseUnused := false }
    | none => s'

def execBlockControlArrival (n : Lever) (s : State) : Host.Outcome State Fault Refusal :=
  .next (commit s (blockControlArrival n s))

/-! ### Delivered codes (R105 to R108) -/

/-- Crossed offers: CROSSED, then the section BLOCKED with its record VOID (R107). -/
def crossOffers (x : Sec) (s : State) : State :=
  endSec x .blocked .void (s.enter .block (.crossed x))

/-- An offer taken in BLOCKED creates its record (R105, R106). -/
def takeOffer (x : Sec) (inward : Bool) (cls : Nat) (s : State) : State :=
  enterSec x (if inward then .offerIn else .offerOut) (some (s.newTrain inward cls .offered)) .void false (countTrain s)

/-- What an OUT code does, if it acts (R105). -/
def outCodeResult (x : Sec) (c : Classification) (s : State) : Option State :=
  match c, (s.section_ x).state with
  | .meaning (.offer cls), .blocked => some (takeOffer x false cls s)
  | .meaning (.offer _), .offerIn => some (crossOffers x s)
  | .meaning .cancel, .offerOut => some (endSec x .blocked .cancelled s)
  | _, _ => none

/-- What an IN code does, if it acts (R106). -/
def inCodeResult (x : Sec) (c : Classification) (s : State) : Option State :=
  let k := s.section_ x
  match c, k.state with
  | .meaning (.offer cls), .blocked => some (takeOffer x true cls s)
  | .meaning (.offer _), .offerOut => some (crossOffers x s)
  | .meaning .cancel, .offerIn => some (endSec x .blocked .cancelled s)
  | .meaning .cancel, .clearIn => if k.enteringHeard then none else some (s.setSection x { k with cancelHeard := true })
  | .meaning .entering, .clearIn =>
    if k.enteringHeard then none else some (s.setSection x { k with enteringHeard := true, cancelHeard := false })
  | _, _ => none

/-- The mark of a delivered code (R108): none in CLOSED and THROUGH. -/
def markFor (st : SecState) (acted : Bool) : Option Mark :=
  match st with
  | .closed | .through => none
  | _ => some (if acted then .taken else .outOfTurn)

/-- A section marks a code. Each marking is a change of SEC s, with the mark of the code before it or another (R108). -/
def State.setMark (s : State) (x : Sec) (k : SectionData) (mark : Option Mark) : State :=
  (s.setSection x k).report (if mark.isSome then [.sec x] else [])

/-- Take a delivered code of a port: the first one waiting for it, if its direction is as asked. -/
def takeCode (x : Sec) (out : Bool) (s : State) : Option (CodeHanded × State) :=
  match takeFirst (fun h => decide (h.port = x)) s.inbox.codes with
  | some (h, rest) =>
    if decide (h.dir = .outgoing) = out then some (h, s.setInbox { s.inbox with codes := rest }) else none
  | none => none

/-- OUT_CODE_TAKEN. -/
def outCodeTaken (x : Sec) (s : State) : State :=
  match takeCode x true s with
  | none => s
  | some (h, s₁) =>
    let r := outCodeResult x h.code.cls s₁
    let s₂ := r.getD s₁
    let mark := markFor (s.section_ x).state r.isSome
    s₂.setMark x { s₂.section_ x with sentMark := mark } mark

def execOutCodeTaken (x : Sec) (s : State) : Host.Outcome State Fault Refusal :=
  .next (commit s (outCodeTaken x s))

/-- IN_CODE_TAKEN. A THRU code gives no result (R125). -/
def inCodeTaken (x : Sec) (s : State) : State :=
  match takeCode x false s with
  | none => s
  | some (h, s₁) =>
    let r := if h.dir = .incoming then inCodeResult x h.code.cls s₁ else none
    let s₂ := r.getD s₁
    let mark := markFor (s.section_ x).state r.isSome
    s₂.setMark x { s₂.section_ x with rcvdMark := mark } mark

def execInCodeTaken (x : Sec) (s : State) : Host.Outcome State Fault Refusal :=
  .next (commit s (inCodeTaken x s))

/-! ### Emergency release (R113) -/

/-- A press is accepted. -/
def SectionData.mayRelease (k : SectionData) : Bool :=
  decide (k.state = .enteredIn) && !k.cleared && k.timer.isNone && !k.released

/-- The release count after one more. -/
def countRelease (n : Nat) : Nat :=
  if n < Config.maxReleases then n + 1 else n

/-- RELEASE_PLUNGER_PRESS. -/
def pressPlunger (x : Sec) (s : State) : State :=
  let k := s.section_ x
  if k.mayRelease then
    (s.setSection x { k with timer := some (s.now + s.times.emrel * 1000), releases := countRelease k.releases }).enter
      .block (.release x (countRelease k.releases))
  else s

def releasePlungerPress (x : Sec) (s : State) : State :=
  match takeFirst (· = x) s.inbox.plungers with
  | none => s
  | some (_, rest) => pressPlunger x (s.setInbox { s.inbox with plungers := rest })

def execReleasePlungerPress (x : Sec) (s : State) : Host.Outcome State Fault Refusal :=
  .next (commit s (releasePlungerPress x s))

/-- EMERGENCY_TIMER_EXPIRY. -/
def emergencyTimerExpiry (x : Sec) (s : State) : State :=
  match (s.section_ x).timer with
  | some t => if t ≤ s.now then s.setSection x { s.section_ x with timer := none, released := true } else s
  | none => s

def execEmergencyTimerExpiry (x : Sec) (s : State) : Host.Outcome State Fault Refusal :=
  .next (commit s (emergencyTimerExpiry x s))

/-! ### Entries with the box (R115) -/

/-- A loaded section enters a state that holds no record with the change of service state. -/
def enterLoaded (st : SecState) (x : Sec) (s : State) : State :=
  if (s.section_ x).record.isSome then endSec x st .cancelled s else s

end Sys2Proof.Machine
end

