-- ==== Sys2Proof/Machine/Contacts.lean ====
section
/-! DEFINITION. Reset, initialisation and the contact matrix: RESET, RESET_RELEASE, INITIALISATION_COMPLETE,
RESTART_POWER_UP and CONTACT_SCAN (R1, R2, R7, R99, R116, R157, R158). -/

namespace Sys2Proof.Machine

/-! ### Reset -/

/-- Entry into POWER_UP from any state (R158): every unit takes its POWER_UP values, the output driver chain is
cleared and the strap pins are read. The queue of commands and the model's time are not the part's. -/
def powerUp (held : Bool) (strap : Fin 4) (s : State) : State :=
  { State.reset with pending := s.pending, now := s.now, resetHeld := held, strap := strap }

/-- RESET: the reset pin is asserted and held (R158). -/
def execReset (strap : Fin 4) (s : State) : Host.Outcome State Fault Refusal :=
  .next (powerUp true strap s)

/-- RESET_RELEASE: the hold ends, initialisation begins and reception starts again (R157, R158). -/
def releaseReset (s : State) : State :=
  { s with resetHeld := false }

def execResetRelease (s : State) : Host.Outcome State Fault Refusal :=
  .next (releaseReset s)

/-- The model's time a line takes on the wire has passed since its sending started: ten bit times a character at
57,600 baud, 5,760 characters a second (chapter 10, R153). -/
def lineOver (now : Nat) (k : Sending) : Bool :=
  decide (k.line.length * 1000 ≤ (now - k.since) * 5760)

/-- RESTART_POWER_UP: at the end of the sending of the RESTART reply the part enters POWER_UP with every effect
of the reset pin (R157, R159). The pin is not held, so initialisation runs at once. -/
def restartEnds (s : State) : Bool :=
  decide (s.link.restart = .replySending) &&
    match s.link.sending with
    | some k => lineOver s.now k
    | none => false

def execRestartPowerUp (strap : Fin 4) (s : State) : Host.Outcome State Fault Refusal :=
  .next (if restartEnds s then powerUp false strap s else s)

/-! ### Debouncing (R1) -/

/-- One scan of one contact: the reading takes the sensed value at the third consecutive scan that senses it
against the reading, or, before the first reading, at the third scan that agrees. -/
def ContactState.scan (c : ContactState) (v : Bool) : ContactState :=
  match c.reading with
  | some r =>
    if v = r then { c with seen := v, count := 0 }
    else if c.count + 1 = 3 then ⟨some v, v, 0⟩
    else { c with seen := v, count := c.count + 1 }
  | none =>
    if c.count ≠ 0 ∧ v ≠ c.seen then ⟨none, v, 1⟩
    else if c.count + 1 = 3 then ⟨some v, v, 0⟩
    else ⟨none, v, c.count + 1⟩

/-- The reading became made, or broken, between two scans; a first reading is no arrival (R1). -/
def arrivedMade (a b : ContactState) : Bool :=
  decide (a.reading = some false ∧ b.reading = some true)

def arrivedBroken (a b : ContactState) : Bool :=
  decide (a.reading = some true ∧ b.reading = some false)

def readingChanged (a b : ContactState) : Bool :=
  arrivedMade a b || arrivedBroken a b

/-- One scan of the whole matrix. -/
def Contacts.scan (k : Contacts) (made : List Contact) : Contacts where
  levers := Vector.ofFn fun n =>
    ⟨k.levers[n].n.scan (decide (Contact.leverN n ∈ made)), k.levers[n].r.scan (decide (Contact.leverR n ∈ made)),
      k.levers[n].h.scan (decide (Contact.leverH n ∈ made))⟩
  proving := Vector.ofFn fun g => k.proving[g].scan (decide (Contact.proving g ∈ made))
  switches := ⟨
    ⟨k.switches.a.lc.scan (decide (Contact.switchLC .a ∈ made)), k.switches.a.tol.scan (decide (Contact.switchTOL .a ∈ made))⟩,
    ⟨k.switches.b.lc.scan (decide (Contact.switchLC .b ∈ made)), k.switches.b.tol.scan (decide (Contact.switchTOL .b ∈ made))⟩,
    ⟨k.switches.c.lc.scan (decide (Contact.switchLC .c ∈ made)), k.switches.c.tol.scan (decide (Contact.switchTOL .c ∈ made))⟩⟩
  tappers := ⟨k.tappers.a.scan (decide (Contact.tapper .a ∈ made)), k.tappers.b.scan (decide (Contact.tapper .b ∈ made)),
    k.tappers.c.scan (decide (Contact.tapper .c ∈ made))⟩
  plungers := ⟨k.plungers.a.scan (decide (Contact.plunger .a ∈ made)), k.plungers.b.scan (decide (Contact.plunger .b ∈ made)),
    k.plungers.c.scan (decide (Contact.plunger .c ∈ made))⟩
  box := k.box.scan (decide (Contact.box ∈ made))

/-- Every contact of the matrix has its first reading (R1). -/
def Contacts.established (k : Contacts) : Bool :=
  allLevers.all (fun n => k.levers[n].n.reading.isSome && k.levers[n].r.reading.isSome && k.levers[n].h.reading.isSome) &&
    allInputs.all (fun g => k.proving[g].reading.isSome) &&
    allSections.all (fun x => (k.switches.get x).lc.reading.isSome && (k.switches.get x).tol.reading.isSome &&
      (k.tappers.get x).reading.isSome && (k.plungers.get x).reading.isSome) &&
    k.box.reading.isSome

/-! ### Events of a scan (R2, R99, R116) -/

/-- The position events of a lever whose N and R readings pass from `(n, r)` to `(n', r')`: first the breaks, then
the makes, each taken against the readings the one before left (R2). DESIGN CHOICE (log 48): where N and R both make at one
scan, the two makes are taken as one event, both made, with no arrival at an end before it; R2 does not say whether they are
one event or two. Two breaks at one scan are one event by R17. -/
def positionEvents (n r n' r' : Bool) : List LeverEvent :=
  let n₁ := n && n'
  let r₁ := r && r'
  let breaks : List LeverEvent :=
    match n, r, n₁, r₁ with
    | true, false, false, false => [.leavingN]
    | false, true, false, false => [.leavingR]
    | true, true, false, false => [.bothBreak]
    | true, true, true, false => [.arrivalN]
    | true, true, false, true => [.arrivalR]
    | _, _, _, _ => []
  let makes : List LeverEvent :=
    if n₁ = n' ∧ r₁ = r' then []
    else
      match n', r' with
      | true, false => [.arrivalN]
      | false, true => [.arrivalR]
      | true, true => [.bothMade]
      | false, false => []
  breaks ++ makes

/-- Both position contacts of a lever have readings, so that its position is defined (R2). -/
def LeverContacts.known (k : LeverContacts) : Bool :=
  k.n.reading.isSome && k.r.reading.isSome

/-- All events of one lever at one scan: a grip first and a grip end last (R2). The readings of N and R give a position,
and so position events, once both contacts have readings (log 6). -/
def leverEvents (a b : LeverContacts) : List LeverEvent :=
  (if arrivedMade a.h b.h then [.grip] else []) ++
    (if a.known then positionEvents a.n.made a.r.made b.n.made b.r.made else []) ++
    (if arrivedBroken a.h b.h then [.gripEnd] else [])

/-- The arrivals of a block switch whose LC and TOL readings pass from `(lc, tol)` to `(lc', tol')`: a break is taken
before a make, and no position while both are made (R99). DESIGN CHOICE (log 48): two makes, or two breaks, of one scan are
taken together, so the former are no arrival and the latter one arrival at LB. -/
def switchArrivals (lc tol lc' tol' : Bool) : List Ind :=
  let lc₁ := lc && lc'
  let tol₁ := tol && tol'
  let breaks : List Ind :=
    if lc₁ = lc ∧ tol₁ = tol then []
    else
      match lc₁, tol₁ with
      | false, false => [.lb]
      | true, false => [.lc]
      | false, true => [.tol]
      | true, true => []
  let makes : List Ind :=
    if lc₁ = lc' ∧ tol₁ = tol' then []
    else
      match lc', tol' with
      | true, false => [.lc]
      | false, true => [.tol]
      | _, _ => []
  breaks ++ makes

/-- Both contacts of a block switch have readings. -/
def SwitchContacts.known (k : SwitchContacts) : Bool :=
  k.lc.reading.isSome && k.tol.reading.isSome

/-- The arrivals of a block switch at one scan: none until both its contacts have readings (R1, R99). -/
def switchEvents (a b : SwitchContacts) : List Ind :=
  if a.known then switchArrivals a.lc.made a.tol.made b.lc.made b.tol.made else []

/-- Signaller activity of a lever's contacts (R1): a grip, or any other contact change. -/
def leverActivity (a b : LeverContacts) : List Activity :=
  (if arrivedMade a.h b.h then [.grip] else []) ++
    (if readingChanged a.n b.n || readingChanged a.r b.r || arrivedBroken a.h b.h then [.other] else [])

/-- Signaller activity of one section's switch, tapper and plunger: an arrival, a press (R1, R142). -/
def sectionActivity (a b : Contacts) (x : Sec) : List Activity :=
  (switchEvents (a.switches.get x) (b.switches.get x)).map (fun _ => .other) ++
    (if arrivedMade (a.tappers.get x) (b.tappers.get x) then [.other] else []) ++
    (if arrivedMade (a.plungers.get x) (b.plungers.get x) then [.other] else [])

/-- Everything a scan that took the matrix from `a` to `b` hands on (R1). -/
def handScan (a b : Contacts) (i : Inbox) : Inbox :=
  { i with
    frame := i.frame ++ allLevers.flatMap fun n => (leverEvents a.levers[n] b.levers[n]).map (n, ·)
    inputs := i.inputs ++ allInputs.filter fun g => readingChanged a.proving[g] b.proving[g]
    switches := i.switches ++ allSections.flatMap fun x => (switchEvents (a.switches.get x) (b.switches.get x)).map (x, ·)
    plungers := i.plungers ++ allSections.filter fun x => arrivedMade (a.plungers.get x) (b.plungers.get x)
    tappers := i.tappers ++ allSections.flatMap fun x =>
      (if arrivedMade (a.tappers.get x) (b.tappers.get x) then [(x, true)] else []) ++
        (if arrivedBroken (a.tappers.get x) (b.tappers.get x) then [(x, false)] else [])
    box := i.box ++ (if arrivedMade a.box b.box then [.out] else []) ++ (if arrivedBroken a.box b.box then [.inn] else [])
    activity := i.activity ++ (allLevers.flatMap fun n => leverActivity a.levers[n] b.levers[n]) ++
      (allSections.flatMap (sectionActivity a b)) ++ (if readingChanged a.box b.box then [.other] else []) }

/-- A section's switch position after a scan: that of the first readings of its two contacts, at the scan that
completes them (R99). -/
def takePosition (a b : SwitchContacts) (k : SectionData) : SectionData :=
  if !a.known && b.known then { k with position := positionOfContacts b.lc.made b.tol.made } else k

/-- The box switch position after a scan: that of the first reading of its contact, made at OUT (R116). -/
def takeBoxPosition (a b : ContactState) (v : ServiceUnit) : ServiceUnit :=
  if a.reading.isNone && b.reading.isSome then { v with position := if b.made then .out else .inn } else v

/-- The switch positions that the first readings of a scan give, without an arrival (R99, R116). -/
def takePositions (a b : Contacts) (s : State) : State :=
  { s with
    sections := ⟨takePosition a.switches.a b.switches.a s.sections.a,
      takePosition a.switches.b b.switches.b s.sections.b, takePosition a.switches.c b.switches.c s.sections.c⟩
    service := takeBoxPosition a.box b.box s.service }

/-- CONTACT_SCAN (R1). No scan is made while the reset pin is held. In every service state the events are handed to
their units, and a first reading gives none. -/
def scanContacts (made : List Contact) (s : State) : State :=
  if s.resetHeld then s
  else
    let k := s.contacts.scan made
    (takePositions s.contacts k (s.setContacts k)).setInbox (handScan s.contacts k s.inbox)

def execContactScan (made : List Contact) (s : State) : Host.Outcome State Fault Refusal :=
  .next (commit s (scanContacts made s))

/-! ### Initialisation complete -/

/-- A lever with the state, and so the last end, of its contact readings (R7, R23). -/
def LeverData.settle (l : LeverData) (k : LeverContacts) : LeverData :=
  let pos := posOfContacts k.n.made k.r.made
  { l with pos := pos, lastEnd := pos.freshEnd }

/-- The part passes from POWER_UP to CONFIGURE: levers are read from their contacts, the switches stand where their
readings and arrivals have left them, and the idle time starts (R7, R142, R158). -/
def initialise (s : State) : State :=
  { s with
    levers := Vector.ofFn fun n => s.levers[n].settle s.contacts.levers[n]
    service := { s.service with state := .configure }
    diagram := { s.diagram with idleFrom := s.now } }

/-- INITIALISATION_COMPLETE, once every contact has its first reading (R158). -/
def completeInit (s : State) : State :=
  if s.isIn .powerUp && !s.resetHeld && s.contacts.established then initialise s else s

def execInitialisationComplete (s : State) : Host.Outcome State Fault Refusal :=
  .next (commit s (completeInit s))

end Sys2Proof.Machine
end

