-- ==== Sys2Proof/Machine/Locking.lean ====
section
/-! DEFINITION. The Locking unit: reading the table, the trial state and the freedom test, re-testing, and the
back-lock record (R21 to R44). PROVING_INPUT_CHANGE, RE_TEST and TIME_RELEASE_EXPIRY. -/

namespace Sys2Proof.Machine

/-! ### Reading an entry (R23 to R25). A reading gives each lever N, R or away. -/

/-- A condition term holds when its lever is at the term's position, and also when it is away (R24). -/
def LeverTerm.condHolds (read : Lever → Option LeverEnd) (c : LeverTerm) : Bool :=
  decide (read c.lever = some c.pos ∨ read c.lever = none)

/-- Active: every condition holds (R24). -/
def LockEntry.active (read : Lever → Option LeverEnd) (e : LockEntry) : Bool :=
  e.conds.all (·.condHolds read)

/-- Violated (R25). -/
def LockEntry.violated (read : Lever → Option LeverEnd) (e : LockEntry) : Bool :=
  e.active read && decide (read e.x.lever ≠ some e.x.pos.opposite ∧ read e.y.lever ≠ some e.y.pos)

/-- No entry of the table is violated. -/
def tableHolds (table : List LockEntry) (read : Lever → Option LeverEnd) : Bool :=
  table.all fun e => !e.violated read

/-! ### The trial state and the freedom test (R26 to R30) -/

/-- The trial state for Z: Z and every lever in N_FREE, R_FREE, TRAVEL, BACKLOCKED or FAULT count as away (R26). -/
def State.trial (s : State) (z m : Lever) : Option LeverEnd :=
  if m = z then none
  else
    match (s.lever m).pos with
    | .nLocked => some .n
    | .rLocked => some .r
    | _ => none

/-- The table test of R27 for Z. -/
def State.tableTest (s : State) (z : Lever) : Bool :=
  tableHolds s.locking (s.trial z)

/-- The end Z is leaving, which chooses the terms: the end it is at, else its last end (R27). -/
def LeverData.leaving (l : LeverData) : Option LeverEnd :=
  match l.pos.atEnd with
  | some e => some e
  | none => l.lastEnd

/-- A term applies for the end left; with no last end every term applies (R27). -/
def Applies.to (a : Applies) (leaving : Option LeverEnd) : Bool :=
  match leaving, a with
  | none, _ => true
  | some _, .both => true
  | some .n, .leaveN => true
  | some .r, .leaveR => true
  | some .n, .leaveR => false
  | some .r, .leaveN => false

/-- Track terms that apply find their circuits CLEAR (R28), as the unit has taken them (R75). -/
def State.trackTerms (s : State) (r : LevRecord) (leaving : Option LeverEnd) : Bool :=
  r.tracks.all fun t => !t.applies.to leaving || decide (s.lockTrack t.circuit = .clear)

/-- Proving terms that apply are met (R29). -/
def State.provingTerms (s : State) (r : LevRecord) (leaving : Option LeverEnd) : Bool :=
  r.provings.all fun t => !t.applies.to leaving || decide (s.proves t.input = t.active)

/-- An arrival at R of a lever under the section's block control has been handed to the Block unit and not taken yet. -/
def State.arrivalWaits (s : State) (x : Sec) : Bool :=
  s.inbox.atR.any fun m => (s.lever m).controls x

/-- No other lever under the section's block control is in N_FREE or in TRAVEL (R30). -/
def State.releaseUnheld (s : State) (z : Lever) (x : Sec) : Bool :=
  allLevers.all fun m =>
    !(decide (m ≠ z) && (s.lever m).controls x && decide ((s.lever m).pos = .nFree ∨ (s.lever m).pos = .travel))

/-- The block term is met for a section (R30). DEDUCED (log 40): section and release are read as they stand, and an arrival
at R on its way to the Block unit has used the release already, which keeps the law of R43. -/
def State.blockMet (s : State) (z : Lever) (x : Sec) : Bool :=
  decide ((s.section_ x).state = .clearOut) && (s.section_ x).releaseUnused && !s.arrivalWaits x && s.releaseUnheld z x

/-- The block term, which applies unless the lever leaves R (R27). -/
def State.blockTerm (s : State) (z : Lever) (r : LevRecord) (leaving : Option LeverEnd) : Bool :=
  match r.block with
  | none => true
  | some x => decide (leaving = some .r) || s.blockMet z x

/-- The freedom test of R27. A lever with no record, which no request names (R6, R8), does not pass. -/
def State.freedomTest (s : State) (z : Lever) : Bool :=
  match (s.lever z).record with
  | none => false
  | some r =>
    let leaving := (s.lever z).leaving
    s.tableTest z && s.trackTerms r leaving && s.provingTerms r leaving && s.blockTerm z r leaving

/-! ### Approach locking (R35 to R41) -/

/-- The approach locking of a lever's record. -/
def LeverData.approach (l : LeverData) : Option Approach :=
  match l.record with
  | some r => r.approach
  | none => none

/-- The approach is free: every approach circuit CLEAR, and the approach section not in ENTERED_IN (R38). Its
opposite is approach-locked (R36). Circuits and section are those the unit has taken (R36: a change taken first is seen
by the decision; R75). -/
def State.approachFree (s : State) (a : Approach) : Bool :=
  (a.circuits.all fun t => decide (s.lockTrack t = .clear)) &&
    match a.sec with
    | some x => decide (s.lockSec x ≠ .enteredIn)
    | none => true

/-- The change is one at which this approach is checked (R38). -/
def Approach.follows (a : Approach) : Change → Bool
  | .track t _ => decide (t ∈ a.circuits)
  | .sec x _ => decide (a.sec = some x)
  | _ => false

/-- The back-lock record is in TIMING, or in DUE. -/
def BackLock.isTiming : BackLock → Bool
  | .timing _ => true
  | _ => false

/-- The release check of a DUE record (R39): if the table test passes, the release is sent to the lever. The
record returns to IDLE where the lever takes the release. -/
def releaseCheck (n : Lever) (s : State) : State :=
  if (s.lever n).backlock = .due && s.tableTest n then
    s.setInbox { s.inbox with backReleases := addOnce n s.inbox.backReleases }
  else s

/-- A record goes to DUE and its release check is made (R37, R38). -/
def becomeDue (n : Lever) (s : State) : State :=
  releaseCheck n (s.setLever n { s.lever n with backlock := .due })

/-- The approach check of one TIMING record at a change (R38). -/
def approachCheck (c : Change) (n : Lever) (s : State) : State :=
  match (s.lever n).approach with
  | some a =>
    if (s.lever n).backlock.isTiming && a.follows c && s.approachFree a then becomeDue n s else s
  | none => s

/-- The release check of one record at a change (R39: at each change of any lever's state). -/
def releaseCheckAt (c : Change) (n : Lever) (s : State) : State :=
  match c with
  | .lever _ => releaseCheck n s
  | _ => s

/-- Do one thing for each of a list of levers, in order. -/
def forLevers (f : Lever → State → State) : List Lever → State → State
  | [], s => s
  | n :: ns, s => forLevers f ns (f n s)

/-- Free levers whose re-test fails (R32). -/
def State.failing (s : State) : List Lever :=
  allLevers.filter fun n => (s.lever n).pos.isFree && !s.freedomTest n

/-- Demands added for levers that have none waiting. -/
def addDemands (ds : List Lever) : List Lever → List Lever
  | [] => ds
  | n :: ns => addDemands (addOnce n ds) ns

/-- The Locking unit takes one change: every free lever is re-tested, and a failing test sends the demand that its
freedom be withdrawn (R32); back-lock records are checked (R38, R39). -/
def takeChange (c : Change) (s : State) : State :=
  let s₁ := s.setInbox { s.inbox with demands := addDemands s.inbox.demands s.failing }
  let s₂ := forLevers (approachCheck c) allLevers s₁
  forLevers (releaseCheckAt c) allLevers s₂

/-- RE_TEST: the change handed on first is taken, and the tests see it (R32). -/
def reTest (s : State) : State :=
  match s.inbox.changes with
  | [] => s
  | c :: cs => takeChange c (s.setInbox { s.inbox with changes := cs })

def execReTest (s : State) : Host.Outcome State Fault Refusal :=
  .next (commit s (reTest s))

/-- PROVING_INPUT_CHANGE: a changed reading is delivered to the Locking unit for re-testing (R3). -/
def provingInputChange (g : Input) (s : State) : State :=
  match takeFirst (· = g) s.inbox.inputs with
  | none => s
  | some (_, rest) => s.setInbox { s.inbox with inputs := rest, changes := s.inbox.changes ++ [.input g] }

def execProvingInputChange (g : Input) (s : State) : Host.Outcome State Fault Refusal :=
  .next (commit s (provingInputChange g s))

/-- TIME_RELEASE_EXPIRY: a TIMING record whose time has run out enters DUE (R37). -/
def timeReleaseExpiry (n : Lever) (s : State) : State :=
  match (s.lever n).backlock with
  | .timing expires => if expires ≤ s.now then becomeDue n s else s
  | _ => s

def execTimeReleaseExpiry (n : Lever) (s : State) : Host.Outcome State Fault Refusal :=
  .next (commit s (timeReleaseExpiry n s))

end Sys2Proof.Machine
end

