-- ==== Sys2Proof/Machine/Measure.lean ====
section
/-! DEFINITION. The arithmetic of a measurement, the verdict, the counts, the state decisions, reference tracking
and the proof test (R55, R62 to R71, R77). MEASUREMENT_COMPLETE. -/

namespace Sys2Proof.Machine

/-! ### From samples to a level (R62, R63) -/

/-- The sum of the samples. -/
def sampleSum : List Sample → Int
  | [] => 0
  | x :: xs => x.toInt + sampleSum xs

/-- A sample at either end of the converter's range saturates the measurement (R62). -/
def isSaturated (samples : List Sample) : Bool :=
  samples.any fun x => decide (x.toInt = -2048 ∨ x.toInt = 2047)

/-- A number within a range, else its nearer end. -/
def clampInt (lo hi i : Int) : Int :=
  if i < lo then lo else if hi < i then hi else i

/-- The level in mV of an average (R63); every quotient is truncated toward zero. -/
def levelOf (average : Int) (coarse fine : Nat) (saturated : Bool) : Int :=
  if saturated then (if 0 ≤ average then 2500 else -2500)
  else clampInt (-2500) 2500 ((average * 625).tdiv (16 * (coarse : Int) * (fine : Int)))

/-- The signed level P; in a proof frame no sign applies (R63). -/
def signedLevel (level : Int) : Option Polarity → Int
  | some .negative => -level
  | some .positive => level
  | none => level

/-- The measurement of a circuit's samples on its record, with the sign and the masks of the frame (R59, R62). -/
def measure (r : TcRecord) (sign : Option Polarity) (masks : List MaskCause) (samples : List Sample) : Measurement :=
  let sum := sampleSum samples
  let average := sum.tdiv (samples.length : Int)
  let saturated := isSaturated samples
  let level := levelOf average r.coarse r.fine saturated
  { sum := sum
    count := samples.length
    average := average
    level := level
    signed := signedLevel level sign
    sign := sign
    saturated := saturated
    masks := masks }

/-! ### Thresholds, verdict and counts (R64 to R66) -/

/-- The clear level R in whole mV (R61). -/
def CircuitData.clearLevel (k : CircuitData) : Nat :=
  k.q / 16

/-- The drop threshold D (R64). -/
def dropThreshold (level : Nat) (r : TcRecord) : Nat :=
  max (level * r.drop / 256) r.floor

/-- The pick-up threshold U (R64). -/
def pickThreshold (level : Nat) (r : TcRecord) : Nat :=
  max (level * r.pick / 256) (dropThreshold level r + 20)

/-- A verdict input (R65). -/
inductive Verdict
  | reverse | low | high | hold
deriving DecidableEq, Repr

/-- The verdict input of an unmasked signed level (R65). -/
def verdictOf (p : Int) (joint d u : Nat) : Verdict :=
  if p < -(joint : Int) then .reverse
  else if p < (d : Int) then .low
  else if (u : Int) ≤ p then .high
  else .hold

/-- A count raised by one, stopping at 255 (R66). -/
def raise (n : Nat) : Nat :=
  if n < Config.maxCount then n + 1 else n

/-- The counts after an input in OCCUPIED or CLEAR (R66). -/
def CircuitData.counted (k : CircuitData) : Verdict → CircuitData
  | .reverse => { k with low := raise k.low, high := 0, reverse := raise k.reverse }
  | .low => { k with low := raise k.low, high := 0, reverse := 0 }
  | .high => { k with low := 0, high := raise k.high, reverse := 0 }
  | .hold => { k with low := 0, high := 0, reverse := 0 }

/-- Entry into a state zeroes the three counts (R61). -/
def CircuitData.enter (k : CircuitData) (st : TrackState) : CircuitData :=
  { k with state := st, low := 0, high := 0, reverse := 0 }

/-- The state decisions after the counts, the first that applies (R67). -/
def CircuitData.decided (k : CircuitData) (r : TcRecord) : CircuitData :=
  if 2 ≤ k.reverse then k.enter (.failed .joint)
  else if k.state = .clear ∧ r.dropf ≤ k.low then k.enter .occupied
  else if k.state = .occupied ∧ r.pickf ≤ k.high then k.enter .clear
  else k

/-! ### Reference tracking (R68 to R70) -/

/-- The clear reference moved toward a signed level (R68). -/
def trackedReference (q : Nat) (p : Int) (track : Nat) : Nat :=
  (clampInt 0 (Config.maxReference : Int) ((q : Int) + (p * 16 - (q : Int)).tdiv ((2 ^ track : Nat) : Int))).toNat

/-- The circuit tracked, then the low-reference test of a circuit in CLEAR (R68, R69). -/
def CircuitData.trackedInClear (k : CircuitData) (r : TcRecord) (p : Int) (track : Nat) : CircuitData :=
  let k' := { k with q := trackedReference k.q p track }
  if k'.clearLevel < r.low then k'.enter (.failed .lowRef) else k'

/-- The circuit tracked, then the recovery test of a circuit failed for its low reference (R70). -/
def CircuitData.trackedInLowRef (k : CircuitData) (r : TcRecord) (p : Int) (track : Nat) : CircuitData :=
  let k' := { k with q := trackedReference k.q p track }
  if r.low + r.low / 8 ≤ k'.clearLevel then k'.enter .occupied else k'

/-- An unmasked measurement judged in OCCUPIED or CLEAR (R65 to R69). -/
def CircuitData.judged (k : CircuitData) (r : TcRecord) (m : Measurement) (track : Nat) : CircuitData :=
  let v := verdictOf m.signed r.joint (dropThreshold k.clearLevel r) (pickThreshold k.clearLevel r)
  let k' := (k.counted v).decided r
  if k.state = .clear ∧ v = .high ∧ ¬m.saturated then k'.trackedInClear r m.signed track else k'

/-- The proof test of a proof frame's measurement (R55). A circuit that is FAILED does not fail again (R71). -/
def CircuitData.proofTested (k : CircuitData) (r : TcRecord) (m : Measurement) : CircuitData :=
  match k.state with
  | .failed _ => k
  | _ => if r.floor ≤ m.level.natAbs then k.enter (.failed .proof) else k

/-- What a measurement does to its circuit, by its masks and the circuit's state (R55, R65, R70, R71). -/
def CircuitData.handled (k : CircuitData) (r : TcRecord) (m : Measurement) (track : Nat) : CircuitData :=
  if .proof ∈ m.masks then k.proofTested r m
  else if m.masks ≠ [] then k
  else
    match k.state with
    | .occupied | .clear => k.judged r m track
    | .failed .lowRef => if m.saturated then k else k.trackedInLowRef r m.signed track
    | .failed .joint | .failed .proof => k
    | .disabled => k

/-- The TRACK entry of a change of state (R77): an entry into FAILED, or a leaving of FAILED for OCCUPIED. -/
def trackEntry (t : Circuit) (before after : TrackState) : List RegBody :=
  match before, after with
  | .failed _, .occupied => [.track t none]
  | .failed _, _ => []
  | _, .failed c => [.track t (some c)]
  | _, _ => []

/-- The end of the dwell of the circuit in turn: its measurement is computed and handled on the record in force
since the frame start (R49). A list of samples that is not one of WINDOW samples is no measurement. -/
def completeMeasurement (samples : List Sample) (s : State) : State :=
  match s.track.toMeasure with
  | [] => s
  | t :: rest =>
    match (s.circuit t).live with
    | none => s
    | some r =>
      if samples.length = r.window then
        let k := s.circuit t
        let sign := if .proof ∈ k.masks then none else k.applied
        let m := measure r sign k.masks samples
        let k' := { k.handled r m s.track.params.track with taken := some m }
        ((s.setTrack { s.track with circuits := s.track.circuits.set t.val k', toMeasure := rest }).enterAll .track
          (trackEntry t k.state k'.state))
      else s

def execMeasurementComplete (samples : List Sample) (s : State) : Host.Outcome State Fault Refusal :=
  .next (commit s (completeMeasurement samples s))

end Sys2Proof.Machine
end

