-- ==== Sys2Proof/Machine/Diagram.lean ====
section
/-! DEFINITION. The Diagram unit: the binding map by cell, the snapshot, the frame, the flash cycle and the light level
(R133 to R139, R142 to R144). -/

namespace Sys2Proof.Machine

/-! ### Maps by cell, kept by rising cell number -/

def mapGet {α : Type} : List (Cell × α) → Cell → Option α
  | [], _ => none
  | (d, y) :: rest, c => if d = c then some y else mapGet rest c

/-- The map with the value of one cell replaced or added. -/
def mapSet {α : Type} : List (Cell × α) → Cell → α → List (Cell × α)
  | [], c, v => [(c, v)]
  | (d, y) :: rest, c, v =>
    if c < d then (c, v) :: (d, y) :: rest
    else if c = d then (c, v) :: rest
    else (d, y) :: mapSet rest c v

/-- The map without one cell. -/
def mapErase {α : Type} (m : List (Cell × α)) (c : Cell) : List (Cell × α) :=
  m.filter fun e => decide (e.1 ≠ c)

/-- The cell of a row and a column. -/
def cellAt? (row col : Nat) : Option Cell :=
  if h : row < 16 ∧ col < 32 then some ⟨row * 32 + col, by omega⟩ else none

def cellRow (c : Cell) : Nat := c.val / 32

def cellCol (c : Cell) : Nat := c.val % 32

/-! ### Bindings taking effect (R134, R137) -/

/-- One load or erase taken at a frame start: a HOST binding starts with host value OFF, any other drops it. -/
def Diagram.apply (d : Diagram) : LampOp → Diagram
  | .load c b =>
    { d with
      bound := mapSet d.bound c b
      host := if b.source = .host then mapSet d.host c .off else mapErase d.host c }
  | .erase => { d with bound := [], host := [] }

def Diagram.applyAll (d : Diagram) : List LampOp → Diagram
  | [] => d
  | o :: os => (d.apply o).applyAll os

/-! ### Conditions and values (R138, R139) -/

/-- A circuit's state is FAILED. -/
def TrackState.isFailed : TrackState → Bool
  | .failed _ => true
  | _ => false

/-- The condition of a LEVER source; a lever with no record gives false. -/
def LeverData.shows (l : LeverData) (q : LeverQual) : Bool :=
  l.loaded &&
    match q with
    | .n => decide (l.pos.atEnd = some .n)
    | .r => decide (l.pos.atEnd = some .r)
    | .free => l.lock
    | .refused => l.refused

/-- The condition of a source, read from the state at the snapshot (R138). HOST has none of its own. -/
def State.condition (s : State) : Source → Bool
  | .off => false
  | .on => true
  | .host => false
  | .track t clr => if clr then s.clear t else !s.clear t
  | .lever n q => (s.lever n).shows q
  | .sec x states => decide ((s.section_ x).state ∈ states)
  | .indicator x lc => decide ((s.section_ x).reading = some (if lc then .lc else .tol))
  | .bell x => s.diagram.latches.get x
  | .box => s.isIn .switchedOut
  | .disagree (some x) => (s.section_ x).disagree
  | .disagree none => s.service.disagree
  | .alarm => alarm s.levers s.track.circuits

/-- A condition's value by mode and invert (R139). -/
def lampOf (b : Binding) (cond : Bool) : Lamp :=
  if cond ^^ b.invert then (if b.flash then .flash else .on) else .off

/-- The value of a bound cell (R139). -/
def State.cellValue (s : State) (c : Cell) (b : Binding) : Lamp :=
  match b.source with
  | .host => (mapGet s.diagram.host c).getD .off
  | .alarm => if s.condition .alarm then .flash else .off
  | .track t clr =>
    if (s.circuit t).state.isFailed then .flash else lampOf b (s.condition (.track t clr))
  | src => lampOf b (s.condition src)

/-- A cell of the value is lit in a frame of the flash half (R134). -/
def Lamp.lit (v : Lamp) (half : Bool) : Bool :=
  match v with
  | .off => false
  | .on => true
  | .flash => half

/-! ### Brightness and flash (R135, R136) -/

/-- The effective brightness b. -/
def Diagram.brightness (d : Diagram) : Nat :=
  match d.level with
  | .active => d.bright
  | .dimmed => d.dim
  | .dark => 0

/-- The ticks a lit cell is on. -/
def tOn (b : Nat) : Nat :=
  (b * 120 + 254) / 255

/-- The half-period F in frames, rounded up. -/
def flashPeriod (flashms div : Nat) : Nat :=
  (flashms + div - 1) / div

/-! ### The frame (R134) -/

/-- What the frame that starts now shows. -/
def State.snapshot (s : State) : LampFrame where
  cells := s.diagram.bound.map fun e => (e.1, s.cellValue e.1 e.2)
  bindings := s.diagram.bound
  half := s.diagram.half
  ton := tOn s.diagram.brightness
  level := s.diagram.level
  b := s.diagram.brightness
  rowrev := decide (s.times.rowrev = 1)
  colrev := decide (s.times.colrev = 1)

/-- The loads and erases waiting take effect, and F and the length are fixed. -/
def applyLampOps (s : State) : State :=
  s.setDiagram
    { s.diagram.applyAll s.diagram.ops with
      ops := []
      period := flashPeriod s.times.flashms s.times.div
      div := s.times.div }

/-- The BELL latches after a snapshot (R138). -/
def State.beats (s : State) : PerSec Bool :=
  ⟨(s.port .a).beatInProgress, (s.port .b).beatInProgress, (s.port .c).beatInProgress⟩

def startDiagramFrame (s : State) : State :=
  let s' := applyLampOps s
  s'.setDiagram { s'.diagram with current := some s'.snapshot, latches := s'.beats, started := s'.now }

/-- DIAGRAM_FRAME_START, in every service state after POWER_UP, when no frame is in progress. -/
def diagramFrameStart (s : State) : State :=
  if s.isIn .powerUp || s.diagram.current.isSome then s else startDiagramFrame s

def execDiagramFrameStart (s : State) : Host.Outcome State Fault Refusal :=
  .next (commit s (diagramFrameStart s))

/-- The flash cycle advanced by one frame (R136). -/
def Diagram.advanceFlash (d : Diagram) : Diagram :=
  if d.period ≤ d.flashCount + 1 then { d with half := !d.half, flashCount := 0 }
  else { d with flashCount := d.flashCount + 1 }

/-- DIAGRAM_FRAME_COMPLETE: the frame has lasted DIV ms. -/
def diagramFrameComplete (s : State) : State :=
  match s.diagram.current with
  | none => s
  | some f =>
    if s.diagram.started + s.diagram.div ≤ s.now then
      s.setDiagram { s.diagram.advanceFlash with published := some f, current := none }
    else s

def execDiagramFrameComplete (s : State) : Host.Outcome State Fault Refusal :=
  .next (commit s (diagramFrameComplete s))

/-! ### The light level (R142, R143) -/

/-- The level after an activity. -/
def Light.after (v : Light) : Activity → Light
  | .grip => .active
  | .other =>
    match v with
    | .dark => .dark
    | .active | .dimmed => .active

/-- SIGNALLER_ACTIVITY: the idle time restarts from 0. In POWER_UP an activity has no effect. -/
def signallerActivity (s : State) : State :=
  match s.inbox.activity with
  | [] => s
  | a :: rest =>
    let s' := s.setInbox { s.inbox with activity := rest }
    if s.isIn .powerUp then s'
    else s'.setDiagram { s.diagram with level := s.diagram.level.after a, idleFrom := s.now }

def execSignallerActivity (s : State) : Host.Outcome State Fault Refusal :=
  .next (commit s (signallerActivity s))

/-- The idle time, counted in whole seconds, has reached IDLE minutes; with IDLE 0 it never does. -/
def State.idleOver (s : State) : Bool :=
  decide (s.times.idle ≠ 0 ∧ s.times.idle * 60 ≤ (s.now - s.diagram.idleFrom) / 1000)

/-- IDLE_TIMEOUT. In POWER_UP the idle time does not run. -/
def idleTimeout (s : State) : State :=
  if !s.isIn .powerUp && decide (s.diagram.level = .active) && s.idleOver then
    s.setDiagram { s.diagram with level := .dimmed }
  else s

def execIdleTimeout (s : State) : Host.Outcome State Fault Refusal :=
  .next (commit s (idleTimeout s))

/-- The level after a change of service state (R143). -/
def levelAfter (darkout : Nat) (level : Light) : ServiceState × ServiceState → Light
  | (_, .switchedOut) => if darkout = 1 then .dark else level
  | (.switchedOut, .inService) => if level = .dark then .active else level
  | _ => level

/-- DIAGRAM_SERVICE_CHANGE. -/
def diagramServiceChange (s : State) : State :=
  match s.inbox.service with
  | [] => s
  | e :: rest =>
    (s.setInbox { s.inbox with service := rest }).setDiagram
      { s.diagram with level := levelAfter s.times.darkout s.diagram.level e }

def execDiagramServiceChange (s : State) : Host.Outcome State Fault Refusal :=
  .next (commit s (diagramServiceChange s))

end Sys2Proof.Machine
end

