-- ==== Sys2Proof/Machine/Outputs.lean ====
section
/-! DEFINITION. What the part drives on its outputs, as functions of its state: the output driver chain (R18, R52, R79,
R91, R96) and the lamp matrix at each scan tick of a diagram frame (R133, R135). The chain's refresh delay is left
out (log 14). -/

namespace Sys2Proof.Machine

/-- What the output driver chain holds once it has been refreshed from a state. -/
structure Outputs where
  coils : Vector Bool 48
  feeds : Vector (Option Polarity) 20
  bells : PerSec Bool
  indicators : PerSec Ind
  sounders : PerSec Bool
deriving DecidableEq, Repr

/-- A local bell is driven. -/
def Sounder.driven : Sounder → Bool
  | .off => false
  | .stroke _ | .follow => true

/-- The outputs of a state: each coil follows its lock, each feed its polarity, each drive its port or section. -/
def State.outputs (s : State) : Outputs where
  coils := Vector.ofFn fun n => (s.lever n).lock
  feeds := Vector.ofFn fun t => (s.circuit t).feed
  bells := ⟨(s.port .a).drive, (s.port .b).drive, (s.port .c).drive⟩
  indicators := ⟨(s.section_ .a).drive, (s.section_ .b).drive, (s.section_ .c).drive⟩
  sounders := ⟨(s.port .a).sounder.driven, (s.port .b).sounder.driven, (s.port .c).sounder.driven⟩

/-- Everything off: the chain as reset clears it (R158). -/
def Outputs.cleared : Outputs where
  coils := Vector.replicate 48 false
  feeds := Vector.replicate 20 none
  bells := ⟨false, false, false⟩
  indicators := ⟨.lb, .lb, .lb⟩
  sounders := ⟨false, false, false⟩

/-- The logical row or column on a physical line under a remap flag; the remap is its own inverse (R133). -/
def remap (last : Nat) (rev : Bool) (n : Nat) : Nat :=
  if rev then last - n else n

/-- The physical row line driven at a scan tick of a frame: 16 slots of 128 ticks. -/
def rowLine (tick : Nat) : Nat :=
  tick / 128

/-- The tick within the lit part of the slot: none in the first 8 ticks, which are blanking. -/
def litTick (tick : Nat) : Option Nat :=
  if tick % 128 < 8 then none else some (tick % 128 - 8)

/-- A logical cell is lit in a frame. -/
def LampFrame.litCell (f : LampFrame) (c : Cell) : Bool :=
  ((mapGet f.cells c).getD .off).lit f.half

/-- A physical column line is on at a scan tick of a frame, 0 to 2047: the cell of the row in its slot is lit, and the
tick is among the first t_on of the lit part (R133). -/
def LampFrame.columnOn (f : LampFrame) (tick col : Nat) : Bool :=
  match cellAt? (remap 15 f.rowrev (rowLine tick)) (remap 31 f.colrev col), litTick tick with
  | some c, some k => f.litCell c && decide (k < f.ton)
  | _, _ => false

/-- The 16 row lines and 32 column lines of the lamp matrix at a scan tick. -/
structure LampLines where
  rows : Vector Bool 16
  columns : Vector Bool 32
deriving DecidableEq, Repr

/-- Every line off. -/
def LampLines.off : LampLines where
  rows := Vector.replicate 16 false
  columns := Vector.replicate 32 false

/-- The lines at a scan tick of a frame: the row line of its slot, and the column lines (R133). DESIGN CHOICE (log 14): the
row line is on for the whole slot, in its 8 blanking ticks too. -/
def LampFrame.lines (f : LampFrame) (tick : Nat) : LampLines where
  rows := Vector.ofFn fun r => decide (rowLine tick = r.val)
  columns := Vector.ofFn fun c => f.columnOn tick c.val

/-- The lines the part drives at a scan tick of the frame in progress: every line is off in POWER_UP (R133, R144), and,
DESIGN CHOICE (log 14), between the completion of a frame and the start of the next, which the part does at one moment. -/
def State.lampLines (s : State) (tick : Nat) : LampLines :=
  match s.diagram.current with
  | some f => if s.isIn .powerUp then .off else f.lines tick
  | none => .off

end Sys2Proof.Machine
end

