-- ==== Sys2Proof/Machine/Service.lean ====
section
/-! DEFINITION. The Service controller: the code exchange memory and its marks, the box switch, switching out and in,
and the through working of the indicators (R116 to R126). -/

namespace Sys2Proof.Machine

/-! ### The code exchange memory (R118, R119) -/

def State.memory (s : State) (p : Sec) : Memory := s.service.memory.get p

def State.setMemory (s : State) (p : Sec) (m : Memory) : State :=
  s.setService { s.service with memory := s.service.memory.set p m }

/-- CODEWIN in ms. -/
def State.window (s : State) : Nat :=
  s.times.codewin * 1000

/-- The sending a reception at `now` answers: the last sent code with the meaning and the pattern, completed before
it and no older than CODEWIN (R119). -/
def answered (sent : Option MemCode) (m : Meaning) (r : MemCode) (window : Nat) : Option Nat :=
  match sent with
  | none => none
  | some c =>
    if c.cls = .meaning m ∧ c.pattern = r.pattern ∧ c.stamp < r.stamp ∧ r.stamp - c.stamp ≤ window then some c.stamp
    else none

/-- The memory with the marks a reception earns: one mark set removes the other (R119). -/
def Memory.marked (m : Memory) (r : MemCode) (window : Nat) : Memory :=
  match r.cls with
  | .meaning .boxOut =>
    match answered m.sent .boxOut r window with
    | some t => { m with boxOut := some t, boxIn := none }
    | none => m
  | .meaning .boxIn =>
    match answered m.sent .boxIn r window with
    | some t => { m with boxIn := some t, boxOut := none }
    | none => m
  | _ => m

/-- A code recorded as last received (R118, R119). -/
def Memory.receive (m : Memory) (r : MemCode) (window : Nat) : Memory :=
  { m with rcvd := some r }.marked r window

/-- A completed code as the memory holds it. -/
def CodeHanded.memCode (h : CodeHanded) : MemCode :=
  ⟨h.code.pattern, h.code.cls, h.code.time, h.code.stamp⟩

/-- The record a THRU code makes as last sent on the other through port: ERRONEOUS with no cause if any beat of it
was not repeated, or its repetition was cut (R118). -/
def CodeHanded.throughCode (h : CodeHanded) : MemCode :=
  if h.unrepeated then { h.memCode with cls := .erroneous none } else h.memCode

/-- A completed code recorded by its direction (R118). -/
def recordCode (h : CodeHanded) (s : State) : State :=
  match h.dir with
  | .outgoing => s.setMemory h.port { s.memory h.port with sent := some h.memCode }
  | .incoming => s.setMemory h.port ((s.memory h.port).receive h.memCode s.window)
  | .thru =>
    let s' := s.setMemory h.port ((s.memory h.port).receive h.memCode s.window)
    match h.port.throughPair with
    | some q => s'.setMemory q { s'.memory q with sent := some h.throughCode }
    | none => s'

/-- CODE_EXCHANGE_UPDATE: a completed code is delivered to the Service controller. -/
def codeExchangeUpdate (p : Sec) (s : State) : State :=
  match takeFirst (fun h => decide (h.port = p)) s.inbox.exchange with
  | none => s
  | some (h, rest) => recordCode h (s.setInbox { s.inbox with exchange := rest })

def execCodeExchangeUpdate (p : Sec) (s : State) : Host.Outcome State Fault Refusal :=
  .next (commit s (codeExchangeUpdate p s))

/-- A mark is present and its sending no older than CODEWIN now (R119). -/
def State.inWindow (s : State) : Option Nat → Bool
  | some t => decide (s.now - t ≤ s.window)
  | none => false

/-- The marks of A and of B are cleared (R121, R125). -/
def clearMarks (s : State) : State :=
  let f := fun (m : Memory) => { m with boxOut := none, boxIn := none }
  (s.setMemory .a (f (s.memory .a))).setMemory .b (f (s.memory .b))

/-! ### Through working of the indicators (R124) -/

/-- The drive that repeats a reading: INVALID is repeated as LB. -/
def repeated : Option Ind → Ind
  | some i => i
  | none => .lb

/-- The outgoing indicator of the other through port takes the reading of `p`. -/
def repeatReading (p : Sec) (s : State) : State :=
  match p.throughPair with
  | some q => s.setSection q { s.section_ q with drive := repeated (s.section_ p).reading }
  | none => s

/-- THROUGH_INDICATOR_REPEAT: a change of reading handed on by the Block unit. -/
def throughIndicatorRepeat (p : Sec) (s : State) : State :=
  match takeFirst (· = p) s.inbox.readings with
  | none => s
  | some (_, rest) =>
    let s' := s.setInbox { s.inbox with readings := rest }
    if s.isIn .switchedOut then repeatReading p s' else s'

def execThroughIndicatorRepeat (p : Sec) (s : State) : Host.Outcome State Fault Refusal :=
  .next (commit s (throughIndicatorRepeat p s))

/-! ### Switching out (R120, R121) -/

/-- The first of several refusals. -/
def firstRefusal : List (Option BoxRefusal) → Option BoxRefusal
  | [] => none
  | some r :: _ => some r
  | none :: rest => firstRefusal rest

/-- Condition 1: a BOXOUT record is loaded. -/
def State.refuseNoList (s : State) : Option BoxRefusal :=
  match s.service.boxout with
  | none => some .noList
  | some _ => none

/-- Condition 2: every loaded section is BLOCKED. DESIGN CHOICE (log 39): of several that are not, the first in the order A,
B, C is named. -/
def State.refuseNotBlocked (s : State) : Option BoxRefusal :=
  (allSections.find? fun x => (s.section_ x).record.isSome && decide ((s.section_ x).state ≠ .blocked)).map .notBlocked

/-- A lever that is neither locked at an end nor in FAULT. -/
def LeverPos.unsettled : LeverPos → Bool
  | .nFree | .rFree | .travel | .backlocked => true
  | .nLocked | .rLocked | .fault => false

/-- Condition 3: no lever is in N_FREE, R_FREE, TRAVEL or BACKLOCKED. A lever with no record is not part of the
working frame (R6) and is not read (DEDUCED, log 21). -/
def State.refuseLever (s : State) : Option BoxRefusal :=
  (allLevers.find? fun n => (s.lever n).loaded && (s.lever n).pos.unsettled).map .lever

/-- The lever is locked at the term's position. -/
def LeverTerm.lockedAt (s : State) (t : LeverTerm) : Bool :=
  (s.lever t.lever).pos.isLocked && decide ((s.lever t.lever).pos.atEnd = some t.pos)

/-- Condition 4: every switch-out term is met. -/
def State.refuseTerm (s : State) : Option BoxRefusal :=
  match s.service.boxout with
  | none => none
  | some ts => (ts.find? fun t => !t.lockedAt s).map fun t => .term t.lever

/-- A code is exchanged on A, then on B (condition 5 of R120, condition 3 of R125). -/
def State.refuseExchange (s : State) (mark : Memory → Option Nat) : Option BoxRefusal :=
  ([Sec.a, Sec.b].find? fun x => !s.inWindow (mark (s.memory x))).map .exchange

/-- The test of an arrival at OUT in IN_SERVICE (R120). -/
def State.switchOutRefusal (s : State) : Option BoxRefusal :=
  firstRefusal [s.refuseNoList, s.refuseNotBlocked, s.refuseLever, s.refuseTerm, s.refuseExchange (·.boxOut)]

/-- The entry into SWITCHED_OUT (R121). DESIGN CHOICE (log 42): the sections make their SECTION entries in the order A, B,
C. -/
def enterSwitchedOut (s : State) : State :=
  let s₁ := enterLoaded .closed .c (endSec .b .through .cancelled (endSec .a .through .cancelled s))
  let s₂ := cutTapper .b (cutTapper .a (repeatReading .b (repeatReading .a s₁)))
  let s₃ := clearMarks s₂
  (s₃.setService { s₃.service with state := .switchedOut, path := none, refusal := none }).enter .service (.box .switchedOut)

/-- Take a box switch arrival: the one waiting first, if it is at this position, which becomes the switch's (R116). -/
def takeBox (b : BoxPos) (s : State) : Option State :=
  match s.inbox.box with
  | [] => none
  | c :: rest =>
    if c = b then
      some ((s.setInbox { s.inbox with box := rest }).setService { s.service with position := b })
    else none

/-- The last refusal, which stands until the next arrival (R120). -/
def State.setRefusal (s : State) (r : Option BoxRefusal) : State :=
  s.setService { s.service with refusal := r }

/-- An arrival at OUT by the service state (R116). -/
def turnOut (s : State) : State :=
  match s.service.state with
  | .powerUp | .configure => s
  | .switchedOut => s.setRefusal none
  | .inService =>
    match s.switchOutRefusal with
    | some r => s.setRefusal (some r)
    | none => enterSwitchedOut s

def arrivalAtOut (s : State) : State :=
  match takeBox .out s with
  | none => s
  | some s' => turnOut s'

def execArrivalAtOut (s : State) : Host.Outcome State Fault Refusal :=
  .next (commit s (arrivalAtOut s))

/-! ### Switching in (R125) -/

/-- Conditions 1 and 2: the incoming readings of A and of B are LB. -/
def State.refuseIndicator (s : State) : Option BoxRefusal :=
  ([Sec.a, Sec.b].find? fun x => decide ((s.section_ x).reading ≠ some .lb)).map .indicator

/-- The test of an arrival at IN in SWITCHED_OUT (R125). -/
def State.switchInRefusal (s : State) : Option BoxRefusal :=
  firstRefusal [s.refuseIndicator, s.refuseExchange (·.boxIn)]

/-- A repeat drive that is on is turned off at once; the repetition of its code was cut (R118, R125). -/
def cutRepeat (q : Sec) (s : State) : State :=
  if (s.port q).rpt.isSome then markOther q (s.setPort q (s.port q).driveOff) else s

/-- The return to IN_SERVICE (R125). DESIGN CHOICE (log 42): the sections make their SECTION entries in the order A, B, C. -/
def enterSwitchedIn (s : State) : State :=
  let s₁ := enterLoaded .blocked .c (enterLoaded .blocked .b (enterLoaded .blocked .a s))
  let s₂ := cutRepeat .b (cutRepeat .a s₁)
  let s₃ := clearMarks s₂
  (s₃.setService { s₃.service with state := .inService, path := none, refusal := none }).enter .service (.box .switchedIn)

/-- An arrival at IN by the service state (R116). -/
def turnIn (s : State) : State :=
  match s.service.state with
  | .powerUp | .configure => s
  | .inService => s.setRefusal none
  | .switchedOut =>
    match s.switchInRefusal with
    | some r => s.setRefusal (some r)
    | none => enterSwitchedIn s

def arrivalAtIn (s : State) : State :=
  match takeBox .inn s with
  | none => s
  | some s' => turnIn s'

def execArrivalAtIn (s : State) : Host.Outcome State Fault Refusal :=
  .next (commit s (arrivalAtIn s))

end Sys2Proof.Machine
end

