-- ==== Sys2Proof/Machine/Text.lean ====
section
/-! DEFINITION. Text of the supervisory line: numbers, words, the CRC-16 of a line (R145) and the CRC-32 of the
digest (R161). -/

namespace Sys2Proof.Machine

/-- A number in decimal, with no leading zeros (R160). -/
def digits (n : Nat) : Text :=
  Nat.toDigits 10 n

/-- A signed number in decimal. -/
def signedDigits (i : Int) : Text :=
  if i < 0 then '-' :: digits i.natAbs else digits i.natAbs

/-- A number in at least two decimal digits (R152's times). -/
def twoDigits (n : Nat) : Text :=
  if n < 10 then '0' :: digits n else digits n

/-- The value of a decimal digit. -/
def digitValue? (c : Char) : Option Nat :=
  if '0' ≤ c ∧ c ≤ '9' then some (c.toNat - 48) else none

/-- The value of a text of decimal digits, read after `acc`. -/
def decimalFrom (acc : Nat) : Text → Option Nat
  | [] => some acc
  | c :: cs =>
    match digitValue? c with
    | some d => decimalFrom (acc * 10 + d) cs
    | none => none

/-- The value of a decimal number (R150: a value that is not one is refused with ?FORM). DESIGN CHOICE (log 43): a decimal
number is one or more digits 0 to 9, leading zeros among them, and nothing else, so no sign. -/
def decimal? (t : Text) : Option Nat :=
  match t with
  | [] => none
  | _ => decimalFrom 0 t

/-- The pieces of a text between separators. -/
def splitOn (sep : Char) : Text → List Text
  | [] => [[]]
  | c :: cs =>
    if c = sep then [] :: splitOn sep cs
    else
      match splitOn sep cs with
      | [] => [[c]]
      | w :: ws => (c :: w) :: ws

/-- Words joined by single spaces (R145). -/
def joinWords : List Text → Text
  | [] => []
  | [w] => w
  | w :: ws => w ++ ' ' :: joinWords ws

/-- Texts joined by hyphens: a pattern as it is written (R85). -/
def joinHyphens : List Text → Text
  | [] => []
  | [w] => w
  | w :: ws => w ++ '-' :: joinHyphens ws

/-- A pattern written with hyphens. -/
def patternText (p : List Nat) : Text :=
  joinHyphens (p.map digits)

/-- Printable ASCII from space to tilde without an asterisk (R145). -/
def isTextChar (c : Char) : Bool :=
  decide (32 ≤ c.toNat ∧ c.toNat ≤ 126 ∧ c ≠ '*')

/-- A lower-case letter: keywords and values are written in upper case (R145). -/
def isLower (c : Char) : Bool :=
  decide ('a' ≤ c ∧ c ≤ 'z')

/-- A request's text keeps the rules of R145: printable, words separated by single spaces, none at either end. -/
def textOk (t : Text) : Bool :=
  t.all isTextChar && (splitOn ' ' t).all (fun w => !w.isEmpty)

/-- An upper-case hexadecimal digit. -/
def hexDigit (n : Nat) : Char :=
  if n < 10 then Char.ofNat (48 + n) else Char.ofNat (55 + n)

/-- The lowest `k` hexadecimal digits of a number, in upper case. -/
def hexDigits : Nat → Nat → Text
  | 0, _ => []
  | k + 1, n => hexDigits k (n / 16) ++ [hexDigit (n % 16)]

/-- The value of a hexadecimal digit of either case. -/
def hexValue? (c : Char) : Option Nat :=
  if '0' ≤ c ∧ c ≤ '9' then some (c.toNat - 48)
  else if 'A' ≤ c ∧ c ≤ 'F' then some (c.toNat - 55)
  else if 'a' ≤ c ∧ c ≤ 'f' then some (c.toNat - 87)
  else none

/-- The value of a text of hexadecimal digits, read after `acc`. -/
def hexFrom (acc : Nat) : Text → Option Nat
  | [] => some acc
  | c :: cs =>
    match hexValue? c with
    | some d => hexFrom (acc * 16 + d) cs
    | none => none

/-- The value of exactly `k` hexadecimal digits. -/
def hex? (k : Nat) (t : Text) : Option Nat :=
  if t.length = k then hexFrom 0 t else none

/-- Eight shifts of the CRC-16 register (R145: polynomial 0x1021, not reflected). -/
def crc16Shift : Nat → BitVec 16 → BitVec 16
  | 0, c => c
  | k + 1, c => crc16Shift k (if c.msb then (c <<< 1) ^^^ 0x1021#16 else c <<< 1)

/-- The CRC-16 of a text, continuing from a register value. -/
def crc16From (c : BitVec 16) : Text → BitVec 16
  | [] => c
  | ch :: cs => crc16From (crc16Shift 8 (c ^^^ (BitVec.ofNat 16 ch.toNat <<< 8))) cs

/-- The check of a line's text: initial value 0xFFFF, no final exclusive-or (R145). -/
def crc16 (t : Text) : BitVec 16 :=
  crc16From 0xFFFF#16 t

/-- Eight shifts of the CRC-32 register, reflected (R161: polynomial 0x04C11DB7). -/
def crc32Shift : Nat → BitVec 32 → BitVec 32
  | 0, c => c
  | k + 1, c => crc32Shift k (if c.getLsbD 0 then (c >>> 1) ^^^ 0xEDB88320#32 else c >>> 1)

/-- The CRC-32 register after a text. -/
def crc32From (c : BitVec 32) : Text → BitVec 32
  | [] => c
  | ch :: cs => crc32From (crc32Shift 8 (c ^^^ BitVec.ofNat 32 ch.toNat)) cs

/-- The CRC-32 of a text: initial value all ones, the result inverted (R161). -/
def crc32 (t : Text) : BitVec 32 :=
  ~~~ crc32From 0xFFFFFFFF#32 t

/-- A text as it stands on the line, with its check and line end (R145). -/
def lineOf (t : Text) : Text :=
  t ++ '*' :: hexDigits 4 (crc16 t).toNat ++ ['\r', '\n']

/-- The text of a received line when it is well formed: its last asterisk is followed by exactly four hexadecimal
digits, and they are the CRC of the characters before it (R145). -/
def lineText? (line : Text) : Option Text :=
  let t := line.take (line.length - 5)
  match line.drop (line.length - 5) with
  | '*' :: check =>
    match hex? 4 check with
    | some v => if v = (crc16 t).toNat then some t else none
    | none => none
  | _ => none

/-- As many leading words as leave room for a space and the word MORE within `room` characters, the count of words
taken first (R148). `used` is the length of the words already taken. -/
def wordsThatFit (room used : Nat) : List Text → Nat
  | [] => 0
  | w :: ws =>
    let used' := if used = 0 then w.length else used + 1 + w.length
    if used' + 5 ≤ room then wordsThatFit room used' ws + 1 else 0

/-- A text sent within 115 characters, and the words cut from it (R148). -/
def cutWords (ws : List Text) (limit : Nat) : Text × List Text :=
  if (joinWords ws).length ≤ limit then (joinWords ws, [])
  else
    let k := wordsThatFit limit 0 ws
    (joinWords (ws.take k ++ [['M', 'O', 'R', 'E']]), ws.drop k)

end Sys2Proof.Machine
end

