-- ==== Sys2Proof/Machine/Words.lean ====
section
/-! DEFINITION. The words of the supervisory line, written letter for letter as the manual gives them. -/

namespace Sys2Proof.Machine.W

def ID : Text := ['I', 'D']
def MODE : Text := ['M', 'O', 'D', 'E']
def MORE : Text := ['M', 'O', 'R', 'E']
def NOTIFY : Text := ['N', 'O', 'T', 'I', 'F', 'Y']
def LEV : Text := ['L', 'E', 'V']
def LOCK : Text := ['L', 'O', 'C', 'K']
def TC : Text := ['T', 'C']
def SEC : Text := ['S', 'E', 'C']
def CODE : Text := ['C', 'O', 'D', 'E']
def LAMP : Text := ['L', 'A', 'M', 'P']
def TIMES : Text := ['T', 'I', 'M', 'E', 'S']
def BOXOUT : Text := ['B', 'O', 'X', 'O', 'U', 'T']
def ERASE : Text := ['E', 'R', 'A', 'S', 'E']
def CHECK : Text := ['C', 'H', 'E', 'C', 'K']
def START : Text := ['S', 'T', 'A', 'R', 'T']
def WITHDRAW : Text := ['W', 'I', 'T', 'H', 'D', 'R', 'A', 'W']
def RESTART : Text := ['R', 'E', 'S', 'T', 'A', 'R', 'T']
def TUNE : Text := ['T', 'U', 'N', 'E']
def CLEAR : Text := ['C', 'L', 'E', 'A', 'R']
def CLOCK : Text := ['C', 'L', 'O', 'C', 'K']
def BRIGHT : Text := ['B', 'R', 'I', 'G', 'H', 'T']
def DIM : Text := ['D', 'I', 'M']
def PAINT : Text := ['P', 'A', 'I', 'N', 'T']
def SHOW : Text := ['S', 'H', 'O', 'W']
def RAW : Text := ['R', 'A', 'W']
def REG : Text := ['R', 'E', 'G']
def BOX : Text := ['B', 'O', 'X']
def GROUP : Text := ['G', 'R', 'O', 'U', 'P']
def WEFTAN : Text := ['W', 'E', 'F', 'T', 'A', 'N']
def REV : Text := ['R', 'E', 'V']
def LEVERS : Text := ['L', 'E', 'V', 'E', 'R', 'S']
def LOCKS : Text := ['L', 'O', 'C', 'K', 'S']
def CODES : Text := ['C', 'O', 'D', 'E', 'S']
def LAMPS : Text := ['L', 'A', 'M', 'P', 'S']
def POWER_UP : Text := ['P', 'O', 'W', 'E', 'R', '_', 'U', 'P']
def CONFIGURE : Text := ['C', 'O', 'N', 'F', 'I', 'G', 'U', 'R', 'E']
def IN_SERVICE : Text := ['I', 'N', '_', 'S', 'E', 'R', 'V', 'I', 'C', 'E']
def SWITCHED_OUT : Text := ['S', 'W', 'I', 'T', 'C', 'H', 'E', 'D', '_', 'O', 'U', 'T']
def SIGNAL : Text := ['S', 'I', 'G', 'N', 'A', 'L']
def POINTS : Text := ['P', 'O', 'I', 'N', 'T', 'S']
def GATE : Text := ['G', 'A', 'T', 'E']
def RELEASE : Text := ['R', 'E', 'L', 'E', 'A', 'S', 'E']
def SPARE : Text := ['S', 'P', 'A', 'R', 'E']
def LEAVE_N : Text := ['L', 'E', 'A', 'V', 'E', '_', 'N']
def LEAVE_R : Text := ['L', 'E', 'A', 'V', 'E', '_', 'R']
def BOTH : Text := ['B', 'O', 'T', 'H']
def ACTIVE : Text := ['A', 'C', 'T', 'I', 'V', 'E']
def INACTIVE : Text := ['I', 'N', 'A', 'C', 'T', 'I', 'V', 'E']
def BLOCK : Text := ['B', 'L', 'O', 'C', 'K']
def APPROACH : Text := ['A', 'P', 'P', 'R', 'O', 'A', 'C', 'H']
def ASEC : Text := ['A', 'S', 'E', 'C']
def TIME : Text := ['T', 'I', 'M', 'E']
def G : Text := ['G']
def IF : Text := ['I', 'F']
def N : Text := ['N']
def R : Text := ['R']
def A : Text := ['A']
def B : Text := ['B']
def C : Text := ['C']
def IN : Text := ['I', 'N']
def OUT : Text := ['O', 'U', 'T']
def THRU : Text := ['T', 'H', 'R', 'U']
def N_LOCKED : Text := ['N', '_', 'L', 'O', 'C', 'K', 'E', 'D']
def N_FREE : Text := ['N', '_', 'F', 'R', 'E', 'E']
def TRAVEL : Text := ['T', 'R', 'A', 'V', 'E', 'L']
def R_LOCKED : Text := ['R', '_', 'L', 'O', 'C', 'K', 'E', 'D']
def R_FREE : Text := ['R', '_', 'F', 'R', 'E', 'E']
def BACKLOCKED : Text := ['B', 'A', 'C', 'K', 'L', 'O', 'C', 'K', 'E', 'D']
def FAULT : Text := ['F', 'A', 'U', 'L', 'T']
def ON : Text := ['O', 'N']
def OFF : Text := ['O', 'F', 'F']
def REFUSED : Text := ['R', 'E', 'F', 'U', 'S', 'E', 'D']
def FORCED : Text := ['F', 'O', 'R', 'C', 'E', 'D']
def STALLED : Text := ['S', 'T', 'A', 'L', 'L', 'E', 'D']
def BACKLOCK : Text := ['B', 'A', 'C', 'K', 'L', 'O', 'C', 'K']
def UNLOADED : Text := ['U', 'N', 'L', 'O', 'A', 'D', 'E', 'D']
def COARSE : Text := ['C', 'O', 'A', 'R', 'S', 'E']
def FINE : Text := ['F', 'I', 'N', 'E']
def WINDOW : Text := ['W', 'I', 'N', 'D', 'O', 'W']
def REF : Text := ['R', 'E', 'F']
def DROP : Text := ['D', 'R', 'O', 'P']
def PICK : Text := ['P', 'I', 'C', 'K']
def FLOOR : Text := ['F', 'L', 'O', 'O', 'R']
def LOW : Text := ['L', 'O', 'W']
def JOINT : Text := ['J', 'O', 'I', 'N', 'T']
def DROPF : Text := ['D', 'R', 'O', 'P', 'F']
def PICKF : Text := ['P', 'I', 'C', 'K', 'F']
def PHASE : Text := ['P', 'H', 'A', 'S', 'E']
def INV : Text := ['I', 'N', 'V']
def DISABLED : Text := ['D', 'I', 'S', 'A', 'B', 'L', 'E', 'D']
def OCCUPIED : Text := ['O', 'C', 'C', 'U', 'P', 'I', 'E', 'D']
def FAILED : Text := ['F', 'A', 'I', 'L', 'E', 'D']
def PROOF : Text := ['P', 'R', 'O', 'O', 'F']
def LOW_REF : Text := ['L', 'O', 'W', '_', 'R', 'E', 'F']
def Q : Text := ['Q']
def D : Text := ['D']
def U : Text := ['U']
def CNT : Text := ['C', 'N', 'T']
def POSITIVE : Text := ['P', 'O', 'S', 'I', 'T', 'I', 'V', 'E']
def NEGATIVE : Text := ['N', 'E', 'G', 'A', 'T', 'I', 'V', 'E']
def STALE : Text := ['S', 'T', 'A', 'L', 'E']
def SET : Text := ['S', 'E', 'T']
def PENDING : Text := ['P', 'E', 'N', 'D', 'I', 'N', 'G']
def S : Text := ['S']
def L : Text := ['L']
def P : Text := ['P']
def SATURATED : Text := ['S', 'A', 'T', 'U', 'R', 'A', 'T', 'E', 'D']
def MASKED : Text := ['M', 'A', 'S', 'K', 'E', 'D']
def REVERSAL : Text := ['R', 'E', 'V', 'E', 'R', 'S', 'A', 'L']
def RESTORE : Text := ['R', 'E', 'S', 'T', 'O', 'R', 'E']
def NONE : Text := ['N', 'O', 'N', 'E']
def RESTORED : Text := ['R', 'E', 'S', 'T', 'O', 'R', 'E', 'D']
def FRAME : Text := ['F', 'R', 'A', 'M', 'E']
def REVERSE : Text := ['R', 'E', 'V', 'E', 'R', 'S', 'E']
def TRACK : Text := ['T', 'R', 'A', 'C', 'K']
def BEATMIN : Text := ['B', 'E', 'A', 'T', 'M', 'I', 'N']
def BEATMAX : Text := ['B', 'E', 'A', 'T', 'M', 'A', 'X']
def JOIN : Text := ['J', 'O', 'I', 'N']
def END : Text := ['E', 'N', 'D']
def LOCALMODE : Text := ['L', 'O', 'C', 'A', 'L', 'M', 'O', 'D', 'E']
def STROKE : Text := ['S', 'T', 'R', 'O', 'K', 'E']
def FOLLOW : Text := ['F', 'O', 'L', 'L', 'O', 'W']
def INDSTABLE : Text := ['I', 'N', 'D', 'S', 'T', 'A', 'B', 'L', 'E']
def EMREL : Text := ['E', 'M', 'R', 'E', 'L']
def CODEWIN : Text := ['C', 'O', 'D', 'E', 'W', 'I', 'N']
def DIV : Text := ['D', 'I', 'V']
def FLASHMS : Text := ['F', 'L', 'A', 'S', 'H', 'M', 'S']
def IDLE : Text := ['I', 'D', 'L', 'E']
def DARKOUT : Text := ['D', 'A', 'R', 'K', 'O', 'U', 'T']
def ROWREV : Text := ['R', 'O', 'W', 'R', 'E', 'V']
def COLREV : Text := ['C', 'O', 'L', 'R', 'E', 'V']
def ATTENTION : Text := ['A', 'T', 'T', 'E', 'N', 'T', 'I', 'O', 'N']
def OFFER : Text := ['O', 'F', 'F', 'E', 'R']
def ENTERING : Text := ['E', 'N', 'T', 'E', 'R', 'I', 'N', 'G']
def OUT_OF_SECTION : Text := ['O', 'U', 'T', '_', 'O', 'F', '_', 'S', 'E', 'C', 'T', 'I', 'O', 'N']
def CANCEL : Text := ['C', 'A', 'N', 'C', 'E', 'L']
def OBSTRUCTION : Text := ['O', 'B', 'S', 'T', 'R', 'U', 'C', 'T', 'I', 'O', 'N']
def BOX_OUT : Text := ['B', 'O', 'X', '_', 'O', 'U', 'T']
def BOX_IN : Text := ['B', 'O', 'X', '_', 'I', 'N']
def TEST : Text := ['T', 'E', 'S', 'T']
def INFO : Text := ['I', 'N', 'F', 'O']
def UNKNOWN : Text := ['U', 'N', 'K', 'N', 'O', 'W', 'N']
def ERRONEOUS : Text := ['E', 'R', 'R', 'O', 'N', 'E', 'O', 'U', 'S']
def HELD : Text := ['H', 'E', 'L', 'D']
def INTERRUPTED : Text := ['I', 'N', 'T', 'E', 'R', 'R', 'U', 'P', 'T', 'E', 'D']
def CLASHED : Text := ['C', 'L', 'A', 'S', 'H', 'E', 'D']
def ACCEPT : Text := ['A', 'C', 'C', 'E', 'P', 'T']
def CLEARING : Text := ['C', 'L', 'E', 'A', 'R', 'I', 'N', 'G']
def ARRIVAL : Text := ['A', 'R', 'R', 'I', 'V', 'A', 'L']
def AUTOTOL : Text := ['A', 'U', 'T', 'O', 'T', 'O', 'L']
def CLOSED : Text := ['C', 'L', 'O', 'S', 'E', 'D']
def BLOCKED : Text := ['B', 'L', 'O', 'C', 'K', 'E', 'D']
def PROTECTED : Text := ['P', 'R', 'O', 'T', 'E', 'C', 'T', 'E', 'D']
def OFFER_OUT : Text := ['O', 'F', 'F', 'E', 'R', '_', 'O', 'U', 'T']
def CLEAR_OUT : Text := ['C', 'L', 'E', 'A', 'R', '_', 'O', 'U', 'T']
def UNOFFERED_CLEAR : Text := ['U', 'N', 'O', 'F', 'F', 'E', 'R', 'E', 'D', '_', 'C', 'L', 'E', 'A', 'R']
def ENTERED_OUT : Text := ['E', 'N', 'T', 'E', 'R', 'E', 'D', '_', 'O', 'U', 'T']
def OFFER_IN : Text := ['O', 'F', 'F', 'E', 'R', '_', 'I', 'N']
def CLEAR_IN : Text := ['C', 'L', 'E', 'A', 'R', '_', 'I', 'N']
def ENTERED_IN : Text := ['E', 'N', 'T', 'E', 'R', 'E', 'D', '_', 'I', 'N']
def THROUGH : Text := ['T', 'H', 'R', 'O', 'U', 'G', 'H']
def LB : Text := ['L', 'B']
def LC : Text := ['L', 'C']
def TOL : Text := ['T', 'O', 'L']
def INVALID : Text := ['I', 'N', 'V', 'A', 'L', 'I', 'D']
def SW : Text := ['S', 'W']
def UNUSED : Text := ['U', 'N', 'U', 'S', 'E', 'D']
def DISAGREE : Text := ['D', 'I', 'S', 'A', 'G', 'R', 'E', 'E']
def RELEASED : Text := ['R', 'E', 'L', 'E', 'A', 'S', 'E', 'D']
def COUNT : Text := ['C', 'O', 'U', 'N', 'T']
def TRAIN : Text := ['T', 'R', 'A', 'I', 'N']
def OFFERED : Text := ['O', 'F', 'F', 'E', 'R', 'E', 'D']
def ACCEPTED : Text := ['A', 'C', 'C', 'E', 'P', 'T', 'E', 'D']
def ENTERED : Text := ['E', 'N', 'T', 'E', 'R', 'E', 'D']
def CLEARED : Text := ['C', 'L', 'E', 'A', 'R', 'E', 'D']
def ACC : Text := ['A', 'C', 'C']
def ENT : Text := ['E', 'N', 'T']
def BELL : Text := ['B', 'E', 'L', 'L']
def SENT : Text := ['S', 'E', 'N', 'T']
def RCVD : Text := ['R', 'C', 'V', 'D']
def CLASH : Text := ['C', 'L', 'A', 'S', 'H']
def SUPPRESSED : Text := ['S', 'U', 'P', 'P', 'R', 'E', 'S', 'S', 'E', 'D']
def LOCAL : Text := ['L', 'O', 'C', 'A', 'L']
def TAKEN : Text := ['T', 'A', 'K', 'E', 'N']
def OUT_OF_TURN : Text := ['O', 'U', 'T', '_', 'O', 'F', '_', 'T', 'U', 'R', 'N']
def FREE : Text := ['F', 'R', 'E', 'E']
def COMPLETE : Text := ['C', 'O', 'M', 'P', 'L', 'E', 'T', 'E']
def CANCELLED : Text := ['C', 'A', 'N', 'C', 'E', 'L', 'L', 'E', 'D']
def VOID : Text := ['V', 'O', 'I', 'D']
def ACTUAL : Text := ['A', 'C', 'T', 'U', 'A', 'L']
def EXTENDED : Text := ['E', 'X', 'T', 'E', 'N', 'D', 'E', 'D']
def PATH : Text := ['P', 'A', 'T', 'H']
def PORT : Text := ['P', 'O', 'R', 'T']
def MARKS : Text := ['M', 'A', 'R', 'K', 'S']
def MEMBERS : Text := ['M', 'E', 'M', 'B', 'E', 'R', 'S']
def SIGN : Text := ['S', 'I', 'G', 'N']
def DRIVE : Text := ['D', 'R', 'I', 'V', 'E']
def NO_LIST : Text := ['N', 'O', '_', 'L', 'I', 'S', 'T']
def NOT_BLOCKED : Text := ['N', 'O', 'T', '_', 'B', 'L', 'O', 'C', 'K', 'E', 'D']
def LEVER : Text := ['L', 'E', 'V', 'E', 'R']
def TERM : Text := ['T', 'E', 'R', 'M']
def EXCHANGE : Text := ['E', 'X', 'C', 'H', 'A', 'N', 'G', 'E']
def INDICATOR : Text := ['I', 'N', 'D', 'I', 'C', 'A', 'T', 'O', 'R']
def CLAMPED : Text := ['C', 'L', 'A', 'M', 'P', 'E', 'D']
def AUTO : Text := ['A', 'U', 'T', 'O']
def CROSSED : Text := ['C', 'R', 'O', 'S', 'S', 'E', 'D']
def SECTION : Text := ['S', 'E', 'C', 'T', 'I', 'O', 'N']
def SWITCHED_IN : Text := ['S', 'W', 'I', 'T', 'C', 'H', 'E', 'D', '_', 'I', 'N']
def WITHDRAWN : Text := ['W', 'I', 'T', 'H', 'D', 'R', 'A', 'W', 'N']
def OLD : Text := ['O', 'L', 'D']
def NEW : Text := ['N', 'E', 'W']
def HOST : Text := ['H', 'O', 'S', 'T']
def ALARM : Text := ['A', 'L', 'A', 'R', 'M']
def OCC : Text := ['O', 'C', 'C']
def CLR : Text := ['C', 'L', 'R']
def FLASH : Text := ['F', 'L', 'A', 'S', 'H']
def STEADY : Text := ['S', 'T', 'E', 'A', 'D', 'Y']
def LIT : Text := ['L', 'I', 'T']
def UNLIT : Text := ['U', 'N', 'L', 'I', 'T']
def TON : Text := ['T', 'O', 'N']
def PHYS : Text := ['P', 'H', 'Y', 'S']
def LEVEL : Text := ['L', 'E', 'V', 'E', 'L']
def DIMMED : Text := ['D', 'I', 'M', 'M', 'E', 'D']
def DARK : Text := ['D', 'A', 'R', 'K']
def HALF : Text := ['H', 'A', 'L', 'F']
def UNBOUND : Text := ['U', 'N', 'B', 'O', 'U', 'N', 'D']
def BUSY : Text := ['B', 'U', 'S', 'Y']
def LONG : Text := ['L', 'O', 'N', 'G']
def WORD : Text := ['W', 'O', 'R', 'D']
def FORM : Text := ['F', 'O', 'R', 'M']
def RANGE : Text := ['R', 'A', 'N', 'G', 'E']
def STATE : Text := ['S', 'T', 'A', 'T', 'E']
def FULL : Text := ['F', 'U', 'L', 'L']
def CONFLICT : Text := ['C', 'O', 'N', 'F', 'L', 'I', 'C', 'T']
def GONE : Text := ['G', 'O', 'N', 'E']
def NO_LEVERS : Text := ['N', 'O', '_', 'L', 'E', 'V', 'E', 'R', 'S']
def UNDEFINED_LEVER : Text := ['U', 'N', 'D', 'E', 'F', 'I', 'N', 'E', 'D', '_', 'L', 'E', 'V', 'E', 'R']
def SELF_LOCK : Text := ['S', 'E', 'L', 'F', '_', 'L', 'O', 'C', 'K']
def UNDEFINED_TRACK : Text := ['U', 'N', 'D', 'E', 'F', 'I', 'N', 'E', 'D', '_', 'T', 'R', 'A', 'C', 'K']
def UNDEFINED_SECTION : Text := ['U', 'N', 'D', 'E', 'F', 'I', 'N', 'E', 'D', '_', 'S', 'E', 'C', 'T', 'I', 'O', 'N']
def MISSING_CODE : Text := ['M', 'I', 'S', 'S', 'I', 'N', 'G', '_', 'C', 'O', 'D', 'E']
def VIOLATION : Text := ['V', 'I', 'O', 'L', 'A', 'T', 'I', 'O', 'N']
def DIGEST : Text := ['D', 'I', 'G', 'E', 'S', 'T']

end Sys2Proof.Machine.W
end

