-- ==== Sys2Proof/Machine/Operands.lean ====
section
/-! DEFINITION. The operand forms of a request: words by position, numbers, indices, fields, and the refusals (R147 to
R151). Positions count the first word of the request as 1. A refusal carries a position only where the request's rule
gives a field (R148); where it gives none, `bare` and `bareForm` leave it out. DESIGN CHOICE (log 24): a word that is
missing is named by the position it would have. -/

namespace Sys2Proof.Machine

/-! ### Refusals (R148) -/

/-- A refusal with its datum. -/
inductive Err
  | word | state | full | long | check | busy
  | form (pos : Option Nat)
  | range (pos : Option Nat)
  | conflict (datum : Nat)
  | gone (oldest : Option Nat)
  | start (why : List Text)
deriving DecidableEq, Repr

/-- A refusal's code word, opened by the question mark. -/
def refusalWord (w : Text) : Text := '?' :: w

/-- A datum that may be absent. -/
def datumWords : Option Nat → List Text
  | none => []
  | some n => [digits n]

/-- The words of a refusal. -/
def Err.words : Err → List Text
  | .word => [refusalWord W.WORD]
  | .state => [refusalWord W.STATE]
  | .full => [refusalWord W.FULL]
  | .long => [refusalWord W.LONG]
  | .check => [refusalWord W.CHECK]
  | .busy => [refusalWord W.BUSY]
  | .form pos => refusalWord W.FORM :: datumWords pos
  | .range pos => refusalWord W.RANGE :: datumWords pos
  | .conflict d => [refusalWord W.CONFLICT, digits d]
  | .gone q => refusalWord W.GONE :: datumWords q
  | .start why => refusalWord W.START :: why

/-- The result of reading a part of a request. -/
abbrev Parsed (α : Type) := Except Err α

/-! ### Words by position -/

/-- The word at a position. -/
def wordAt? (ws : List Text) (pos : Nat) : Option Text :=
  ws[pos - 1]?

/-- The word at a position; a missing word is malformed. -/
def wordAt (ws : List Text) (pos : Nat) : Parsed Text :=
  match wordAt? ws pos with
  | some w => .ok w
  | none => .error (.form (some pos))

/-- No word follows the first `k`; the next one is the field that offends. -/
def noMore (ws : List Text) (k : Nat) : Parsed Unit :=
  if ws.length ≤ k then .ok () else .error (.form (some (k + 1)))

/-- No word follows the first `k`. DESIGN CHOICE (log 36): where no rule speaks of a further word it is malformed, and
its ?FORM has no datum. -/
def only (ws : List Text) (k : Nat) : Parsed Unit :=
  if ws.length ≤ k then .ok () else .error (.form none)

/-- A ?FORM without a field, where the request's rule gives it none (R148). -/
def bareForm {α : Type} : Parsed α → Parsed α
  | .error (.form _) => .error (.form none)
  | r => r

/-- A ?FORM or ?RANGE without a field, where the request's rule gives it none (R148). -/
def bare {α : Type} : Parsed α → Parsed α
  | .error (.form _) => .error (.form none)
  | .error (.range _) => .error (.range none)
  | r => r

/-! ### Numbers and indices -/

/-- A decimal number (R150). -/
def number (pos : Nat) (t : Text) : Parsed Nat :=
  match decimal? t with
  | some n => .ok n
  | none => .error (.form (some pos))

/-- A structural number within a range: outside it ?RANGE, not clamped (R150). -/
def numberIn (lo hi pos : Nat) (t : Text) : Parsed Nat :=
  match number pos t with
  | .ok n => if lo ≤ n ∧ n ≤ hi then .ok n else .error (.range (some pos))
  | .error e => .error e

/-- An index 1 to `k`, counted from 0 inside. DESIGN CHOICE (log 23): one that is not a decimal number is ?FORM with its
position, where the request's rule does not leave the field out. -/
def index (k pos : Nat) (t : Text) : Parsed (Fin k) :=
  match number pos t with
  | .ok n => if h : 1 ≤ n ∧ n ≤ k then .ok ⟨n - 1, by omega⟩ else .error (.range (some pos))
  | .error e => .error e

/-- A required index: one that is missing is ?RANGE with the field (R5, R46, R151). -/
def indexAt (k : Nat) (ws : List Text) (pos : Nat) : Parsed (Fin k) :=
  match wordAt? ws pos with
  | some w => index k pos w
  | none => .error (.range (some pos))

/-- A section letter. -/
def secOf? (t : Text) : Option Sec :=
  if t = W.A then some .a else if t = W.B then some .b else if t = W.C then some .c else none

/-- A section; any other word is ?RANGE (R5, R95, R151). -/
def sectionWord (pos : Nat) (t : Text) : Parsed Sec :=
  match secOf? t with
  | some x => .ok x
  | none => .error (.range (some pos))

/-- A required section. -/
def sectionAt (ws : List Text) (pos : Nat) : Parsed Sec :=
  match wordAt? ws pos with
  | some w => sectionWord pos w
  | none => .error (.range (some pos))

/-- A position N or R. -/
def position? (t : Text) : Option LeverEnd :=
  if t = W.N then some .n else if t = W.R then some .r else none

/-- A word of a fixed table. -/
def oneOf {α : Type} (f : Text → Option α) (ws : List Text) (pos : Nat) : Parsed α :=
  match wordAt ws pos with
  | .ok w =>
    match f w with
    | some y => .ok y
    | none => .error (.form (some pos))
  | .error e => .error e

/-! ### Groups of words, each opened by a field word -/

/-- A field word, its position and the words after it up to the next field word. -/
structure Group where
  key : Text
  pos : Nat
  args : List Text
deriving DecidableEq, Repr

/-- The words from a position on, cut into groups; the words before the first field word are left over. DESIGN CHOICE
(log 23): a field word opens its field wherever it stands, also where a value of the field before it is due. -/
def groups (isKey : Text → Bool) : Nat → List Text → List Group × List Text
  | _, [] => ([], [])
  | pos, w :: ws =>
    let r := groups isKey (pos + 1) ws
    if isKey w then (⟨w, pos, r.2⟩ :: r.1, []) else (r.1, w :: r.2)

/-- The k-th word of a group after its field word. -/
def Group.arg (g : Group) (k : Nat) : Parsed Text :=
  match g.args[k - 1]? with
  | some w => .ok w
  | none => .error (.form (some (g.pos + g.args.length + 1)))

/-- No word of a group follows its first `k`. -/
def Group.noMore (g : Group) (k : Nat) : Parsed Unit :=
  if g.args.length ≤ k then .ok () else .error (.form (some (g.pos + k + 1)))

/-- A check that refuses. -/
def refuseIf (b : Bool) (e : Err) : Parsed Unit :=
  if b then .error e else .ok ()

/-- The words of a list field as distinct indices, at most `most` of them (R5, R95). DESIGN CHOICE (log 23): the rules give
no order to the faults of one word, and of a word past the most a malformed number (?FORM) is reported before the excess
(?RANGE), and the excess before an earlier index named again (?CONFLICT). -/
def indexList (k most : Nat) : List (Fin k) → Nat → List Text → Parsed (List (Fin k))
  | seen, _, [] => .ok seen
  | seen, pos, w :: ws =>
    match index k pos w with
    | .error e => .error e
    | .ok i =>
      if most ≤ seen.length then .error (.range (some pos))
      else if i ∈ seen then .error (.conflict pos)
      else indexList k most (seen ++ [i]) (pos + 1) ws

/-! ### Names and values -/

/-- A sequence of names and values from a position on: a name outside the table or without a value is ?FORM, a name
given twice ?CONFLICT (R46, R57, R80). `value` reads the value of a name at its position; `unknown` and `missing` say
whether the ?FORM of a name outside the table, and of a missing value, has a field. DESIGN CHOICE (log 23): where R57 and
R80 give no order, the first offending word in the order of the request is reported; a name given twice comes before its
missing value; and a word where a value is due is read as that value, a known name too. -/
def namedValues {α β : Type} [DecidableEq α] (unknown missing : Bool) (name? : Text → Option α)
    (value : α → Nat → Text → Parsed β) : List (α × β) → Nat → List Text → Parsed (List (α × β))
  | seen, _, [] => .ok seen
  | seen, pos, [w] =>
    match name? w with
    | none => .error (.form (if unknown then some pos else none))
    | some f =>
      if seen.any (fun e => decide (e.1 = f)) then .error (.conflict pos)
      else .error (.form (if missing then some (pos + 1) else none))
  | seen, pos, w :: v :: ws =>
    match name? w with
    | none => .error (.form (if unknown then some pos else none))
    | some f =>
      if seen.any (fun e => decide (e.1 = f)) then .error (.conflict pos)
      else
        match value f (pos + 1) v with
        | .error e => .error e
        | .ok y => namedValues unknown missing name? value (seen ++ [(f, y)]) (pos + 2) ws

/-! ### Tables of words -/

/-- The entry of a table under a word. -/
def lookup {α : Type} : List (Text × α) → Text → Option α
  | [], _ => none
  | (w, y) :: rest, t => if w = t then some y else lookup rest t

def kindTable : List (Text × LeverKind) :=
  [(W.SIGNAL, .signal), (W.POINTS, .points), (W.LOCK, .lock), (W.GATE, .gate), (W.RELEASE, .release), (W.SPARE, .spare)]

def appliesTable : List (Text × Applies) :=
  [(W.LEAVE_N, .leaveN), (W.LEAVE_R, .leaveR), (W.BOTH, .both)]

def activeTable : List (Text × Bool) :=
  [(W.ACTIVE, true), (W.INACTIVE, false)]

def tcFieldTable : List (Text × TcField) :=
  [(W.COARSE, .coarse), (W.FINE, .fine), (W.WINDOW, .window), (W.REF, .ref), (W.DROP, .drop), (W.PICK, .pick),
    (W.FLOOR, .floor), (W.LOW, .low), (W.JOINT, .joint), (W.DROPF, .dropf), (W.PICKF, .pickf), (W.PHASE, .phase),
    (W.INV, .inv), (W.GROUP, .group)]

/-- The section states in the order of R96's table. -/
def secStateTable : List (Text × SecState) :=
  [(W.CLOSED, .closed), (W.BLOCKED, .blocked), (W.PROTECTED, .protected_), (W.OFFER_OUT, .offerOut),
    (W.CLEAR_OUT, .clearOut), (W.UNOFFERED_CLEAR, .unofferedClear), (W.ENTERED_OUT, .enteredOut),
    (W.OFFER_IN, .offerIn), (W.CLEAR_IN, .clearIn), (W.ENTERED_IN, .enteredIn), (W.THROUGH, .through)]

def lampTable : List (Text × Lamp) :=
  [(W.OFF, .off), (W.ON, .on), (W.FLASH, .flash)]

/-- The word of a value in a table. -/
def wordFor {α : Type} [DecidableEq α] : List (Text × α) → α → Text
  | [], _ => []
  | (w, y) :: rest, v => if y = v then w else wordFor rest v

end Sys2Proof.Machine
end

