-- ==== Sys2Proof/Machine/Canon.lean ====
section
/-! DEFINITION. The canonical texts of the stored items (R160), the configuration digest (R161), and the words for
times, codes and states that every line uses (R152). -/

namespace Sys2Proof.Machine

/-! ### Words for values -/

/-- A lever, circuit or input number, counted from 1. -/
def ordinal {k : Nat} (n : Fin k) : Text :=
  digits (n.val + 1)

def sectionLetter : Sec → Text
  | .a => W.A
  | .b => W.B
  | .c => W.C

def endWord : LeverEnd → Text
  | .n => W.N
  | .r => W.R

def onOff (b : Bool) : Text :=
  if b then W.ON else W.OFF

/-- A word that is present only when its condition holds. -/
def optional (b : Bool) (w : Text) : List Text :=
  if b then [w] else []

/-- A time: day, solidus, hh:mm:ss.t, and U when the clock was unset (R152). -/
def timeWord (c : ClockTime) : Text :=
  digits c.day ++ '/' :: twoDigits (c.tenths / 36000) ++ ':' :: twoDigits (c.tenths / 600 % 60) ++
    ':' :: twoDigits (c.tenths / 10 % 60) ++ '.' :: digits (c.tenths % 10) ++ (if c.unset then ['U'] else [])

/-- The word of a meaning and the number it carries (R84). -/
def meaningWords : Meaning → List Text
  | .attention => [W.ATTENTION]
  | .offer cls => [W.OFFER, digits cls]
  | .entering => [W.ENTERING]
  | .outOfSection => [W.OUT_OF_SECTION]
  | .cancel => [W.CANCEL]
  | .obstruction => [W.OBSTRUCTION]
  | .boxOut => [W.BOX_OUT]
  | .boxIn => [W.BOX_IN]
  | .test => [W.TEST]
  | .info n => [W.INFO, digits n]

def causeWord : SpoilCause → Text
  | .held => W.HELD
  | .interrupted => W.INTERRUPTED
  | .clashed => W.CLASHED

def classWords : Classification → List Text
  | .meaning m => meaningWords m
  | .unknown => [W.UNKNOWN]
  | .erroneous none => [W.ERRONEOUS]
  | .erroneous (some c) => [W.ERRONEOUS, causeWord c]

def secStateWord (st : SecState) : Text :=
  wordFor secStateTable st

/-! ### Canonical texts (R160), as words -/

def termWords (t : LeverTerm) : List Text :=
  [ordinal t.lever, endWord t.pos]

/-- Terms in ascending lever order. -/
def insertTerm (t : LeverTerm) : List LeverTerm → List LeverTerm
  | [] => [t]
  | u :: us => if t.lever ≤ u.lever then t :: u :: us else u :: insertTerm t us

def sortTerms : List LeverTerm → List LeverTerm
  | [] => []
  | t :: ts => insertTerm t (sortTerms ts)

def timesWords (t : Times) : List Text :=
  [W.TIMES, W.TRAVEL, digits t.travel, W.FRAME, digits t.frame, W.REVERSE, digits t.reverse, W.PROOF, digits t.proof,
    W.TRACK, digits t.track, W.BEATMIN, digits t.beatmin, W.BEATMAX, digits t.beatmax, W.JOIN, digits t.join,
    W.END, digits t.endWait, W.LOCALMODE, (match t.localmode with
      | .follow => W.FOLLOW
      | .stroke => W.STROKE),
    W.STROKE, digits t.stroke, W.INDSTABLE, digits t.indstable, W.EMREL, digits t.emrel, W.CODEWIN, digits t.codewin,
    W.DIV, digits t.div, W.FLASHMS, digits t.flashms, W.IDLE, digits t.idle, W.DARKOUT, digits t.darkout,
    W.ROWREV, digits t.rowrev, W.COLREV, digits t.colrev]

def boxoutWords (ts : List LeverTerm) : List Text :=
  W.BOXOUT :: (sortTerms ts).flatMap termWords

def trackTermWords (t : TrackTerm) : List Text :=
  [W.TC, ordinal t.circuit, wordFor appliesTable t.applies]

def provingTermWords (t : ProvingTerm) : List Text :=
  [W.G, ordinal t.input, wordFor activeTable t.active, wordFor appliesTable t.applies]

/-- A field with a section letter, absent when there is none. -/
def sectionField (key : Text) : Option Sec → List Text
  | none => []
  | some x => [key, sectionLetter x]

/-- A list field: an empty list is written with neither its keyword nor any value. -/
def listField {k : Nat} (key : Text) : List (Fin k) → List Text
  | [] => []
  | ns => key :: ns.map ordinal

def approachWords : Option Approach → List Text
  | none => []
  | some a => listField W.APPROACH a.circuits ++ sectionField W.ASEC a.sec ++ [W.TIME, digits a.time]

def levWords (n : Lever) (r : LevRecord) : List Text :=
  [W.LEV, ordinal n, wordFor kindTable r.kind] ++ r.tracks.flatMap trackTermWords ++
    r.provings.flatMap provingTermWords ++ sectionField W.BLOCK r.block ++ approachWords r.approach

/-- The words of a locking entry after its keyword. -/
def lockTail (e : LockEntry) : List Text :=
  termWords e.x ++ termWords e.y ++
    (match sortTerms e.conds with
      | [] => []
      | ts => W.IF :: ts.flatMap termWords)

def lockWords (e : LockEntry) : List Text :=
  W.LOCK :: lockTail e

/-- The names and values of the fourteen fields in the order of the record table. -/
def tcValueWords (r : TcRecord) : List Text :=
  [W.COARSE, digits r.coarse, W.FINE, digits r.fine, W.WINDOW, digits r.window, W.REF, digits r.ref, W.DROP, digits r.drop,
    W.PICK, digits r.pick, W.FLOOR, digits r.floor, W.LOW, digits r.low, W.JOINT, digits r.joint, W.DROPF, digits r.dropf,
    W.PICKF, digits r.pickf, W.PHASE, digits r.phase, W.INV, digits r.inv, W.GROUP, digits r.group]

def tcWords (t : Circuit) (r : TcRecord) : List Text :=
  [W.TC, ordinal t] ++ tcValueWords r

def secWords (x : Sec) (r : SecRecord) : List Text :=
  [W.SEC, sectionLetter x] ++ listField W.ACCEPT r.accept ++ listField W.CLEARING r.clearing ++
    listField W.ARRIVAL r.arrival ++ [W.AUTOTOL, if r.autotol then ['1'] else ['0']]

/-- The words of a code table entry after its keyword. -/
def codeTail (e : CodeEntry) : List Text :=
  patternText e.pattern :: meaningWords e.meaning

def codeWords (e : CodeEntry) : List Text :=
  W.CODE :: codeTail e

/-- The states of a SECTION list in the order of the section state table. -/
def sortStates (states : List SecState) : List SecState :=
  (secStateTable.map (·.2)).filter fun st => decide (st ∈ states)

def qualWord : LeverQual → Text
  | .n => W.N
  | .r => W.R
  | .free => W.FREE
  | .refused => W.REFUSED

/-- A source with its index and qualifier. -/
def sourceWords : Source → List Text
  | .off => [W.OFF]
  | .on => [W.ON]
  | .host => [W.HOST]
  | .track t clr => [W.TRACK, ordinal t, if clr then W.CLR else W.OCC]
  | .lever n q => [W.LEVER, ordinal n, qualWord q]
  | .sec x states => [W.SECTION, sectionLetter x] ++ (sortStates states).map secStateWord
  | .indicator x lc => [W.INDICATOR, sectionLetter x, if lc then W.LC else W.TOL]
  | .bell x => [W.BELL, sectionLetter x]
  | .box => [W.BOX, W.OUT]
  | .disagree (some x) => [W.DISAGREE, sectionLetter x]
  | .disagree none => [W.DISAGREE, W.BOX]
  | .alarm => [W.ALARM]

/-- The source takes a mode and an invert (R137). -/
def Source.takesMode : Source → Bool
  | .host | .alarm => false
  | _ => true

def bindingWords (c : Cell) (b : Binding) : List Text :=
  [W.LAMP, digits (c.val / 32), digits (c.val % 32)] ++ sourceWords b.source ++
    (if b.source.takesMode then [if b.flash then W.FLASH else W.STEADY, if b.invert then ['1'] else ['0']] else [])

/-! ### The digest (R161) -/

/-- Every stored item's words, in the order of the digest. -/
def State.storedItems (s : State) : List (List Text) :=
  (if s.timesLoaded then [timesWords s.times] else []) ++
    s.service.boxout.toList.map boxoutWords ++
    (allLevers.flatMap fun n => (s.lever n).record.toList.map (levWords n)) ++
    s.locking.map lockWords ++
    (allCircuits.flatMap fun t => (s.circuit t).stored.toList.map (tcWords t)) ++
    (allSections.flatMap fun x => (s.section_ x).record.toList.map (secWords x)) ++
    s.codes.map codeWords ++
    s.diagram.stored.map fun e => bindingWords e.1 e.2

/-- Each text followed by one line feed. -/
def digestText (items : List (List Text)) : Text :=
  items.flatMap fun ws => joinWords ws ++ ['\n']

/-- The digest as eight hexadecimal digits in upper case. -/
def State.digestWord (s : State) : Text :=
  hexDigits 8 (crc32 (digestText s.storedItems)).toNat

end Sys2Proof.Machine
end

