-- ==== Sys2Proof/Machine/Request.lean ====
section
/-! DEFINITION. The handling of a waiting line: which line is at the front and what it asks, the order of checks, the
reply and its cutting (R147 to R149, R151). Also the simplest requests: ID, MODE, MORE, NOTIFY. -/

namespace Sys2Proof.Machine

/-! ### The row a request's words choose (R151) -/

/-- A request's second word chooses among rows; any other word is answered by UNKNOWN_KEYWORD's step. -/
def byObject (rows : List (Text × Instr)) (ws : List Text) : Instr :=
  match wordAt? ws 2 with
  | some w => (lookup rows w).getD .unknownKeyword
  | none => .unknownKeyword

def eraseRows : List (Text × Instr) :=
  [(W.LEV, .eraseLev), (W.LOCK, .eraseLock), (W.TC, .eraseTc), (W.SEC, .eraseSec), (W.CODE, .eraseCode),
    (W.LAMP, .eraseLamp), (W.BOXOUT, .eraseBoxout)]

def showRows : List (Text × Instr) :=
  [(W.LEV, .showLev), (W.TC, .showTc), (W.SEC, .showSec), (W.BOX, .showBox), (W.GROUP, .showGroup), (W.LAMP, .showLamp)]

def tuneRows : List (Text × Instr) := [(W.TC, .tuneTc), (W.GROUP, .tuneGroup)]

def clearRows : List (Text × Instr) := [(W.TC, .clearTc), (W.LEV, .clearLev)]

def rawRows : List (Text × Instr) := [(W.TC, .rawTc)]

/-- Requests whose first word alone chooses the row. -/
def plainRows : List (Text × Instr) :=
  [(W.ID, .ident), (W.MODE, .mode), (W.MORE, .more), (W.NOTIFY, .notify), (W.LEV, .lev), (W.LOCK, .lock), (W.TC, .tc),
    (W.SEC, .sec), (W.CODE, .code), (W.LAMP, .lamp), (W.TIMES, .times), (W.BOXOUT, .boxout), (W.CHECK, .check),
    (W.START, .start), (W.WITHDRAW, .withdraw), (W.RESTART, .restart), (W.CLOCK, .clock), (W.BRIGHT, .bright),
    (W.DIM, .dim), (W.PAINT, .paint), (W.REG, .reg)]

/-- Requests whose second word chooses the row. -/
def objectRows : List (Text × List (Text × Instr)) :=
  [(W.ERASE, eraseRows), (W.SHOW, showRows), (W.TUNE, tuneRows), (W.CLEAR, clearRows), (W.RAW, rawRows)]

/-- The row of the table that handles a request's words. -/
def rowOf (ws : List Text) : Instr :=
  match ws with
  | [] => .unknownKeyword
  | w :: _ =>
    match lookup plainRows w with
    | some i => i
    | none =>
      match lookup objectRows w with
      | some rows => byObject rows ws
      | none => .unknownKeyword

/-! ### The front line (R145, R147, R149) -/

/-- What the line at the front of the receive queue is. -/
inductive Front
  | faulted (e : Err)
  | held (words : List Text)
  | request (row : Instr) (words : List Text)
deriving DecidableEq, Repr

/-- Keywords and values are in upper case (R145), but for START's digest, accepted in either case (R162). -/
def caseOk (ws : List Text) : Bool :=
  match ws with
  | [] => true
  | w :: rest => !w.any isLower && (decide (w = W.START) || rest.all fun v => !v.any isLower)

/-- A line ending with MORE, of two or more words (R149). -/
def endsMore (ws : List Text) : Bool :=
  decide (2 ≤ ws.length ∧ ws.getLast? = some W.MORE)

/-- The request of the held words and a line's words joined. DEDUCED (log 32): a word in small letters is ?FORM before
any check of R147. -/
def joinedRequest (ws : List Text) : Front :=
  if Config.maxJoined < (joinWords ws).length then .faulted .long
  else if caseOk ws then .request (rowOf ws) ws
  else .faulted (.form none)

/-- What a well-formed line's text asks. DEDUCED (log 32): a text that breaks R145 is ?FORM before any check of R147, so
before ?WORD and ?STATE, in every service state. DEDUCED (log 28): so too where its last word is MORE, and it then discards
the held words. -/
def frontOfText (powerUp : Bool) (held : List Text) (t : Text) : Front :=
  if !textOk t then .faulted (.form none)
  else
    let ws := splitOn ' ' t
    if !powerUp && endsMore ws then .held ws.dropLast
    else if !powerUp && decide (ws = [W.MORE]) then .request .more ws
    else joinedRequest (held ++ ws)

/-- What a waiting line is. -/
def frontOf (powerUp : Bool) (held : List Text) : WaitingLine → Front
  | .long => .faulted .long
  | .badCheck => .faulted .check
  | .request t => frontOfText powerUp held t

/-- The front line may be handled: the reply slot is empty, no ?BUSY is owed before it, and no RESTART has been
accepted (R147, R157). -/
def State.mayHandle (s : State) : Bool :=
  s.link.slot.isNone && decide (s.link.owed = 0) && decide (s.link.restart = .none)

/-- The front line, when it may be handled. -/
def State.front? (s : State) : Option Front :=
  if s.mayHandle then s.link.queue.head?.map fun w => frontOf (s.isIn .powerUp) s.link.heldWords w.line else none

/-! ### Replies (R147, R148) -/

/-- The busy tally of the front line. -/
def Link.frontTally (k : Link) : Nat :=
  match k.queue with
  | [] => 0
  | w :: _ => w.tally

/-- A reply formed of words: cut to 115 characters with its remaining words kept, and placed in the slot (R148). -/
def Link.place (k : Link) (ws : List Text) : Link :=
  let r := cutWords ws Config.maxText
  { k with slot := some r.1, keptWords := r.2 }

/-- The front line is answered and leaves the queue; what its tally owes follows (R147). -/
def Link.answer (k : Link) (ws : List Text) : Link :=
  { k.place ws with queue := k.queue.drop 1, owed := k.frontTally }

/-- A reply to the front line, the held words used or discarded (R149). -/
def reply (ws : List Text) (s : State) : State :=
  s.setLink { s.link.answer ws with heldWords := [] }

/-- A success reply opens with an equals sign (R148). -/
def success (ws : List Text) : List Text :=
  match ws with
  | [] => [['=']]
  | w :: rest => ('=' :: w) :: rest

/-- A request as its row's rule handles it: the state after it and the words of its success reply. -/
abbrev Handler := List Text → State → Parsed (State × List Text)

/-- A request handled as one event: its own checks, its effect and its reply. -/
def handle (f : Handler) (ws : List Text) (s : State) : State :=
  match f ws s with
  | .ok (s', r) => reply (success r) s'
  | .error e => reply e.words s

/-- The step of a request row: the front line, if it is a request of this row, is checked against the service state
and handled (R147). Otherwise nothing happens. -/
def requestStep (row : Instr) (accept : ServiceState → Bool) (f : Handler) (s : State) : State :=
  match s.front? with
  | some (.request i ws) =>
    if i = row then
      if accept s.service.state then handle f ws s else reply Err.state.words s
    else s
  | _ => s

/-- The service states in which requests are accepted (R151). -/
def always : ServiceState → Bool
  | _ => true

def afterPowerUp (v : ServiceState) : Bool :=
  decide (v ≠ .powerUp)

def inConfigure (v : ServiceState) : Bool :=
  decide (v = .configure)

/-- A request that changes nothing but the reply. -/
def answering (f : List Text → State → Parsed (List Text)) : Handler := fun ws s =>
  match f ws s with
  | .ok r => .ok (s, r)
  | .error e => .error e

/-! ### ID, MODE (R151) -/

/-- The reply to ID. -/
def identWords (strap : Fin 4) : List Text :=
  [W.ID, W.WEFTAN, digits 2208, W.REV, digits 3, W.LEVERS, digits 48, W.LOCKS, digits Config.maxLocks, W.TC, digits 20,
    W.SEC, digits 3, W.CODES, digits Config.maxCodes, W.REG, digits Config.maxRegister, W.LAMPS, digits 512,
    W.BOX, digits strap.val]

def handleIdent : Handler :=
  answering fun ws s => (only ws 1).map fun _ => identWords s.strap

def execIdent (s : State) : Host.Outcome State Fault Refusal :=
  .next (commit s (requestStep .ident always handleIdent s))

def serviceWord : ServiceState → Text
  | .powerUp => W.POWER_UP
  | .configure => W.CONFIGURE
  | .inService => W.IN_SERVICE
  | .switchedOut => W.SWITCHED_OUT

def handleMode : Handler :=
  answering fun ws s => (only ws 1).map fun _ => [W.MODE, serviceWord s.service.state]

def execMode (s : State) : Host.Outcome State Fault Refusal :=
  .next (commit s (requestStep .mode always handleMode s))

/-! ### MORE (R149) -/

/-- The held words stay; the answer carries the next part of the kept words. -/
def replyMore (s : State) : State :=
  s.setLink { s.link.answer (success (W.MORE :: s.link.keptWords)) with heldWords := s.link.heldWords }

/-- MORE, a line of that one word. Joined with held words it is a request of more words, refused as malformed. -/
def moreRequest (s : State) : State :=
  match s.front? with
  | some (.request .more ws) =>
    if s.isIn .powerUp then reply Err.state.words s
    else if ws = [W.MORE] then replyMore s
    else reply (Err.form none).words s
  | _ => s

def execMore (s : State) : Host.Outcome State Fault Refusal :=
  .next (commit s (moreRequest s))

/-! ### NOTIFY (R154, R156) -/

inductive NotifyClass
  | lev | tc | sec | box | reg
deriving DecidableEq, Repr

def classTable : List (Text × NotifyClass) :=
  [(W.LEV, .lev), (W.TC, .tc), (W.SEC, .sec), (W.BOX, .box), (W.REG, .reg)]

/-- The class words from a position on: an unknown one is ?FORM, one named twice ?CONFLICT. -/
def classWordsFrom : List NotifyClass → Nat → List Text → Parsed (List NotifyClass)
  | seen, _, [] => .ok seen
  | seen, pos, w :: ws =>
    match lookup classTable w with
    | none => .error (.form (some pos))
    | some c => if c ∈ seen then .error (.conflict pos) else classWordsFrom (seen ++ [c]) (pos + 1) ws

def classesOf (cs : List NotifyClass) : Classes :=
  ⟨decide (.lev ∈ cs), decide (.tc ∈ cs), decide (.sec ∈ cs), decide (.box ∈ cs), decide (.reg ∈ cs)⟩

/-- The classes that are on, in the order of R154. -/
def Classes.words (k : Classes) : List Text :=
  optional k.lev W.LEV ++ optional k.tc W.TC ++ optional k.sec W.SEC ++ optional k.box W.BOX ++ optional k.reg W.REG

/-- The send mark: set to the next append's number when REG is turned on, removed when it is turned off (R156). -/
def markOnNotify (was now : Bool) (mark : Option Seq) (next : Seq) : Option Seq :=
  if now then (if was then mark else some next) else none

/-- The classes named are on and the others off; the items of classes turned off leave the set. -/
def setClasses (k : Classes) (s : State) : State :=
  s.setLink
    { s.link with
      classes := k
      reports := s.link.reports.filter k.has
      mark := markOnNotify s.link.classes.reg k.reg s.link.mark s.register.next }

def handleNotify : Handler := fun ws s =>
  (classWordsFrom [] 2 (ws.drop 1)).map fun cs => (setClasses (classesOf cs) s, W.NOTIFY :: (classesOf cs).words)

def execNotify (s : State) : Host.Outcome State Fault Refusal :=
  .next (commit s (requestStep .notify afterPowerUp handleNotify s))

end Sys2Proof.Machine
end

