-- ==== Sys2Proof/Machine/Scan.lean ====
section
/-! DEFINITION. The scan frame: requests applied at its start, the polarity generator, the proof choice, feeds and
masks, the frame length, and its completion (R45 to R60, R72 to R74). -/

namespace Sys2Proof.Machine

/-! ### The values of a record by name -/

def TcRecord.get (r : TcRecord) : TcField → Nat
  | .coarse => r.coarse
  | .fine => r.fine
  | .window => r.window
  | .ref => r.ref
  | .drop => r.drop
  | .pick => r.pick
  | .floor => r.floor
  | .low => r.low
  | .joint => r.joint
  | .dropf => r.dropf
  | .pickf => r.pickf
  | .phase => r.phase
  | .inv => r.inv
  | .group => r.group

def TcRecord.set (r : TcRecord) (v : Nat) : TcField → TcRecord
  | .coarse => { r with coarse := v }
  | .fine => { r with fine := v }
  | .window => { r with window := v }
  | .ref => { r with ref := v }
  | .drop => { r with drop := v }
  | .pick => { r with pick := v }
  | .floor => { r with floor := v }
  | .low => { r with low := v }
  | .joint => { r with joint := v }
  | .dropf => { r with dropf := v }
  | .pickf => { r with pickf := v }
  | .phase => { r with phase := v }
  | .inv => { r with inv := v }
  | .group => { r with group := v }

/-- Values written into a record, in order (R57). -/
def TcRecord.setAll (r : TcRecord) : List (TcField × Nat) → TcRecord
  | [] => r
  | (f, v) :: vs => (r.set v f).setAll vs

/-- A field whose tuning masks the measurement (R53). -/
def TcField.masks : TcField → Bool
  | .coarse | .fine | .window | .ref => true
  | _ => false

/-! ### Requests applied at a frame start (R47, R49, R57, R72, R73) -/

/-- What the applying of requests at one frame start works on: the circuits, the circuits whose record takes effect
here, those whose tuning masks this frame, the circuit whose restore frame this is, and the entries made. -/
structure StartWork where
  circuits : Vector CircuitData 20
  fresh : List Circuit
  tuned : List Circuit
  restore : Option Circuit
  entries : List RegBody
deriving DecidableEq, Repr

/-- A record taking effect (R47): OCCUPIED, reference from REF, counts zeroed, last measurement discarded, STALE
cleared (R60). -/
def CircuitData.takeRecord (k : CircuitData) (r : TcRecord) : CircuitData :=
  { k.enter .occupied with live := some r, q := r.ref * 16, taken := none, published := none, stale := false }

/-- A circuit disabled by ERASE TC (R47). -/
def CircuitData.disable (k : CircuitData) : CircuitData :=
  { k.enter .disabled with
    live := none, applied := none, feed := none, masks := [], taken := none, published := none, stale := false }

/-- A TUNE written into the record (R57); one of REF sets the reference and zeroes the counts (R73). -/
def CircuitData.takeTune (k : CircuitData) (vals : List (TcField × Nat)) : CircuitData :=
  match k.live with
  | none => k
  | some r =>
    let r' := r.setAll vals
    let k' := { k with live := some r', stored := some r', stale := true }
    if vals.any (·.1 = .ref) then { k' with q := r'.ref * 16, low := 0, high := 0, reverse := 0 } else k'

/-- CLEAR TC applied: a circuit latched FAILED with cause JOINT or PROOF enters OCCUPIED (R72). -/
def CircuitData.takeClear (k : CircuitData) : CircuitData :=
  match k.state with
  | .failed .joint | .failed .proof => k.enter .occupied
  | _ => k

/-- One request applied. -/
def StartWork.apply (w : StartWork) : TrackOp → StartWork
  | .load t r =>
    { w with
      circuits := w.circuits.set t.val (w.circuits[t].takeRecord r)
      fresh := addOnce t w.fresh
      entries := w.entries ++ trackEntry t w.circuits[t].state .occupied }
  | .erase =>
    { w with
      circuits := Vector.ofFn fun t => w.circuits[t].disable
      fresh := []
      tuned := []
      restore := none }
  | .tune t vals =>
    { w with
      circuits := w.circuits.set t.val (w.circuits[t].takeTune vals)
      tuned := if vals.any (·.1.masks) then addOnce t w.tuned else w.tuned }
  | .clear t =>
    let k := w.circuits[t].takeClear
    { w with
      circuits := w.circuits.set t.val k
      entries := w.entries ++ trackEntry t w.circuits[t].state k.state }

/-- The requests applied in the order of their acceptance. -/
def StartWork.applyAll (w : StartWork) : List TrackOp → StartWork
  | [] => w
  | o :: os => (w.apply o).applyAll os

/-! ### Polarity generator (R51, R52) -/

/-- One step: the new bit 0 is bit 6 exclusive-or bit 5, every bit moves up one place. -/
def stepGenerator (g : BitVec 7) : BitVec 7 :=
  (g <<< 1) ||| (if g.getLsbD 6 ^^ g.getLsbD 5 then 1#7 else 0#7)

/-- The generator and reversal count after a frame start (R51). -/
def advanceReversal (g : BitVec 7) (count reverse : Nat) : BitVec 7 × Nat :=
  if reverse ≤ count + 1 then (stepGenerator g, 0) else (g, count + 1)

/-- The wanted polarity of a record: bit PHASE of the generator exclusive-or INV (R52). -/
def wanted (g : BitVec 7) (r : TcRecord) : Polarity :=
  if g.getLsbD r.phase ^^ decide (r.inv = 1) then .positive else .negative

/-! ### Proof choice (R54) -/

/-- The circuits after the cursor in number order, wrapping from T20 to T1, ending with the one it names. -/
def afterCursor : Option Circuit → List Circuit
  | none => allCircuits
  | some t => (allCircuits.filter fun u => decide (t.val < u.val)) ++ allCircuits.filter fun u => decide (u.val ≤ t.val)

/-- Enabled, not FAILED, and its record has not taken effect at this frame start (R54). -/
def eligible (w : StartWork) (t : Circuit) : Bool :=
  (match w.circuits[t].state with
    | .occupied | .clear => true
    | .failed _ | .disabled => false) && decide (t ∉ w.fresh)

/-- The proof count, cursor and proof circuit after a frame start (R54). -/
def chooseProof (w : StartWork) (count proof : Nat) (cursor : Option Circuit) : Nat × Option Circuit × Option Circuit :=
  if proof = 0 then (0, cursor, none)
  else if proof ≤ count + 1 then
    match (afterCursor cursor).find? (eligible w) with
    | some t => (0, some t, some t)
    | none => (0, cursor, none)
  else (count + 1, cursor, none)

/-! ### Feeds and masks (R52, R53, R55) -/

/-- The circuit's feed, applied polarity and masks for the frame, which begins with all of its tuning applied (R60).
DESIGN CHOICE (log 26): REVERSAL or PROOF stands first among the masks, then RESTORE, then TUNE, the order in which RAW TC
sends them. -/
def setFeed (w : StartWork) (g : BitVec 7) (proof : Option Circuit) (t : Circuit) : CircuitData :=
  let k := { w.circuits[t] with retuned := false }
  match k.live with
  | none => { k with feed := none, applied := none, masks := [], taken := none }
  | some r =>
    let restore := if w.restore = some t then [MaskCause.restore] else []
    let tune := if t ∈ w.tuned then [MaskCause.tune] else []
    if proof = some t then { k with feed := none, masks := .proof :: restore ++ tune, taken := none }
    else
      let p := wanted g r
      let reversal := if t ∉ w.fresh ∧ k.applied ≠ some p then [MaskCause.reversal] else []
      { k with applied := some p, feed := some p, masks := reversal ++ restore ++ tune, taken := none }

/-! ### Frame length (R50), in tenths of a millisecond -/

/-- The dwell of a circuit with its window. -/
def dwell (r : TcRecord) : Nat :=
  2 + r.window

/-- The sum of the dwells of the enabled circuits. -/
def dwells (circuits : Vector CircuitData 20) : List Circuit → Nat
  | [] => 0
  | t :: ts =>
    (match circuits[t].live with
      | some r => dwell r
      | none => 0) + dwells circuits ts

/-- The required length: the dwells and 2 ms. -/
def requiredLength (circuits : Vector CircuitData 20) : Nat :=
  dwells circuits allCircuits + 20

/-- The actual length in ms, and whether the frame is extended. -/
def actualLength (required frame : Nat) : Nat × Bool :=
  if required ≤ frame * 10 then (frame, false) else ((required + 9) / 10, true)

/-! ### Frame start and completion (R49, R59, R60) -/

/-- The work of a frame start before its requests: the proof circuit of the frame before has its restore frame. -/
def startWork (k : TrackUnit) : StartWork :=
  ⟨k.circuits, [], [], k.proofNow, []⟩

/-- The start of a frame, in the order of R49, from the Track unit of `s`, laid on `s₁`. -/
def startFrame (s s₁ : State) : State :=
  let k := s.track
  let w := (startWork k).applyAll k.ops
  let p : ScanParams := ⟨s.times.frame, s.times.reverse, s.times.proof, s.times.track⟩
  let g := advanceReversal k.gen k.reversals p.reverse
  let c := chooseProof w k.proofs p.proof k.cursor
  let circuits := Vector.ofFn fun t => setFeed w g.1 c.2.2 t
  let len := actualLength (requiredLength circuits) p.frame
  (s₁.setTrack
    { circuits := circuits
      ops := []
      params := p
      gen := g.1
      reversals := g.2
      proofs := c.1
      cursor := c.2.1
      proofNow := c.2.2
      scanning := true
      started := s.now
      actual := len.1
      extended := len.2
      toMeasure := allCircuits.filter fun t => circuits[t].live.isSome }).enterAll .track w.entries

/-- The circuits of a piece of work. -/
def State.withCircuits (s : State) (w : StartWork) : State :=
  s.setTrack { s.track with circuits := w.circuits }

/-- The requests applied one after another, the changes each makes of a track state handed on before the next (R47,
R75: a circuit erased and loaded at one frame start changes twice). -/
def handEach (w : StartWork) : List TrackOp → State → State
  | [], s => s
  | o :: os, s => handEach (w.apply o) os (commit s (s.withCircuits (w.apply o)))

/-- No frame may start: the part is in POWER_UP, or one is in progress. -/
def State.frameWaits (s : State) : Bool :=
  s.isIn .powerUp || s.track.scanning

/-- The changes that the requests waiting make, handed on. -/
def handWaiting (s : State) : State :=
  if s.frameWaits then s else handEach (startWork s.track) s.track.ops s

/-- SCAN_FRAME_START, in every service state after POWER_UP, when no frame is in progress. `s` is the state before it
and `s₁` the same with the changes of its requests handed on. -/
def scanFrameStart (s s₁ : State) : State :=
  if s.frameWaits then s₁ else startFrame s s₁

def execScanFrameStart (s : State) : Host.Outcome State Fault Refusal :=
  .next (commit (handWaiting s) (scanFrameStart s (handWaiting s)))

/-- A TUNE of the circuit waits for a frame start. -/
def TrackOp.tunes (t : Circuit) : TrackOp → Bool
  | .tune u _ => decide (u = t)
  | _ => false

/-- A circuit at a frame's completion: its measurement is published (R59), and STALE is cleared when the frame began with
all of its accepted tuning applied (R60). DEDUCED (log 38): tuning that a TC load or an erase has dropped is accepted tuning
that no frame begins with, so STALE then stays until the load or the erase takes effect. -/
def publish (k : TrackUnit) (t : Circuit) : CircuitData :=
  let d := k.circuits[t]
  { d with
    published := (match d.taken with
      | some m => some m
      | none => d.published)
    taken := none
    stale := d.stale && d.retuned }

/-- SCAN_FRAME_COMPLETE: every enabled circuit has been measured and the frame length has run. -/
def scanFrameComplete (s : State) : State :=
  if s.track.scanning && s.track.toMeasure.isEmpty && decide (s.track.started + s.track.actual ≤ s.now) then
    s.setTrack { s.track with circuits := Vector.ofFn fun t => publish s.track t, scanning := false }
  else s

def execScanFrameComplete (s : State) : Host.Outcome State Fault Refusal :=
  .next (commit s (scanFrameComplete s))

end Sys2Proof.Machine
end

