-- ==== Sys2Proof/Machine/Load.lean ====
section
/-! DEFINITION. The load and ERASE requests (R4, R5, R16, R21, R22, R35, R45 to R48, R80, R85, R95, R117, R133, R137,
R160). -/

namespace Sys2Proof.Machine

/-! ### LEV (R4, R5) -/

/-- What has been read of a LEV request. `refusal` is the first offending field in the order of the canonical text:
the rank of its field in that order, and the refusal. -/
structure LevRead where
  tracks : List TrackTerm
  provings : List ProvingTerm
  block : Option Sec
  approach : Option (List Circuit)
  sec : Option Sec
  time : Option Nat
  refusal : Option (Nat × Err)
deriving DecidableEq, Repr

def LevRead.empty : LevRead := ⟨[], [], none, none, none, none, none⟩

/-- A refusal found in a field of a rank: the least rank stands, and of one rank the first found. -/
def LevRead.fail (r : LevRead) (rank : Nat) (e : Err) : LevRead :=
  match r.refusal with
  | some (k, _) => if k ≤ rank then r else { r with refusal := some (rank, e) }
  | none => { r with refusal := some (rank, e) }

/-- A field read, or its refusal noted. -/
def LevRead.take {α : Type} (r : LevRead) (rank : Nat) (p : Parsed α) (f : α → LevRead) : LevRead :=
  match p with
  | .ok y => f y
  | .error e => r.fail rank e

def levKeys : List Text := [W.TC, W.G, W.BLOCK, W.APPROACH, W.ASEC, W.TIME]

/-- A term's qualifier: a SIGNAL's terms are LEAVE_N (R5). -/
def qualifier (kind : LeverKind) (pos : Nat) (t : Text) : Parsed Applies := do
  let a ← oneOf (lookup appliesTable) [t] 1 |>.mapError fun _ => .form (some pos)
  refuseIf (decide (kind = .signal ∧ a ≠ .leaveN)) (.form (some pos))
  return a

/-- A track term of a record that has `terms` already. -/
def readTrack (kind : LeverKind) (terms : List TrackTerm) (g : Group) : Parsed TrackTerm := do
  refuseIf (decide (kind = .spare)) (.form (some g.pos))
  refuseIf (decide (4 ≤ terms.length)) (.range (some g.pos))
  let t ← index 20 (g.pos + 1) (← g.arg 1)
  refuseIf (terms.any fun u => decide (u.circuit = t)) (.conflict (g.pos + 1))
  let a ← qualifier kind (g.pos + 2) (← g.arg 2)
  g.noMore 2
  return ⟨t, a⟩

/-- A word of a table, at a position of a group. -/
def Group.tableArg {α : Type} (g : Group) (k : Nat) (table : List (Text × α)) : Parsed α := do
  match lookup table (← g.arg k) with
  | some y => return y
  | none => .error (.form (some (g.pos + k)))

/-- A proving term of a record that has `terms` already. -/
def readProving (kind : LeverKind) (terms : List ProvingTerm) (g : Group) : Parsed ProvingTerm := do
  refuseIf (decide (kind = .spare)) (.form (some g.pos))
  refuseIf (decide (2 ≤ terms.length)) (.range (some g.pos))
  let i ← index 16 (g.pos + 1) (← g.arg 1)
  refuseIf (terms.any fun u => decide (u.input = i)) (.conflict (g.pos + 1))
  let active ← g.tableArg 2 activeTable
  let a ← qualifier kind (g.pos + 3) (← g.arg 3)
  g.noMore 3
  return ⟨i, active, a⟩

/-- A field that only a SIGNAL carries and that is given once (R5, R148). -/
def signalOnce (kind : LeverKind) (given : Bool) (g : Group) : Parsed Unit := do
  refuseIf (decide (kind ≠ .signal)) (.form (some g.pos))
  refuseIf given (.conflict g.pos)

/-- A section field. -/
def readSection (kind : LeverKind) (given : Bool) (g : Group) : Parsed Sec := do
  signalOnce kind given g
  let x ← sectionWord (g.pos + 1) (← g.arg 1)
  g.noMore 1
  return x

/-- The approach track circuits: 1 to 3 of them. -/
def readApproach (kind : LeverKind) (given : Bool) (g : Group) : Parsed (List Circuit) := do
  signalOnce kind given g
  refuseIf g.args.isEmpty (.form (some (g.pos + 1)))
  indexList 20 3 [] (g.pos + 1) g.args

/-- The time release, a number of seconds. One that is missing or no decimal number is ?FORM with no field, for R150 gives
none (log 36). -/
def readTime (kind : LeverKind) (given : Bool) (g : Group) : Parsed Nat := do
  signalOnce kind given g
  let n ← bareForm (do number (g.pos + 1) (← g.arg 1))
  g.noMore 1
  return n

/-- One field of a LEV request. -/
def LevRead.field (kind : LeverKind) (r : LevRead) (g : Group) : LevRead :=
  if g.key = W.TC then r.take 0 (readTrack kind r.tracks g) fun t => { r with tracks := r.tracks ++ [t] }
  else if g.key = W.G then r.take 1 (readProving kind r.provings g) fun t => { r with provings := r.provings ++ [t] }
  else if g.key = W.BLOCK then r.take 2 (readSection kind r.block.isSome g) fun x => { r with block := some x }
  else if g.key = W.APPROACH then r.take 3 (readApproach kind r.approach.isSome g) fun ts => { r with approach := some ts }
  else if g.key = W.ASEC then r.take 4 (readSection kind r.sec.isSome g) fun x => { r with sec := some x }
  else r.take 5 (readTime kind r.time.isSome g) fun n => { r with time := some n }

def LevRead.fields (kind : LeverKind) (r : LevRead) : List Group → LevRead
  | [] => r
  | g :: gs => (r.field kind g).fields kind gs

/-- An approach section or a time release without approach track circuits is ?FORM with the field. DESIGN CHOICE (log 23):
the missing circuits having no word, the field is the ASEC word, or without one the TIME word, the first of the two in the
order of the canonical text; it ranks where the circuits would stand. -/
def LevRead.needApproach (r : LevRead) (gs : List Group) : LevRead :=
  if gs.any fun g => decide (g.key = W.APPROACH) then r
  else
    match (gs.find? fun g => decide (g.key = W.ASEC)).or (gs.find? fun g => decide (g.key = W.TIME)) with
    | some g => r.fail 3 (.form (some g.pos))
    | none => r

/-- A number clamped to a range. -/
def clampNat (lo hi n : Nat) : Nat :=
  if n < lo then lo else if hi < n then hi else n

/-- The record read; its time release clamped to 10–600 s (R5). -/
def LevRead.record (kind : LeverKind) (r : LevRead) : LevRecord where
  kind := kind
  tracks := r.tracks
  provings := r.provings
  block := r.block
  approach := r.approach.map fun ts => ⟨ts, r.sec, clampNat 10 600 (r.time.getD Config.defaultTimeRelease)⟩

/-- The time release given was clamped. -/
def LevRead.clamped (r : LevRead) : Bool :=
  match r.time with
  | some n => decide (clampNat 10 600 n ≠ n)
  | none => false

/-- The fields of a LEV request after its kind. A word before the first field word is not a field word. DESIGN CHOICE
(log 23): where other fields offend too, such a word ranks right after the kind in the request but behind every known
field in the canonical order (rank 6), and one that follows a known field ranks with that field. -/
def readLev (kind : LeverKind) (ws : List Text) : LevRead :=
  let gs := groups (fun w => decide (w ∈ levKeys)) 4 (ws.drop 3)
  let r := (LevRead.empty.fields kind gs.1).needApproach gs.1
  if gs.2.isEmpty then r else r.fail 6 (.form (some 4))

/-- A record stored; its back-lock record is left IDLE (R4, R35). -/
def storeLev (n : Lever) (r : Option LevRecord) (s : State) : State :=
  s.setLever n { s.lever n with record := r, backlock := .idle }

def handleLev : Handler := fun ws s => do
  let n ← indexAt 48 ws 2
  let kind ← oneOf (lookup kindTable) ws 3
  let r := readLev kind ws
  match r.refusal with
  | some (_, e) => .error e
  | none =>
    let rec_ := r.record kind
    return (storeLev n (some rec_) s, levWords n rec_ ++ optional r.clamped W.CLAMPED)

def execLev (s : State) : Host.Outcome State Fault Refusal :=
  .next (commit s (requestStep .lev inConfigure handleLev s))

/-! ### LOCK (R21, R22) -/

/-- A lever and its position from a position of the request on. -/
def readTerm (ws : List Text) (pos : Nat) : Parsed LeverTerm := do
  let n ← index 48 pos (← wordAt ws pos)
  let p ← oneOf position? ws (pos + 1)
  return ⟨n, p⟩

/-- The condition terms after IF: at most two, of two levers. -/
def readConds (ws : List Text) : Parsed (List LeverTerm) := do
  if ws.length ≤ 5 then return []
  refuseIf (decide (wordAt? ws 6 ≠ some W.IF)) (.form (some 6))
  if ws.length ≤ 6 then return []
  let c ← readTerm ws 7
  if ws.length ≤ 8 then return [c]
  let n ← index 48 9 (← wordAt ws 9)
  refuseIf (decide (n = c.lever)) (.conflict 9)
  let p ← oneOf position? ws 10
  refuseIf (decide (10 < ws.length)) (.range (some 11))
  return sortTerms [c, ⟨n, p⟩]

/-- Where an equal element stands in a list, from 1. -/
def indexOf? {α : Type} [DecidableEq α] (y : α) : List α → Option Nat
  | [] => none
  | z :: zs => if z = y then some 1 else (indexOf? y zs).map (· + 1)

/-- An entry may be added: identical entries are refused with the index of the one held, then a full table (R22). -/
def mayAdd {α : Type} (held : Option Nat) (table : List α) (most : Nat) : Parsed Unit := do
  match held with
  | some i => .error (.conflict i)
  | none => refuseIf (decide (most ≤ table.length)) .full

/-- An entry appended; its index follows the keyword in the reply. -/
def handleLock : Handler := fun ws s => do
  let x ← readTerm ws 2
  let y ← readTerm ws 4
  let cs ← readConds ws
  let e : LockEntry := ⟨x, y, cs⟩
  mayAdd (indexOf? e s.locking) s.locking Config.maxLocks
  return ({ s with locking := s.locking ++ [e] }, W.LOCK :: digits (s.locking.length + 1) :: lockTail e)

def execLock (s : State) : Host.Outcome State Fault Refusal :=
  .next (commit s (requestStep .lock inConfigure handleLock s))

/-! ### TC (R45, R46) -/

/-- The default record of a track circuit. -/
def TcRecord.default : TcRecord where
  coarse := 1
  fine := 32
  window := 16
  ref := 500
  drop := 96
  pick := 160
  floor := 30
  low := 60
  joint := 40
  dropf := 1
  pickf := 10
  phase := 0
  inv := 0
  group := 0

/-- COARSE rounded down to a listed value (R46). -/
def clampCoarse (n : Nat) : Nat :=
  if n < 2 then 1 else if n < 4 then 2 else if n < 8 then 4 else 8

/-- A tunable value clamped to its range (R46); PICK's lower end is the DROP in force with it plus 16. The fields that
are not tunable stay as given. -/
def clampField (drop : Nat) (f : TcField) (n : Nat) : Nat :=
  match f with
  | .coarse => clampCoarse n
  | .fine => clampNat 32 63 n
  | .window => clampNat 8 64 n
  | .ref => clampNat 20 2500 n
  | .drop => clampNat 16 224 n
  | .pick => clampNat (drop + 16) 240 n
  | .floor => clampNat 5 500 n
  | .low => clampNat 10 1000 n
  | .joint => clampNat 10 500 n
  | .dropf => clampNat 1 4 n
  | .pickf => clampNat 2 100 n
  | .phase | .inv | .group => n

/-- A value of a TC request: PHASE and GROUP are structural, INV is 0 or 1 (R46). -/
def tcValue (f : TcField) (pos : Nat) (t : Text) : Parsed Nat :=
  match f with
  | .phase => numberIn 0 6 pos t
  | .group => numberIn 0 7 pos t
  | .inv => do
    let n ← number pos t
    refuseIf (decide (1 < n)) (.form (some pos))
    return n
  | _ => number pos t

/-- Every field of a record clamped, PICK after DROP. -/
def TcRecord.clamp (r : TcRecord) : TcRecord where
  coarse := clampField 0 .coarse r.coarse
  fine := clampField 0 .fine r.fine
  window := clampField 0 .window r.window
  ref := clampField 0 .ref r.ref
  drop := clampField 0 .drop r.drop
  pick := clampField (clampField 0 .drop r.drop) .pick r.pick
  floor := clampField 0 .floor r.floor
  low := clampField 0 .low r.low
  joint := clampField 0 .joint r.joint
  dropf := clampField 0 .dropf r.dropf
  pickf := clampField 0 .pickf r.pickf
  phase := r.phase
  inv := r.inv
  group := r.group

/-- A record stored at once and taking effect at the next frame start; tuning of the old record that waits is lost. -/
def loadTc (t : Circuit) (r : TcRecord) (s : State) : State :=
  s.setTrack
    { s.track with
      circuits := s.track.circuits.set t.val { s.circuit t with stored := some r }
      ops := (s.track.ops.filter fun o => !o.tunes t) ++ [.load t r] }

def handleTc : Handler := fun ws s => do
  let t ← indexAt 20 ws 2
  let vals ← namedValues true true (lookup tcFieldTable) tcValue [] 3 (ws.drop 2)
  let given := TcRecord.default.setAll vals
  let r := given.clamp
  return (loadTc t r s, tcWords t r ++ optional (decide (r ≠ given)) W.CLAMPED)

def execTc (s : State) : Host.Outcome State Fault Refusal :=
  .next (commit s (requestStep .tc inConfigure handleTc s))

/-! ### SEC (R95) -/

def secKeys : List Text := [W.ACCEPT, W.CLEARING, W.ARRIVAL, W.AUTOTOL]

/-- A list field of a SEC request. -/
def readList (k most : Nat) (given : Bool) (g : Group) : Parsed (List (Fin k)) := do
  refuseIf given (.conflict g.pos)
  indexList k most [] (g.pos + 1) g.args

/-- AUTOTOL, 0 or 1. -/
def readFlag (given : Bool) (g : Group) : Parsed Bool := do
  refuseIf given (.conflict g.pos)
  let n ← number (g.pos + 1) (← g.arg 1)
  refuseIf (decide (1 < n)) (.form (some (g.pos + 1)))
  g.noMore 1
  return decide (n = 1)

/-- The fields of a SEC request in the order given; `seen` holds the field words already taken. -/
def readSec (seen : List Text) (r : SecRecord) : List Group → Parsed SecRecord
  | [] => .ok r
  | g :: gs => do
    let given := decide (g.key ∈ seen)
    let r' ←
      if g.key = W.ACCEPT then (readList 48 6 given g).map fun ns => { r with accept := ns }
      else if g.key = W.CLEARING then (readList 20 4 given g).map fun ts => { r with clearing := ts }
      else if g.key = W.ARRIVAL then (readList 20 4 given g).map fun ts => { r with arrival := ts }
      else (readFlag given g).map fun b => { r with autotol := b }
    readSec (g.key :: seen) r' gs

/-- A section's record. -/
def storeSec (x : Sec) (r : Option SecRecord) (s : State) : State :=
  s.setSection x { s.section_ x with record := r }

def handleSec : Handler := fun ws s => do
  let x ← sectionAt ws 2
  let gs := groups (fun w => decide (w ∈ secKeys)) 3 (ws.drop 2)
  refuseIf (!gs.2.isEmpty) (.form (some 3))
  let r ← readSec [] ⟨[], [], [], false⟩ gs.1
  return (storeSec x (some r) s, secWords x r)

def execSec (s : State) : Host.Outcome State Fault Refusal :=
  .next (commit s (requestStep .sec inConfigure handleSec s))

/-! ### CODE (R85) -/

/-- The group sizes of a pattern text, when it is written as numbers separated by single hyphens. -/
def patternSizes : List Text → Option (List Nat)
  | [] => some []
  | t :: ts =>
    match decimal? t, patternSizes ts with
    | some n, some ns => some (n :: ns)
    | _, _ => none

/-- The pattern at a position: 1 to 5 groups, each 1–9. DESIGN CHOICE (log 23): a pattern word that is malformed and out of
bounds too is ?FORM. -/
def readPattern (ws : List Text) (pos : Nat) : Parsed (List Nat) := do
  let w ← wordAt ws pos
  match patternSizes (splitOn '-' w) with
  | none => .error (.form (some pos))
  | some ns =>
    if ns.length ≤ Config.maxGroups ∧ ns.all fun n => decide (1 ≤ n ∧ n ≤ Config.maxBeats) then return ns
    else .error (.range (some pos))

/-- Meanings that carry no number. -/
def bareMeanings : List (Text × Meaning) :=
  [(W.ATTENTION, .attention), (W.ENTERING, .entering), (W.OUT_OF_SECTION, .outOfSection), (W.CANCEL, .cancel),
    (W.OBSTRUCTION, .obstruction), (W.BOX_OUT, .boxOut), (W.BOX_IN, .boxIn), (W.TEST, .test)]

/-- The meaning from position 3 on, with the class of OFFER or the number of INFO. -/
def readMeaning (ws : List Text) : Parsed Meaning := do
  let w ← wordAt ws 3
  if w = W.OFFER then
    let n ← numberIn 1 15 4 (← wordAt ws 4)
    noMore ws 4
    return .offer n
  else if w = W.INFO then
    let n ← numberIn 1 99 4 (← wordAt ws 4)
    noMore ws 4
    return .info n
  else
    match lookup bareMeanings w with
    | none => .error (.form (some 3))
    | some m =>
      noMore ws 3
      return m

/-- The entry of the table that holds a pattern, from 1. -/
def heldPattern (p : List Nat) (table : List CodeEntry) : Option Nat :=
  indexOf? p (table.map (·.pattern))

/-- DESIGN CHOICE (log 23): a malformed meaning, class or number is reported before the pattern's ?CONFLICT. -/
def handleCode : Handler := fun ws s => do
  let p ← readPattern ws 2
  let m ← readMeaning ws
  let e : CodeEntry := ⟨p, m⟩
  mayAdd (heldPattern p s.codes) s.codes Config.maxCodes
  return ({ s with codes := s.codes ++ [e] }, W.CODE :: digits (s.codes.length + 1) :: codeTail e)

def execCode (s : State) : Host.Outcome State Fault Refusal :=
  .next (commit s (requestStep .code inConfigure handleCode s))

/-! ### LAMP (R137) -/

def qualTable : List (Text × LeverQual) :=
  [(W.N, .n), (W.R, .r), (W.FREE, .free), (W.REFUSED, .refused)]

def occTable : List (Text × Bool) := [(W.OCC, false), (W.CLR, true)]

def indTable : List (Text × Bool) := [(W.LC, true), (W.TOL, false)]

/-- The states of a SECTION qualifier from a position on, as long as the words are section states, with the position
after them. -/
def readStates : List SecState → Nat → List Text → Parsed (List SecState × Nat)
  | seen, pos, [] => .ok (seen, pos)
  | seen, pos, w :: ws =>
    match lookup secStateTable w with
    | none => .ok (seen, pos)
    | some st => if st ∈ seen then .error (.conflict pos) else readStates (seen ++ [st]) (pos + 1) ws

/-- A required index of a source: one missing is ?FORM, one outside its range ?RANGE (R137). -/
def sourceIndex (k : Nat) (ws : List Text) : Parsed (Fin k) := do
  index k 5 (← wordAt ws 5)

/-- A required section of a source. DESIGN CHOICE (log 23): any other word in its place, one of a mode or a state too, is an
index outside its range. -/
def sourceSection (ws : List Text) : Parsed Sec := do
  sectionWord 5 (← wordAt ws 5)

/-- The source with its index and qualifier from position 4 on, and the position after them (R137, R138). -/
def readSource (ws : List Text) : Parsed (Source × Nat) := do
  let w ← wordAt ws 4
  if w = W.OFF then return (.off, 5)
  else if w = W.ON then return (.on, 5)
  else if w = W.HOST then return (.host, 5)
  else if w = W.ALARM then return (.alarm, 5)
  else if w = W.TRACK then
    let t ← sourceIndex 20 ws
    let q ← oneOf (lookup occTable) ws 6
    return (.track t q, 7)
  else if w = W.LEVER then
    let n ← sourceIndex 48 ws
    let q ← oneOf (lookup qualTable) ws 6
    return (.lever n q, 7)
  else if w = W.SECTION then
    let x ← sourceSection ws
    let r ← readStates [] 6 (ws.drop 5)
    refuseIf r.1.isEmpty (.form (some 6))
    return (.sec x (sortStates r.1), r.2)
  else if w = W.INDICATOR then
    let x ← sourceSection ws
    let q ← oneOf (lookup indTable) ws 6
    return (.indicator x q, 7)
  else if w = W.BELL then
    let x ← sourceSection ws
    return (.bell x, 6)
  else if w = W.BOX then
    refuseIf (decide (wordAt? ws 5 ≠ some W.OUT)) (.form (some 5))
    return (.box, 6)
  else if w = W.DISAGREE then
    if wordAt? ws 5 = some W.BOX then return (.disagree none, 6)
    let x ← sourceSection ws
    return (.disagree (some x), 6)
  else .error (.form (some 4))

def modeTable : List (Text × Bool) := [(W.STEADY, false), (W.FLASH, true)]

/-- The mode at a position, if the word there is one, and the position after it. DESIGN CHOICE (log 23): with no mode the
word is left to be the invert, also after a source without an index (LAMP 0 0 OFF 1). -/
def readMode (ws : List Text) (pos : Nat) : Bool × Nat :=
  match (wordAt? ws pos).bind (lookup modeTable) with
  | some b => (b, pos + 1)
  | none => (false, pos)

/-- The invert at a position, if a word stands there: 0 or 1. -/
def readInvert (ws : List Text) (pos : Nat) : Parsed Bool := do
  match wordAt? ws pos with
  | none => return false
  | some w =>
    let n ← number pos w
    refuseIf (decide (1 < n)) (.form (some pos))
    noMore ws pos
    return decide (n = 1)

/-- The binding from position 4 on. -/
def readBinding (ws : List Text) : Parsed Binding := do
  let src ← readSource ws
  if src.1.takesMode then
    let m := readMode ws src.2
    let inv ← readInvert ws m.2
    return ⟨src.1, m.1, inv⟩
  else
    noMore ws (src.2 - 1)
    return ⟨src.1, false, false⟩

/-- The row and column at positions `pos` and `pos + 1`. -/
def readCell (ws : List Text) (pos : Nat) : Parsed Cell := do
  let r ← numberIn 0 15 pos (← wordAt ws pos)
  let c ← numberIn 0 31 (pos + 1) (← wordAt ws (pos + 1))
  match cellAt? r c with
  | some d => return d
  | none => .error (.range (some pos))

/-- A binding stored, to take effect at the next frame start. -/
def storeLamp (c : Cell) (b : Binding) (s : State) : State :=
  s.setDiagram { s.diagram with stored := mapSet s.diagram.stored c b, ops := s.diagram.ops ++ [.load c b] }

def handleLamp : Handler := fun ws s => do
  let c ← readCell ws 2
  let b ← readBinding ws
  return (storeLamp c b s, bindingWords c b)

def execLamp (s : State) : Host.Outcome State Fault Refusal :=
  .next (commit s (requestStep .lamp inConfigure handleLamp s))

/-! ### TIMES (R16, R48, R80, R98, R113, R119, R133) -/

/-- The names of the TIMES values. -/
inductive TimesName
  | travel | frame | reverse | proof | track | beatmin | beatmax | join | endWait | localmode | stroke | indstable
  | emrel | codewin | div | flashms | idle | darkout | rowrev | colrev
deriving DecidableEq, Repr

def timesTable : List (Text × TimesName) :=
  [(W.TRAVEL, .travel), (W.FRAME, .frame), (W.REVERSE, .reverse), (W.PROOF, .proof), (W.TRACK, .track),
    (W.BEATMIN, .beatmin), (W.BEATMAX, .beatmax), (W.JOIN, .join), (W.END, .endWait), (W.LOCALMODE, .localmode),
    (W.STROKE, .stroke), (W.INDSTABLE, .indstable), (W.EMREL, .emrel), (W.CODEWIN, .codewin), (W.DIV, .div),
    (W.FLASHMS, .flashms), (W.IDLE, .idle), (W.DARKOUT, .darkout), (W.ROWREV, .rowrev), (W.COLREV, .colrev)]

/-- A value of a TIMES load: LOCALMODE is FOLLOW or STROKE (read as 1 or 0), the three flags are 0 or 1, every other
a decimal number. The rules give the ?FORM of a value no field (R80, R133, R150). -/
def timesValue (f : TimesName) (pos : Nat) (t : Text) : Parsed Nat :=
  match f with
  | .localmode => if t = W.FOLLOW then .ok 1 else if t = W.STROKE then .ok 0 else .error (.form none)
  | .darkout | .rowrev | .colrev => do
    let n ← bareForm (number pos t)
    refuseIf (decide (1 < n)) (.form none)
    return n
  | _ => bareForm (number pos t)

/-- PROOF is 0 or 5–200: 1 to 4 are clamped to 5 (R48). -/
def clampProof (n : Nat) : Nat :=
  if n = 0 then 0 else clampNat 5 200 n

/-- A value of the record replaced, clamped to its range. IDLE is 0 or 1–120. -/
def Times.set (t : Times) (f : TimesName) (n : Nat) : Times :=
  match f with
  | .travel => { t with travel := clampNat 5 60 n }
  | .frame => { t with frame := clampNat 20 250 n }
  | .reverse => { t with reverse := clampNat 4 64 n }
  | .proof => { t with proof := clampProof n }
  | .track => { t with track := clampNat 4 8 n }
  | .beatmin => { t with beatmin := clampNat 10 100 n }
  | .beatmax => { t with beatmax := clampNat 150 1000 n }
  | .join => { t with join := clampNat 200 1000 n }
  | .endWait => { t with endWait := clampNat 1000 5000 n }
  | .localmode => { t with localmode := if n = 1 then .follow else .stroke }
  | .stroke => { t with stroke := clampNat 20 200 n }
  | .indstable => { t with indstable := clampNat 100 1000 n }
  | .emrel => { t with emrel := clampNat 30 600 n }
  | .codewin => { t with codewin := clampNat 30 600 n }
  | .div => { t with div := clampNat 1 16 n }
  | .flashms => { t with flashms := clampNat 250 1000 n }
  | .idle => { t with idle := clampNat 0 120 n }
  | .darkout => { t with darkout := n }
  | .rowrev => { t with rowrev := n }
  | .colrev => { t with colrev := n }

/-- A value of the record by name, LOCALMODE as 1 or 0. -/
def Times.get (t : Times) : TimesName → Nat
  | .travel => t.travel
  | .frame => t.frame
  | .reverse => t.reverse
  | .proof => t.proof
  | .track => t.track
  | .beatmin => t.beatmin
  | .beatmax => t.beatmax
  | .join => t.join
  | .endWait => t.endWait
  | .localmode => if t.localmode = .follow then 1 else 0
  | .stroke => t.stroke
  | .indstable => t.indstable
  | .emrel => t.emrel
  | .codewin => t.codewin
  | .div => t.div
  | .flashms => t.flashms
  | .idle => t.idle
  | .darkout => t.darkout
  | .rowrev => t.rowrev
  | .colrev => t.colrev

def Times.setAll (t : Times) : List (TimesName × Nat) → Times
  | [] => t
  | (f, n) :: vs => (t.set f n).setAll vs

/-- An END less than JOIN + 200 is raised to it (R80). -/
def Times.raiseEnd (t : Times) : Times :=
  if t.endWait < t.join + 200 then { t with endWait := t.join + 200 } else t

/-- A value given is not the one stored, or END was raised. -/
def timesClamped (t : Times) (vals : List (TimesName × Nat)) : Bool :=
  vals.any (fun e => decide (t.get e.1 ≠ e.2)) || decide ((Times.reset.setAll vals).endWait ≠ t.endWait)

/-- The record of a TIMES load: a value not given takes its default. -/
def timesOf (vals : List (TimesName × Nat)) : Times :=
  (Times.reset.setAll vals).raiseEnd

def storeTimes (t : Times) (s : State) : State :=
  { s with times := t, timesLoaded := true }

def handleTimes : Handler := fun ws s => do
  let vals ← namedValues true true (lookup timesTable) timesValue [] 2 (ws.drop 1)
  let t := timesOf vals
  return (storeTimes t s, timesWords t ++ optional (timesClamped t vals) W.CLAMPED)

def execTimes (s : State) : Host.Outcome State Fault Refusal :=
  .next (commit s (requestStep .times inConfigure handleTimes s))

/-! ### BOXOUT (R117) -/

/-- The switch-out terms from a position on: at most 8, of distinct levers. DESIGN CHOICE (log 23): of several faults the
first offending word in the order of the request is reported, and of one lever word a malformed number before a ninth
term, and that before a repeated lever. -/
def readTerms : List LeverTerm → Nat → List Text → Parsed (List LeverTerm)
  | seen, _, [] => .ok seen
  | seen, pos, [w] => do
    let n ← index 48 pos w
    refuseIf (decide (8 ≤ seen.length)) (.range (some pos))
    refuseIf (seen.any fun t => decide (t.lever = n)) (.conflict pos)
    .error (.form (some (pos + 1)))
  | seen, pos, w :: v :: ws => do
    let n ← index 48 pos w
    refuseIf (decide (8 ≤ seen.length)) (.range (some pos))
    refuseIf (seen.any fun t => decide (t.lever = n)) (.conflict pos)
    match position? v with
    | none => .error (.form (some (pos + 1)))
    | some p => readTerms (seen ++ [⟨n, p⟩]) (pos + 2) ws

/-- The switch-out list replaced whole. -/
def storeBoxout (ts : Option (List LeverTerm)) (s : State) : State :=
  s.setService { s.service with boxout := ts }

def handleBoxout : Handler := fun ws s => do
  let ts ← readTerms [] 2 (ws.drop 1)
  return (storeBoxout (some (sortTerms ts)) s, boxoutWords ts)

def execBoxout (s : State) : Host.Outcome State Fault Refusal :=
  .next (commit s (requestStep .boxout inConfigure handleBoxout s))

/-! ### ERASE (R4, R21, R47, R85, R95, R117, R137) -/

/-- An ERASE of a kind: no word follows the kind's. -/
def handleErase (w : Text) (f : State → State) : Handler := fun ws s => do
  only ws 2
  return (f s, [W.ERASE, w])

/-- Every lever record removed, and every back-lock record left IDLE (R4, R35). -/
def eraseLevers (s : State) : State :=
  { s with levers := Vector.ofFn fun n => { s.levers[n] with record := none, backlock := .idle } }

def execEraseLev (s : State) : Host.Outcome State Fault Refusal :=
  .next (commit s (requestStep .eraseLev inConfigure (handleErase W.LEV eraseLevers) s))

def eraseLocking (s : State) : State :=
  { s with locking := [] }

def execEraseLock (s : State) : Host.Outcome State Fault Refusal :=
  .next (commit s (requestStep .eraseLock inConfigure (handleErase W.LOCK eraseLocking) s))

/-- A waiting request that is no tuning. -/
def TrackOp.isTune : TrackOp → Bool
  | .tune _ _ => true
  | _ => false

/-- Every stored circuit record removed with the tuning that waits; the circuits are disabled at the next frame
start (R47). -/
def eraseCircuits (s : State) : State :=
  s.setTrack
    { s.track with
      circuits := Vector.ofFn fun t => { s.track.circuits[t] with stored := none }
      ops := (s.track.ops.filter fun o => !o.isTune) ++ [.erase] }

def execEraseTc (s : State) : Host.Outcome State Fault Refusal :=
  .next (commit s (requestStep .eraseTc inConfigure (handleErase W.TC eraseCircuits) s))

def eraseSections (s : State) : State :=
  storeSec .c none (storeSec .b none (storeSec .a none s))

def execEraseSec (s : State) : Host.Outcome State Fault Refusal :=
  .next (commit s (requestStep .eraseSec inConfigure (handleErase W.SEC eraseSections) s))

def eraseCodes (s : State) : State :=
  { s with codes := [] }

def execEraseCode (s : State) : Host.Outcome State Fault Refusal :=
  .next (commit s (requestStep .eraseCode inConfigure (handleErase W.CODE eraseCodes) s))

/-- Every stored binding removed; those in effect and every host value go at the next frame start (R137). -/
def eraseLamps (s : State) : State :=
  s.setDiagram { s.diagram with stored := [], ops := s.diagram.ops ++ [.erase] }

def execEraseLamp (s : State) : Host.Outcome State Fault Refusal :=
  .next (commit s (requestStep .eraseLamp inConfigure (handleErase W.LAMP eraseLamps) s))

def eraseBoxout (s : State) : State :=
  storeBoxout none s

def execEraseBoxout (s : State) : Host.Outcome State Fault Refusal :=
  .next (commit s (requestStep .eraseBoxout inConfigure (handleErase W.BOXOUT eraseBoxout) s))

end Sys2Proof.Machine
end

