-- ==== Sys2Proof/Machine/Register.lean ====
section
/-! DEFINITION. The Register unit: appending to the ring and counting the clock (R127 to R132). -/

namespace Sys2Proof.Machine

/-! ### Appending (R127, R132) -/

/-- The ring with an entry added, and the entry displaced if it was full. -/
def appendRing (ring : List RegEntry) (e : RegEntry) : List RegEntry × Option RegEntry :=
  if ring.length < Config.maxRegister then (ring ++ [e], none) else (ring.drop 1 ++ [e], ring.head?)

/-- The send mark after an append (R156, SEND_MARK_DISPLACED): a mark whose entry was displaced moves to the number
after it. -/
def markAfter (mark : Option Seq) (displaced : Option RegEntry) : Option Seq :=
  match mark, displaced with
  | some m, some e => if e.seq = m then some (m + 1) else some m
  | m, _ => m

/-- Append an entry: the next sequence number and the clock's time (R127). -/
def append (body : RegBody) (s : State) : State :=
  let e : RegEntry := ⟨s.register.next, s.register.clock, body⟩
  let r := appendRing s.register.ring e
  { s with
    register := { s.register with ring := r.1, next := s.register.next + 1 }
    link := { s.link with mark := markAfter s.link.mark r.2 } }

/-- REGISTER_APPEND: the Register unit takes the entry the unit handed first. -/
def registerAppend (u : RegUnit) (s : State) : State :=
  match takeFirst (fun e => decide (e.1 = u)) s.inbox.entries with
  | none => s
  | some ((_, body), rest) => append body (s.setInbox { s.inbox with entries := rest })

def execRegisterAppend (u : RegUnit) (s : State) : Host.Outcome State Fault Refusal :=
  .next (commit s (registerAppend u s))

/-! ### The clock (R129) -/

/-- The clock one tenth of a second on. -/
def ClockTime.tick (c : ClockTime) : ClockTime :=
  if c.tenths + 1 < Config.tenthsPerDay then { c with tenths := c.tenths + 1 }
  else { c with tenths := 0, day := (c.day + 1) % 65536 }

/-- CLOCK_TICK, in every service state after POWER_UP. -/
def clockTick (s : State) : State :=
  if s.isIn .powerUp then s else s.setRegister { s.register with clock := s.register.clock.tick }

def execClockTick (s : State) : Host.Outcome State Fault Refusal :=
  .next (commit s (clockTick s))

/-! ### Reading (R131) -/

/-- The entry held under a sequence number. -/
def Register.entry? (r : Register) (q : Seq) : Option RegEntry :=
  r.ring.find? fun e => decide (e.seq = q)

/-- The oldest and the newest sequence number held. -/
def Register.oldest (r : Register) : Option Seq :=
  r.ring.head?.map (·.seq)

def Register.newest (r : Register) : Option Seq :=
  r.ring.getLast?.map (·.seq)

end Sys2Proof.Machine
end

