-- ==== Sys2Proof/Machine/Tune.lean ====
section
/-! DEFINITION. The requests accepted in every service state after POWER_UP that change something: TUNE, CLEAR, CLOCK,
BRIGHT, DIM and PAINT (R18, R57, R58, R60, R72, R130, R135, R141). -/

namespace Sys2Proof.Machine

/-! ### TUNE (R57, R58, R60) -/

/-- The fields TUNE TC may name, and those TUNE GROUP may. -/
def tuneField? (t : Text) : Option TcField :=
  match lookup tcFieldTable t with
  | some .phase | some .inv | some .group => none
  | o => o

def groupField? (t : Text) : Option TcField :=
  match lookup tcFieldTable t with
  | some .coarse => some .coarse
  | some .fine => some .fine
  | some .drop => some .drop
  | some .pick => some .pick
  | some .floor => some .floor
  | _ => none

/-- The tuning of a circuit that waits, in order of acceptance. -/
def pendingTunes (t : Circuit) : List TrackOp → List (TcField × Nat)
  | [] => []
  | .tune u vals :: os => (if u = t then vals else []) ++ pendingTunes t os
  | _ :: os => pendingTunes t os

/-- The stored record with the tuning that waits applied. -/
def State.tuned (s : State) (t : Circuit) : Option TcRecord :=
  (s.circuit t).stored.map fun r => r.setAll (pendingTunes t s.track.ops)

/-- The value given for a field. -/
def valueOf (f : TcField) : List (TcField × Nat) → Option Nat
  | [] => none
  | (g, n) :: vs => if g = f then some n else valueOf f vs

/-- The DROP in force once the tuning is applied. -/
def dropAfter (r : TcRecord) (vals : List (TcField × Nat)) : Nat :=
  match valueOf .drop vals with
  | some n => clampField 0 .drop n
  | none => r.drop

/-- The values of a TUNE after clamping. One that raises DROP above PICK less 16 raises PICK with it (R57). -/
def tuneValues (r : TcRecord) (vals : List (TcField × Nat)) : List (TcField × Nat) :=
  let d := dropAfter r vals
  (vals.map fun e => (e.1, clampField d e.1 e.2)) ++
    (if (valueOf .drop vals).isSome ∧ (valueOf .pick vals).isNone ∧ r.pick < d + 16 then [(.pick, d + 16)] else [])

/-- A TUNE of one circuit accepted: its values wait for the next frame start, and the circuit is STALE. -/
def tuneCircuit (t : Circuit) (r : TcRecord) (vals : List (TcField × Nat)) (s : State) : State :=
  s.setTrack
    { s.track with
      circuits := s.track.circuits.set t.val { s.circuit t with stale := true, retuned := true }
      ops := s.track.ops ++ [.tune t (tuneValues r vals)] }

/-- Fields and values of a TUNE from position 4 on: at least one, each once. `unknown` says whether the ?FORM of a field
that may not be tuned has a field: R57 gives it one, R58 none. DESIGN CHOICE (log 36): a TUNE with no field name is ?FORM
with no field. -/
def readTune (unknown : Bool) (name? : Text → Option TcField) (ws : List Text) : Parsed (List (TcField × Nat)) := do
  let _ ← bareForm (wordAt ws 4)
  namedValues unknown false name? (fun _ pos t => bareForm (number pos t)) [] 4 (ws.drop 3)

/-- Names and values as words. -/
def valueWords : List (TcField × Nat) → List Text
  | [] => []
  | (f, n) :: vs => wordFor tcFieldTable f :: digits n :: valueWords vs

/-- A TUNE of a circuit with a record; a circuit without one is ?RANGE with the field. -/
def handleTuneTc : Handler := fun ws s => do
  let t ← bareForm (indexAt 20 ws 3)
  match s.tuned t with
  | none => .error (.range (some 3))
  | some r =>
    let vals ← readTune true tuneField? ws
    let out := tuneValues r vals
    return (tuneCircuit t r vals s, [W.TUNE, W.TC, ordinal t] ++ valueWords out ++ optional (decide (out ≠ vals)) W.CLAMPED)

def execTuneTc (s : State) : Host.Outcome State Fault Refusal :=
  .next (commit s (requestStep .tuneTc afterPowerUp handleTuneTc s))

/-- The members of a group: the circuits whose record holds it (R58). -/
def State.members (s : State) (g : Nat) : List Circuit :=
  allCircuits.filter fun t =>
    match (s.circuit t).stored with
    | some r => decide (r.group = g)
    | none => false

/-- A TUNE of each member in turn. -/
def tuneMembers (vals : List (TcField × Nat)) : List Circuit → State → State
  | [], s => s
  | t :: ts, s =>
    match s.tuned t with
    | some r => tuneMembers vals ts (tuneCircuit t r vals s)
    | none => tuneMembers vals ts s

/-- A member's values after clamping. -/
def memberValues (s : State) (vals : List (TcField × Nat)) (t : Circuit) : List (TcField × Nat) :=
  match s.tuned t with
  | some r => tuneValues r vals
  | none => vals

/-- The values as applied to the lowest-numbered member. -/
def lowestValues (s : State) (vals : List (TcField × Nat)) : List Circuit → List (TcField × Nat)
  | [] => []
  | t :: _ => memberValues s vals t

/-- A group number 1–7 at position 3; any other is ?RANGE with the field. -/
def groupAt (ws : List Text) : Parsed Nat :=
  match wordAt? ws 3 with
  | some w => bareForm (numberIn 1 7 3 w)
  | none => .error (.range (some 3))

/-- TUNE GROUP (R58). DESIGN CHOICE (log 26): the reply gives the number of members after the word MEMBERS, before the
values, and CLAMPED last. DESIGN CHOICE (log 23): a field named twice is ?CONFLICT with the field before the members are
looked at, so for a group with no members too. -/
def handleTuneGroup : Handler := fun ws s => do
  let g ← groupAt ws
  let vals ← readTune false groupField? ws
  let ms := s.members g
  return (tuneMembers vals ms s,
    [W.TUNE, W.GROUP, digits g, W.MEMBERS, digits ms.length] ++ valueWords (lowestValues s vals ms) ++
      optional (ms.any fun t => decide (memberValues s vals t ≠ vals)) W.CLAMPED)

def execTuneGroup (s : State) : Host.Outcome State Fault Refusal :=
  .next (commit s (requestStep .tuneGroup afterPowerUp handleTuneGroup s))

/-! ### CLEAR (R18, R72) -/

/-- A CLEAR TC of a circuit with a record waits for the next frame start. -/
def clearCircuit (t : Circuit) (s : State) : State :=
  s.setTrack { s.track with ops := s.track.ops ++ [.clear t] }

def handleClearTc : Handler := fun ws s => do
  let t ← bareForm (indexAt 20 ws 3)
  refuseIf (s.circuit t).stored.isNone (.range none)
  only ws 3
  return (clearCircuit t s, [W.CLEAR, W.TC, ordinal t])

def execClearTc (s : State) : Host.Outcome State Fault Refusal :=
  .next (commit s (requestStep .clearTc afterPowerUp handleClearTc s))

def clearForced (n : Lever) (s : State) : State :=
  s.setLever n { s.lever n with forced := false }

def handleClearLev : Handler := fun ws s => do
  let n ← bareForm (indexAt 48 ws 3)
  only ws 3
  return (clearForced n s, [W.CLEAR, W.LEV, ordinal n])

def execClearLev (s : State) : Host.Outcome State Fault Refusal :=
  .next (commit s (requestStep .clearLev afterPowerUp handleClearLev s))

/-! ### CLOCK (R130) -/

/-- Two decimal digits. -/
def twoDigit? (t : Text) : Option Nat :=
  if t.length = 2 then decimal? t else none

/-- A time written hh:mm:ss, in tenths of a second: ?FORM when not so written, ?RANGE when a part is out of range. -/
def readTimeOfDay (pos : Nat) (t : Text) : Parsed Nat :=
  match (splitOn ':' t).map twoDigit? with
  | [some h, some m, some sec] =>
    if h ≤ 23 ∧ m ≤ 59 ∧ sec ≤ 59 then .ok (h * 36000 + m * 600 + sec * 10) else .error (.range (some pos))
  | _ => .error (.form (some pos))

/-- The clock set, and the CLOCK entry appended at the new time. -/
def setClock (new : ClockTime) (s : State) : State :=
  append (.clock s.register.clock new) (s.setRegister { s.register with clock := new })

/-- DESIGN CHOICE (log 36): the time is checked before the day, and a further word last. -/
def handleClock : Handler := fun ws s => do
  let t ← readTimeOfDay 2 (← wordAt ws 2)
  let d ← numberIn 0 65535 3 (← wordAt ws 3)
  only ws 3
  return (setClock ⟨d, t, false⟩ s, [W.CLOCK, timeWord ⟨d, t, false⟩])

def execClock (s : State) : Host.Outcome State Fault Refusal :=
  .next (commit s (requestStep .clock afterPowerUp handleClock s))

/-! ### BRIGHT and DIM (R135) -/

/-- A brightness. R135 gives its ?FORM no field. -/
def readLight (ws : List Text) : Parsed Nat := do
  let n ← bareForm (do number 2 (← wordAt ws 2))
  only ws 2
  return n

def lightWords (w : Text) (n : Nat) : List Text :=
  [w, digits (min n 255)] ++ optional (decide (255 < n)) W.CLAMPED

def handleBright : Handler := fun ws s => do
  let n ← readLight ws
  return (s.setDiagram { s.diagram with bright := min n 255 }, lightWords W.BRIGHT n)

def execBright (s : State) : Host.Outcome State Fault Refusal :=
  .next (commit s (requestStep .bright afterPowerUp handleBright s))

def handleDim : Handler := fun ws s => do
  let n ← readLight ws
  return (s.setDiagram { s.diagram with dim := min n 255 }, lightWords W.DIM n)

def execDim (s : State) : Host.Outcome State Fault Refusal :=
  .next (commit s (requestStep .dim afterPowerUp handleDim s))

/-! ### PAINT (R141) -/

/-- The values of a PAINT from a position on: 1 to 32 of them. DESIGN CHOICE (log 36): of a value past the 32nd and a
malformed value the first in the order of the request is reported, and a value past the 32nd is not looked at. -/
def readPaint : List Lamp → Nat → List Text → Parsed (List Lamp)
  | seen, _, [] => .ok seen
  | seen, pos, w :: ws =>
    if 32 ≤ seen.length then .error (.range (some pos))
    else
      match lookup lampTable w with
      | none => .error (.form (some pos))
      | some v => readPaint (seen ++ [v]) (pos + 1) ws

/-- The binding in effect on the cell is HOST. -/
def Diagram.isHost (d : Diagram) (c : Cell) : Bool :=
  match mapGet d.bound c with
  | some b => decide (b.source = .host)
  | none => false

/-- The values laid on consecutive cells from cell number `n` on, stopping after the last cell, with the number
applied. -/
def paintFrom (d : Diagram) : Nat → Nat → List Lamp → Diagram × Nat
  | _, k, [] => (d, k)
  | n, k, v :: vs =>
    if h : n < 512 then
      if d.isHost ⟨n, h⟩ then paintFrom { d with host := mapSet d.host ⟨n, h⟩ v } (n + 1) (k + 1) vs
      else paintFrom d (n + 1) k vs
    else (d, k)

/-- DESIGN CHOICE (log 36): a missing or malformed row or column is ?FORM with no field. -/
def handlePaint : Handler := fun ws s => do
  let c ← bareForm (readCell ws 2)
  refuseIf (wordAt? ws 4).isNone (.range (some 4))
  let vs ← readPaint [] 4 (ws.drop 3)
  let r := paintFrom s.diagram c.val 0 vs
  return (s.setDiagram r.1, [W.PAINT, digits r.2])

def execPaint (s : State) : Host.Outcome State Fault Refusal :=
  .next (commit s (requestStep .paint afterPowerUp handlePaint s))

end Sys2Proof.Machine
end

