-- ==== Sys2Proof/Machine/Show.lean ====
section
/-! DEFINITION. The SHOW, RAW and REG requests and the words of reports (R19, R59, R78, R94, R114, R126, R128, R131,
R140, R151, R152). DESIGN CHOICE (log 25): in a line form of R152, a word in capitals is sent as that word, followed by
the value it names. -/

namespace Sys2Proof.Machine

/-- The whole seconds left until a moment, rounded up. -/
def secondsLeft (now until_ : Nat) : Nat :=
  (until_ - now + 999) / 1000

/-- A word and a number, present when there is one. -/
def optionalNumber (w : Text) : Option Nat → List Text
  | none => []
  | some n => [w, digits n]

/-! ### Levers (R19, R35) -/

def leverPosWord : LeverPos → Text
  | .nLocked => W.N_LOCKED
  | .nFree => W.N_FREE
  | .travel => W.TRAVEL
  | .rLocked => W.R_LOCKED
  | .rFree => W.R_FREE
  | .backlocked => W.BACKLOCKED
  | .fault => W.FAULT

/-- The seconds left of a travel limit in granted travel. -/
def LeverData.travelLeft (l : LeverData) (now : Nat) : Option Nat :=
  if l.granted then l.limit.map (secondsLeft now) else none

/-- The seconds left of the time release of a BACKLOCKED lever, 0 in DUE. -/
def LeverData.backlockLeft (l : LeverData) (now : Nat) : Option Nat :=
  if l.pos = .backlocked then
    match l.backlock with
    | .timing t => some (secondsLeft now t)
    | .due => some 0
    | .idle => none
  else none

def State.leverWords (s : State) (n : Lever) : List Text :=
  let l := s.lever n
  if l.loaded then
    [leverPosWord l.pos, W.LOCK, onOff l.lock] ++ optional l.refused W.REFUSED ++ optional l.forced W.FORCED ++
      optional l.stalled W.STALLED ++ optionalNumber W.TRAVEL (l.travelLeft s.now) ++
      optionalNumber W.BACKLOCK (l.backlockLeft s.now)
  else [leverPosWord l.pos, W.UNLOADED]

/-! ### Track circuits (R78, R59) -/

def failWord : FailCause → Text
  | .joint => W.JOINT
  | .proof => W.PROOF
  | .lowRef => W.LOW_REF

def trackStateWords : TrackState → List Text
  | .disabled => [W.DISABLED]
  | .occupied => [W.OCCUPIED]
  | .clear => [W.CLEAR]
  | .failed c => [W.FAILED, failWord c]

def polarityWord : Polarity → Text
  | .positive => W.POSITIVE
  | .negative => W.NEGATIVE

/-- The figures after the state. For a record that has not yet taken effect no figures are stated: a free value. -/
def State.circuitFigures (s : State) (t : Circuit) : List Text :=
  let k := s.circuit t
  match k.live, k.applied with
  | some r, some p =>
    [W.Q, digits k.q, W.R, digits k.clearLevel, W.D, digits (dropThreshold k.clearLevel r), W.U,
      digits (pickThreshold k.clearLevel r), W.CNT, digits k.low, digits k.high, digits k.reverse, polarityWord p]
  | _, _ => Config.unstatedFigures t s.now

def State.circuitWords (s : State) (t : Circuit) : List Text :=
  let k := s.circuit t
  if k.stored.isSome then trackStateWords k.state ++ s.circuitFigures t ++ optional k.stale W.STALE
  else [W.DISABLED, W.UNLOADED]

/-- SHOW TC n SET: the record's values in force; before it has taken effect, as stored. DESIGN CHOICE (log 26): each value
follows its field's name (R78 gives the fields with the values, R152 the values). -/
def State.circuitSet (s : State) (t : Circuit) : List Text :=
  let k := s.circuit t
  match k.stored, k.live with
  | none, _ => [W.DISABLED, W.UNLOADED]
  | some _, some r => tcValueWords r
  | some r, none => tcValueWords r

/-- The last value waiting for each field. DESIGN CHOICE (log 26): the fields stand in the order of the record table, and of
several values waiting for one field only the last is shown. -/
def pendingWords (vals : List (TcField × Nat)) : List Text :=
  tcFieldTable.flatMap fun e => optionalNumber e.1 (valueOf e.2 vals.reverse)

/-- SHOW TC n PENDING. -/
def State.circuitPending (s : State) (t : Circuit) : List Text :=
  match (s.circuit t).stored with
  | none => [W.DISABLED, W.UNLOADED]
  | some _ => pendingWords (pendingTunes t s.track.ops)

def maskWord : MaskCause → Text
  | .reversal => W.REVERSAL
  | .proof => W.PROOF
  | .restore => W.RESTORE
  | .tune => W.TUNE

/-- The sign of a measurement: OFF in a proof frame. -/
def signWord : Option Polarity → Text
  | some p => polarityWord p
  | none => W.OFF

/-- MASKED with its causes. DESIGN CHOICE (log 26): in the order `setFeed` holds them. -/
def maskedWords : List MaskCause → List Text
  | [] => []
  | ms => W.MASKED :: ms.map maskWord

/-- The figures of RAW TC (R59). -/
def measurementWords (m : Measurement) : List Text :=
  [W.S, signedDigits m.sum, W.N, digits m.count, W.A, signedDigits m.average, W.L, signedDigits m.level, W.P,
    signedDigits m.signed, W.SIGN, signWord m.sign] ++ optional m.saturated W.SATURATED ++ maskedWords m.masks

def CircuitData.rawWords (k : CircuitData) : List Text :=
  (match k.published with
    | some m => measurementWords m
    | none => [W.NONE]) ++ optional k.stale W.STALE

/-! ### Sections (R94, R114) -/

def indWord : Ind → Text
  | .lb => W.LB
  | .lc => W.LC
  | .tol => W.TOL

def readingWord : Option Ind → Text
  | some i => indWord i
  | none => W.INVALID

def stageWord : Stage → Text
  | .offered => W.OFFERED
  | .accepted => W.ACCEPTED
  | .entered => W.ENTERED
  | .cleared => W.CLEARED

/-- The train record of a section's first part. -/
def trainBrief : Option Train → List Text
  | none => []
  | some t => [W.TRAIN, digits t.ident, stageWord t.stage, digits t.progress]

def State.sectionWords (s : State) (x : Sec) : List Text :=
  let k := s.section_ x
  [secStateWord k.state] ++ optional k.record.isNone W.UNLOADED ++
    [W.DRIVE, indWord k.drive, W.IN, readingWord k.reading, W.SW, indWord k.position] ++
    optional k.releaseUnused W.UNUSED ++ optional k.cancelHeard W.CANCEL ++ optional k.enteringHeard W.ENTERING ++
    optional k.disagree W.DISAGREE ++ optionalNumber W.EMREL (k.timer.map (secondsLeft s.now)) ++
    optional k.released W.RELEASED ++ [W.COUNT, digits k.releases] ++ trainBrief k.train

/-- A word and a time, present when there is one. -/
def optionalTime (w : Text) : Option ClockTime → List Text
  | none => []
  | some c => [w, timeWord c]

def directionWord (inward : Bool) : Text :=
  if inward then W.IN else W.OUT

/-- SHOW SEC s TRAIN. -/
def trainWords : Option Train → List Text
  | none => [W.TRAIN, W.NONE]
  | some t =>
    [W.TRAIN, digits t.ident, directionWord t.inward, digits t.cls, stageWord t.stage, W.P, digits t.progress, W.OFF,
      timeWord t.offered] ++ optionalTime W.ACC t.accepted ++ optionalTime W.ENT t.entered

def senseWord : Sense → Text
  | .idle => W.IDLE
  | .incoming => W.IN
  | .outgoing => W.OUT
  | .clash => W.CLASH

def ownerWord : Owner → Text
  | .free => W.FREE
  | .incoming => W.IN
  | .outgoing => W.OUT

def dirWord : Dir → Text
  | .incoming => W.IN
  | .outgoing => W.OUT
  | .thru => W.THRU

/-- The spoil mark of a code in assembly. -/
def spoilWord : Spoil → Text
  | .absent => W.NONE
  | .present none => W.ERRONEOUS
  | .present (some c) => causeWord c

def codeInHand : Option Code → List Text
  | none => []
  | some c => [dirWord c.dir, patternText c.groups, spoilWord c.spoil]

/-- SHOW SEC s BELL (R94). -/
def State.bellWords (s : State) (p : Sec) : List Text :=
  let k := s.port p
  [senseWord k.sense, onOff k.drive, ownerWord k.owner] ++ codeInHand k.code ++
    optional k.suppressed W.SUPPRESSED ++ optional k.held W.HELD ++ [W.LOCAL, onOff k.sounder.driven]

def markWords : Option Mark → List Text
  | none => []
  | some .taken => [W.TAKEN]
  | some .outOfTurn => [W.OUT_OF_TURN]

/-- A completed code of the port, OUT or not, has not been taken by its section yet, so that the last code of that
direction has no mark (R108). -/
def State.codeUnmarked (s : State) (x : Sec) (out : Bool) : Bool :=
  s.inbox.codes.any fun h => decide (h.port = x) && decide (decide (h.dir = .outgoing) = out)

/-- The mark that stands with the last sent code, and with the last received code. -/
def State.sentMark (s : State) (x : Sec) : Option Mark :=
  if s.codeUnmarked x true then none else (s.section_ x).sentMark

def State.rcvdMark (s : State) (x : Sec) : Option Mark :=
  if s.codeUnmarked x false then none else (s.section_ x).rcvdMark

/-- SHOW SEC s SENT and RCVD. -/
def lastCodeWords (mark : Option Mark) : Option CodeRecord → List Text
  | none => [W.NONE]
  | some r => [patternText r.pattern] ++ classWords r.cls ++ [timeWord r.time] ++ markWords mark

/-! ### The box (R126) -/

def boxPosWord : BoxPos → Text
  | .inn => W.IN
  | .out => W.OUT

def boxRefusalWords : BoxRefusal → List Text
  | .noList => [W.NO_LIST]
  | .notBlocked x => [W.NOT_BLOCKED, sectionLetter x]
  | .lever n => [W.LEVER, ordinal n]
  | .term n => [W.TERM, ordinal n]
  | .exchange x => [W.EXCHANGE, sectionLetter x]
  | .indicator x => [W.INDICATOR, sectionLetter x]

def lastRefusalWords : Option BoxRefusal → List Text
  | none => []
  | some r => W.REFUSED :: boxRefusalWords r

def pathWord : Option Sec → Text
  | none => W.NONE
  | some x => sectionLetter x

def State.boxWords (s : State) : List Text :=
  [serviceWord s.service.state, W.SW, boxPosWord s.service.position] ++ optional s.service.disagree W.DISAGREE ++
    lastRefusalWords s.service.refusal ++ [W.FRAME, digits s.track.params.frame, W.ACTUAL, digits s.track.actual] ++
    (if s.track.extended then [W.FRAME, W.EXTENDED] else []) ++ [W.PATH, pathWord s.service.path]

/-- A sequence number, present when there is one. -/
def seqWord : Option Seq → List Text
  | none => []
  | some q => [digits q.toNat]

/-- SHOW BOX CLOCK (R132). DESIGN CHOICE (log 26): while the register is empty both sequence numbers are left out. -/
def State.clockWords (s : State) : List Text :=
  [timeWord s.register.clock, W.REG, digits s.register.ring.length] ++ seqWord s.register.oldest ++
    seqWord s.register.newest

/-- A remembered code. -/
def memCodeWords : Option MemCode → List Text
  | none => [W.NONE]
  | some c => [patternText c.pattern] ++ classWords c.cls ++ [timeWord c.time]

/-- SHOW BOX PORT p. -/
def State.memoryWords (s : State) (p : Sec) : List Text :=
  W.SENT :: memCodeWords (s.memory p).sent ++ W.RCVD :: memCodeWords (s.memory p).rcvd

/-- A mark with the seconds left of its window. -/
def State.exchangeMark (s : State) (p : Sec) (w : Text) : Option Nat → List Text
  | none => []
  | some t => [sectionLetter p, w, digits (secondsLeft s.now (t + s.window))]

/-- SHOW BOX MARKS. -/
def State.marksWords (s : State) : List Text :=
  allSections.flatMap fun p =>
    s.exchangeMark p W.BOX_OUT (s.memory p).boxOut ++ s.exchangeMark p W.BOX_IN (s.memory p).boxIn

/-! ### Register entries (R128, R131) -/

def leverEntryWord : LeverEntry → Text
  | .forced => W.FORCED
  | .fault => W.FAULT
  | .stalled => W.STALLED

def boxEntryWord : BoxEntry → Text
  | .inService => W.IN_SERVICE
  | .switchedOut => W.SWITCHED_OUT
  | .switchedIn => W.SWITCHED_IN
  | .withdrawn => W.WITHDRAWN

def trainEndWord : TrainEnd → Text
  | .complete => W.COMPLETE
  | .cancelled => W.CANCELLED
  | .void => W.VOID
  | .released => W.RELEASED

/-- The kind of an entry and the fields of its kind in the order of R128. DESIGN CHOICE (log 25): the auto flag of a SECTION
entry is the word AUTO, after the train id. -/
def bodyWords : RegBody → List Text
  | .bell p d pattern cls => [W.BELL, sectionLetter p, dirWord d, patternText pattern] ++ classWords cls
  | .change x a b train auto =>
    [W.SECTION, sectionLetter x, secStateWord a, secStateWord b] ++ datumWords train ++ optional auto W.AUTO
  | .train ident x inward cls outcome offered entered =>
    [W.TRAIN, digits ident, sectionLetter x, directionWord inward, digits cls, trainEndWord outcome, timeWord offered] ++
      (match entered with
        | some c => [timeWord c]
        | none => [])
  | .release x count => [W.RELEASE, sectionLetter x, digits count]
  | .lever n e => [W.LEVER, ordinal n, leverEntryWord e]
  | .track t (some c) => [W.TRACK, ordinal t, W.FAILED, failWord c]
  | .track t none => [W.TRACK, ordinal t, W.RESTORED]
  | .box e => [W.BOX, boxEntryWord e]
  | .disagree (some x) => [W.DISAGREE, sectionLetter x]
  | .disagree none => [W.DISAGREE, W.BOX]
  | .clash p => [W.CLASH, sectionLetter p]
  | .crossed x => [W.CROSSED, sectionLetter x]
  | .clock old new => [W.CLOCK, timeWord old, timeWord new]

def entryWords (e : RegEntry) : List Text :=
  [W.REG, digits e.seq.toNat, timeWord e.time] ++ bodyWords e.body

/-! ### Reports (R152, R153) -/

/-- The words of an item: its keyword, its index, and the data of its first part. -/
def State.itemWords (s : State) : Item → List Text
  | .lev n => [W.LEV, ordinal n] ++ s.leverWords n
  | .tc t => [W.TC, ordinal t] ++ s.circuitWords t
  | .sec x => [W.SEC, sectionLetter x] ++ s.sectionWords x
  | .box => W.BOX :: s.boxWords

/-! ### The requests -/

def handleShowLev : Handler :=
  answering fun ws s => do
    let n ← bareForm (indexAt 48 ws 3)
    noMore ws 3
    return W.SHOW :: s.itemWords (.lev n)

def execShowLev (s : State) : Host.Outcome State Fault Refusal :=
  .next (commit s (requestStep .showLev afterPowerUp handleShowLev s))

/-- SHOW TC n and its parts SET and PENDING. -/
def handleShowTc : Handler :=
  answering fun ws s => do
    let t ← bareForm (indexAt 20 ws 3)
    match wordAt? ws 4 with
    | none => return W.SHOW :: s.itemWords (.tc t)
    | some w =>
      if w = W.SET then
        only ws 4
        return [W.SHOW, W.TC, ordinal t, W.SET] ++ s.circuitSet t
      else if w = W.PENDING then
        only ws 4
        return [W.SHOW, W.TC, ordinal t, W.PENDING] ++ s.circuitPending t
      else .error (.form (some 4))

def execShowTc (s : State) : Host.Outcome State Fault Refusal :=
  .next (commit s (requestStep .showTc afterPowerUp handleShowTc s))

/-- A part of SHOW SEC by its word. -/
def State.sectionPart (s : State) (x : Sec) (w : Text) : Option (List Text) :=
  if w = W.TRAIN then some (trainWords (s.section_ x).train)
  else if w = W.BELL then some (s.bellWords x)
  else if w = W.SENT then some (lastCodeWords (s.sentMark x) (s.port x).sent)
  else if w = W.RCVD then some (lastCodeWords (s.rcvdMark x) (s.port x).rcvd)
  else none

/-- The words of SHOW SEC s part: the part's own word first, unless its data begin with it. -/
def sectionPartWords (x : Sec) (w : Text) (data : List Text) : List Text :=
  [W.SHOW, W.SEC, sectionLetter x] ++ (if w = W.TRAIN then data else w :: data)

def handleShowSec : Handler :=
  answering fun ws s => do
    let x ← sectionAt ws 3
    match wordAt? ws 4 with
    | none => return W.SHOW :: s.itemWords (.sec x)
    | some w =>
      match s.sectionPart x w with
      | none => .error (.form (some 4))
      | some data =>
        only ws 4
        return sectionPartWords x w data

def execShowSec (s : State) : Host.Outcome State Fault Refusal :=
  .next (commit s (requestStep .showSec afterPowerUp handleShowSec s))

/-- SHOW BOX and its parts CLOCK, PORT p and MARKS. DESIGN CHOICE (log 36): a port letter that is missing or no port is
?RANGE with the field, as a section letter is. -/
def handleShowBox : Handler :=
  answering fun ws s => do
    match wordAt? ws 3 with
    | none => return W.SHOW :: s.itemWords .box
    | some w =>
      if w = W.CLOCK then
        only ws 3
        return [W.SHOW, W.BOX, W.CLOCK] ++ s.clockWords
      else if w = W.PORT then
        let p ← sectionAt ws 4
        only ws 4
        return [W.SHOW, W.BOX, W.PORT, sectionLetter p] ++ s.memoryWords p
      else if w = W.MARKS then
        only ws 3
        return [W.SHOW, W.BOX, W.MARKS] ++ s.marksWords
      else .error (.form (some 3))

def execShowBox (s : State) : Host.Outcome State Fault Refusal :=
  .next (commit s (requestStep .showBox afterPowerUp handleShowBox s))

/-- The five values of a group's lowest member, with its pending tuning (R58). -/
def groupValues (s : State) : List Circuit → List Text
  | [] => []
  | t :: _ =>
    match s.tuned t with
    | some r => [W.COARSE, digits r.coarse, W.FINE, digits r.fine, W.DROP, digits r.drop, W.PICK, digits r.pick,
        W.FLOOR, digits r.floor]
    | none => []

def handleShowGroup : Handler :=
  answering fun ws s => do
    let g ← groupAt ws
    noMore ws 3
    return [W.SHOW, W.GROUP, digits g, W.MEMBERS, digits (s.members g).length] ++ groupValues s (s.members g)

def execShowGroup (s : State) : Host.Outcome State Fault Refusal :=
  .next (commit s (requestStep .showGroup afterPowerUp handleShowGroup s))

def lightWord : Light → Text
  | .active => W.ACTIVE
  | .dimmed => W.DIMMED
  | .dark => W.DARK

/-- The frame SHOW LAMP reads: the last published one; until there is one, every cell OFF, not lit, t_on 0 (R140). -/
def State.shownFrame (s : State) : LampFrame :=
  match s.diagram.published with
  | some f => f
  | none => { s.snapshot with cells := [], bindings := [], ton := 0 }

/-- The host value SHOW LAMP gives: the present one (R140). For a cell whose HOST binding has gone since the frame shown no
value is stated: a free value (log 41). -/
def State.hostShown (s : State) (c : Cell) : Lamp :=
  match mapGet s.diagram.host c with
  | some v => v
  | none => #v[Lamp.off, .on, .flash][Config.unstatedHost c s.now]

/-- The binding of a cell as published with the frame shown, and for a HOST cell its present host value (R140). -/
def State.cellBinding (s : State) (c : Cell) : List Text :=
  match mapGet s.shownFrame.bindings c with
  | none => [W.UNBOUND]
  | some b =>
    (if b.source = .host then [W.HOST, wordFor lampTable (s.hostShown c)] else []) ++ bindingWords c b

/-- The data of SHOW LAMP (R140, R152). DESIGN CHOICE (log 26): TON is the frame's t_on for a cell that is not lit too. -/
def State.lampWords (s : State) (c : Cell) : List Text :=
  let f := s.shownFrame
  let v := (mapGet f.cells c).getD .off
  [wordFor lampTable v, if v.lit f.half then W.LIT else W.UNLIT, W.TON, digits f.ton, W.PHYS,
    digits (remap 15 f.rowrev (cellRow c)), digits (remap 31 f.colrev (cellCol c)), W.LEVEL, lightWord f.level, W.B,
    digits f.b, W.HALF, onOff f.half] ++ s.cellBinding c

def handleShowLamp : Handler :=
  answering fun ws s => do
    let c ← bare (readCell ws 3)
    noMore ws 4
    return [W.SHOW, W.LAMP, digits (cellRow c), digits (cellCol c)] ++ s.lampWords c

def execShowLamp (s : State) : Host.Outcome State Fault Refusal :=
  .next (commit s (requestStep .showLamp afterPowerUp handleShowLamp s))

/-- RAW TC n; a DISABLED circuit is ?RANGE. R59 gives its refusals no field. DESIGN CHOICE (log 36): RAW TC without a
number is ?RANGE with no field too. -/
def handleRawTc : Handler :=
  answering fun ws s => do
    let t ← bare (indexAt 20 ws 3)
    refuseIf (decide ((s.circuit t).state = .disabled)) (.range none)
    only ws 3
    return [W.RAW, W.TC, ordinal t] ++ (s.circuit t).rawWords

def execRawTc (s : State) : Host.Outcome State Fault Refusal :=
  .next (commit s (requestStep .rawTc afterPowerUp handleRawTc s))

/-- REG q (R131). DESIGN CHOICE (log 36): a further word is malformed, and is checked after q. -/
def handleReg : Handler :=
  answering fun ws s => do
    let q ← bare (do numberIn 0 65535 2 (← wordAt ws 2))
    only ws 2
    match s.register.entry? (BitVec.ofNat 16 q) with
    | some e => return entryWords e
    | none => .error (.gone (s.register.oldest.map (·.toNat)))

def execReg (s : State) : Host.Outcome State Fault Refusal :=
  .next (commit s (requestStep .reg afterPowerUp handleReg s))

end Sys2Proof.Machine
end

