-- ==== Sys2Proof/Machine/Control.lean ====
section
/-! DEFINITION. CHECK, START, WITHDRAW and RESTART (R20, R23, R41, R159, R162 to R166). -/

namespace Sys2Proof.Machine

/-! ### The checks (R162) -/

/-- The lever has no record, or one of kind SPARE. -/
def State.undefinedLever (s : State) (n : Lever) : Bool :=
  match (s.lever n).record with
  | none => true
  | some r => decide (r.kind = .spare)

/-- Every lever an entry names. -/
def LockEntry.levers (e : LockEntry) : List Lever :=
  e.x.lever :: e.y.lever :: e.conds.map (·.lever)

/-- The number, from 1, of the first entry that meets a test. -/
def firstEntry (bad : LockEntry → Bool) : List LockEntry → Option Nat
  | [] => none
  | e :: es => if bad e then some 1 else (firstEntry bad es).map (· + 1)

def checkNoLevers (s : State) : Option (List Text) :=
  if allLevers.any fun n => (s.lever n).loaded then none else some [W.NO_LEVERS]

def checkLevers (s : State) : Option (List Text) :=
  match firstEntry (fun e => e.levers.any s.undefinedLever) s.locking with
  | some k => some [W.UNDEFINED_LEVER, digits k]
  | none =>
    if (s.service.boxout.getD []).any fun t => s.undefinedLever t.lever then some [W.UNDEFINED_LEVER, W.BOXOUT] else none

/-- X equals Y, or a condition lever equals X or Y. -/
def LockEntry.selfLocks (e : LockEntry) : Bool :=
  decide (e.x.lever = e.y.lever) || e.conds.any fun c => decide (c.lever = e.x.lever ∨ c.lever = e.y.lever)

def checkSelfLock (s : State) : Option (List Text) :=
  (firstEntry LockEntry.selfLocks s.locking).map fun k => [W.SELF_LOCK, digits k]

/-- A track term or an approach circuit names a circuit without a record. -/
def State.undefinedTrack (s : State) (r : LevRecord) : Bool :=
  let missing := fun t => (s.circuit t).stored.isNone
  r.tracks.any (fun t => missing t.circuit) ||
    match r.approach with
    | some a => a.circuits.any missing
    | none => false

/-- The first lever, in number order, whose record meets a test. -/
def State.firstLever (s : State) (bad : LevRecord → Bool) : Option Lever :=
  allLevers.find? fun n =>
    match (s.lever n).record with
    | some r => bad r
    | none => false

def checkTracks (s : State) : Option (List Text) :=
  (s.firstLever s.undefinedTrack).map fun n => [W.UNDEFINED_TRACK, ordinal n]

def State.missingSection (s : State) : Option Sec → Bool
  | none => false
  | some x => (s.section_ x).record.isNone

/-- Block control or the approach section names a section without a record. -/
def State.undefinedSection (s : State) (r : LevRecord) : Bool :=
  s.missingSection r.block ||
    match r.approach with
    | some a => s.missingSection a.sec
    | none => false

def checkSections (s : State) : Option (List Text) :=
  match s.firstLever s.undefinedSection with
  | some n => some [W.UNDEFINED_SECTION, ordinal n]
  | none =>
    if s.service.boxout.isNone then none
    else if s.missingSection (some .a) then some [W.UNDEFINED_SECTION, W.A]
    else if s.missingSection (some .b) then some [W.UNDEFINED_SECTION, W.B]
    else none

/-- The meanings the code table must hold, with their words, in the order of the check. -/
def State.neededCodes (s : State) : List (Text × (Meaning → Bool)) :=
  let loaded := fun x => (s.section_ x).record.isSome
  (if allSections.any loaded then
      [(W.OFFER, fun m => match m with
        | .offer _ => true
        | _ => false), (W.ENTERING, fun m => decide (m = .entering)), (W.CANCEL, fun m => decide (m = .cancel))]
    else []) ++
    (if loaded .a && loaded .b then
      [(W.BOX_OUT, fun m => decide (m = .boxOut)), (W.BOX_IN, fun m => decide (m = .boxIn))] else [])

def checkCodes (s : State) : Option (List Text) :=
  (s.neededCodes.find? fun e => !s.codes.any fun c => e.2 c.meaning).map fun e => [W.MISSING_CODE, e.1]

/-- Every lever read from its contacts; both made, or neither, is away. -/
def State.contactEnd (s : State) (n : Lever) : Option LeverEnd :=
  (posOfContacts s.contacts.levers[n].n.made s.contacts.levers[n].r.made).atEnd

def checkViolation (s : State) : Option (List Text) :=
  (firstEntry (·.violated s.contactEnd) s.locking).map fun k => [W.VIOLATION, digits k]

/-- The first of checks 1 to 7 that fails, with its reason and index. -/
def State.configError (s : State) : Option (List Text) :=
  ([checkNoLevers s, checkLevers s, checkSelfLock s, checkTracks s, checkSections s, checkCodes s,
    checkViolation s].find? (·.isSome)).bind id

def handleCheck : Handler :=
  answering fun ws s => do
    only ws 1
    match s.configError with
    | some why => .error (.start why)
    | none => return [W.CHECK, s.digestWord]

def execCheck (s : State) : Host.Outcome State Fault Refusal :=
  .next (commit s (requestStep .check inConfigure handleCheck s))

/-! ### START (R163 to R165) -/

/-- The state a loaded lever takes at START (R20, R164): BACKLOCKED with its time release started for a signal with
approach locking found away. -/
def LeverData.start (l : LeverData) (k : LeverContacts) (now : Nat) : LeverData :=
  let pos := posOfContacts k.n.made k.r.made
  let l' := { l with lock := false, refused := false, stalled := false, limit := none, backlock := .idle }
  match pos, l.approach with
  | .travel, some a => { l' with pos := .backlocked, lastEnd := some .r, backlock := .timing (now + a.time * 1000) }
  | _, _ => { l' with pos := pos, lastEnd := pos.freshEnd }

/-- The entry decision of a lever: one with no record goes on following its contacts (R6, R20). -/
def startLever (s : State) (n : Lever) : LeverData :=
  if (s.lever n).loaded then (s.lever n).start s.contacts.levers[n] s.now else (s.lever n).settle s.contacts.levers[n]

/-- A record created at START: class 0, stage ENTERED, its times those of START (R165). -/
def State.startTrain (s : State) (inward : Bool) : Train :=
  { s.newTrain inward 0 .entered with entered := some s.register.clock }

/-- The entry decision of a section with a record (R165). DEDUCED (log 44): the progress check at the entry counts tracks
already occupied, as R111's steps, R115 and R165 say, so such a record becomes CLEARED when the first of them clears,
against R111's sentence that it never does. -/
def startSection (x : Sec) (s : State) : State :=
  let k := s.section_ x
  if k.record.isNone then s
  else
    match k.position, k.reading with
    | .tol, _ => progressCheck x (enterSec x .enteredIn (some (s.startTrain true)) .void false (countTrain s))
    | .lc, _ => endSec x .blocked .void s
    | .lb, some .lc => endSec x .unofferedClear .void s
    | .lb, some .tol => enterSec x .enteredOut (some (s.startTrain false)) .void false (countTrain s)
    | .lb, _ => endSec x .blocked .void s

/-- The loaded levers found away at START: each is a change of LEV n, whatever its state before (R20, R164). -/
def foundAway (s : State) : List Item :=
  (allLevers.filter fun n => (s.lever n).loaded && decide ((s.lever n).pos = .travel)).map .lev

/-- The acceptance of START. Changes handed on before it are still to be taken; those of the entry decisions are
handed at its end, but for the back-lock records, whose approach is not judged at START (R41). DESIGN CHOICE (log 42): the
sections are entered in the order A, B, C, which gives the order of their ids and SECTION entries. -/
def enterService (s : State) : State :=
  let s₀ := { s with levers := Vector.ofFn (startLever s) }
  let s₁ := s₀.report (foundAway s₀)
  let s₂ := (s₁.setService { s₁.service with state := .inService }).enter .service (.box .inService)
  startSection .c (startSection .b (startSection .a s₂))

/-- The digest START carries: eight hexadecimal digits in either case. -/
def readDigest (ws : List Text) : Parsed Nat := do
  let w ← wordAt ws 2
  match hex? 8 w with
  | none => .error (.form (some 2))
  | some v =>
    only ws 2
    return v

def handleStart : Handler := fun ws s => do
  let v ← readDigest ws
  match s.configError with
  | some why => .error (.start why)
  | none =>
    if v = (crc32 (digestText s.storedItems)).toNat then return (enterService s, [W.START, s.digestWord])
    else .error (.start [W.DIGEST, s.digestWord])

/-- What was handed on to the Locking unit before START or by it is not judged by a back-lock record: the first
change judged is one taken after START (R41). -/
def clearChangesAtStart (before after : State) : State :=
  if before.isIn .inService = after.isIn .inService then after
  else after.setInbox { after.inbox with changes := [] }

def execStart (s : State) : Host.Outcome State Fault Refusal :=
  .next (clearChangesAtStart s (commit s (requestStep .start inConfigure handleStart s)))

/-! ### WITHDRAW (R166) -/

/-- The box is at rest: every lever with a record is locked at an end, every section with a record BLOCKED. -/
def State.atRest (s : State) : Bool :=
  (allLevers.all fun n => !(s.lever n).loaded || (s.lever n).pos.isLocked) &&
    allSections.all fun x => (s.section_ x).record.isNone || decide ((s.section_ x).state = .blocked)

/-- An accepted WITHDRAW. DESIGN CHOICE (log 42): the sections make their SECTION entries in the order A, B, C. -/
def leaveService (s : State) : State :=
  let s₁ := enterLoaded .closed .c (enterLoaded .closed .b (enterLoaded .closed .a s))
  let s₂ := cutTapper .c (cutTapper .b (cutTapper .a s₁))
  (s₂.setService { s₂.service with state := .configure }).enter .service (.box .withdrawn)

/-- With the box not at rest WITHDRAW is refused with ?STATE. -/
def handleWithdraw : Handler := fun ws s => do
  refuseIf (!s.atRest) .state
  only ws 1
  return (leaveService s, [W.WITHDRAW])

def inService (v : ServiceState) : Bool :=
  decide (v = .inService)

def execWithdraw (s : State) : Host.Outcome State Fault Refusal :=
  .next (commit s (requestStep .withdraw inService handleWithdraw s))

/-! ### RESTART (R157, R159) -/

def handleRestart : Handler := fun ws s => do
  only ws 1
  return (s.setLink { s.link with restart := .replyWaiting }, [W.RESTART])

def execRestart (s : State) : Host.Outcome State Fault Refusal :=
  .next (commit s (requestStep .restart inConfigure handleRestart s))

end Sys2Proof.Machine
end

