-- ==== Sys2Proof/Machine/Frame.lean ====
section
/-! DEFINITION. The Lever Frame unit: grips, strokes, arrivals, faults, the travel limit and the back-lock
release (R7 to R20). Each step takes the event the contact matrix handed on for the lever. -/

namespace Sys2Proof.Machine

/-- A lever enters a state, which sets its last end (R23). -/
def LeverData.enter (l : LeverData) (pos : LeverPos) : LeverData :=
  { l with
    pos := pos
    lastEnd :=
      match pos with
      | .nLocked | .nFree => some .n
      | .rLocked | .rFree | .backlocked => some .r
      | .fault => none
      | .travel => l.lastEnd }

/-- A lever enters a state with its lock de-energised and no travel limit (R18). -/
def LeverData.caught (l : LeverData) (pos : LeverPos) : LeverData :=
  { l.enter pos with lock := false, limit := none }

/-- A lever enters granted travel: lock energised, travel limit started (R12, R16). -/
def LeverData.grantTravel (l : LeverData) (limit : Nat) : LeverData :=
  { l.enter .travel with lock := true, limit := some limit }

/-- When a travel limit started now expires (R16). -/
def State.travelLimit (s : State) : Nat :=
  s.now + s.times.travel * 1000

/-- Take an event of a lever: the first one waiting for the lever, if it is this one. -/
def takeLeverEvent (n : Lever) (e : LeverEvent) (s : State) : Option State :=
  match takeFirst (·.1 = n) s.inbox.frame with
  | some ((_, e'), rest) => if e' = e then some (s.setInbox { s.inbox with frame := rest }) else none
  | none => none

/-- A lever step: the event is taken and the lever and its readers follow, except in POWER_UP, where a lever takes
its state only when the contacts are established (R7). Without the event nothing happens. -/
def leverStep (n : Lever) (e : LeverEvent) (f : State → State) (s : State) : State :=
  match takeLeverEvent n e s with
  | none => s
  | some s' => if s.isIn .powerUp then s' else f s'

/-- In service, so that a move against the lock is forced and entered (R13). -/
def State.working (s : State) : Bool :=
  s.isIn .inService || s.isIn .switchedOut

/-! ### Grips (R8 to R10) -/

/-- The kind of a lever's record is SPARE. -/
def LeverData.isSpare (l : LeverData) : Bool :=
  match l.record with
  | some r => decide (r.kind = .spare)
  | none => false

/-- A grip refused: the flag is set, state and lock stay (R8, R9). -/
def LeverData.refuse (l : LeverData) : LeverData :=
  { l with refused := true }

/-- Freedom granted to a lever (R8, R9): free at its end, or granted travel when it is away. -/
def LeverData.free (l : LeverData) (limit : Nat) : LeverData :=
  match l.pos with
  | .nLocked => { l.enter .nFree with lock := true }
  | .rLocked => { l.enter .rFree with lock := true }
  | _ => l.grantTravel limit

/-- The freedom request and its answer, taken as one event (R8, R9, R27). -/
def requestFreedom (n : Lever) (s : State) : State :=
  let l := s.lever n
  if s.freedomTest n then s.setLever n (l.free s.travelLimit) else s.setLever n l.refuse

/-- A grip in IN_SERVICE on a loaded lever (R6, R8, R9). -/
def gripInService (n : Lever) (s : State) : State :=
  let l := s.lever n
  match l.pos with
  | .nLocked | .rLocked => if l.isSpare then s.setLever n l.refuse else requestFreedom n s
  | .travel =>
    if l.lock then s
    else if l.isSpare then s.setLever n l.refuse
    else requestFreedom n s
  | .fault => s.setLever n l.refuse
  | .nFree | .rFree | .backlocked => s

/-- A grip by the service state; on a lever with no record it is ignored (R8). -/
def takeGrip (n : Lever) (s : State) : State :=
  if (s.lever n).loaded then
    match s.service.state with
    | .powerUp | .configure => s
    | .switchedOut => s.setLever n (s.lever n).refuse
    | .inService => gripInService n s
  else s

def execGrip (n : Lever) (s : State) : Host.Outcome State Fault Refusal :=
  .next (commit s (leverStep n .grip (takeGrip n) s))

/-- A free lever is locked again at the end it is at; other states stay (R10, R11). -/
def LeverData.relock (l : LeverData) : LeverData :=
  match l.pos with
  | .nFree => { l.enter .nLocked with lock := false }
  | .rFree => { l.enter .rLocked with lock := false }
  | _ => l

/-- A grip end (R10). -/
def takeGripEnd (n : Lever) (s : State) : State :=
  s.setLever n { (s.lever n).relock with refused := false }

def execGripEnd (n : Lever) (s : State) : Host.Outcome State Fault Refusal :=
  .next (commit s (leverStep n .gripEnd (takeGripEnd n) s))

/-- FREEDOM_WITHDRAWN: a demand of the Locking unit taken by the lever (R11). -/
def takeDemand (n : Lever) (s : State) : State :=
  if (s.lever n).pos.isFree then s.setLever n { (s.lever n).relock with refused := true } else s

def freedomWithdrawn (n : Lever) (s : State) : State :=
  match takeFirst (· = n) s.inbox.demands with
  | none => s
  | some (_, rest) => takeDemand n (s.setInbox { s.inbox with demands := rest })

def execFreedomWithdrawn (n : Lever) (s : State) : Host.Outcome State Fault Refusal :=
  .next (commit s (freedomWithdrawn n s))

/-! ### Strokes (R12, R13) -/

/-- A lever moved against its de-energised lock enters caught travel. In service, for a loaded lever, this is a
forced move with its entry (R13). -/
def forceOut (n : Lever) (s : State) : State :=
  let l := (s.lever n).caught .travel
  if s.working && l.loaded then (s.setLever n { l with forced := true }).enter .leverFrame (.lever n .forced)
  else s.setLever n l

/-- A lever leaves N (R12, R13). -/
def leaveN (n : Lever) (s : State) : State :=
  match (s.lever n).pos with
  | .nFree => s.setLever n ((s.lever n).grantTravel s.travelLimit)
  | .nLocked => forceOut n s
  | _ => s

def execLeavingN (n : Lever) (s : State) : Host.Outcome State Fault Refusal :=
  .next (commit s (leverStep n .leavingN (leaveN n) s))

/-- A signal lever caught at the back-lock notch, with its time release started (R12, R36). -/
def backLock (n : Lever) (a : Approach) (s : State) : State :=
  s.setLever n { (s.lever n).caught .backlocked with backlock := .timing (s.now + a.time * 1000) }

/-- A lever leaves R: granted travel, or the back-lock decision of R36 for a signal with approach locking. -/
def leaveR (n : Lever) (s : State) : State :=
  match (s.lever n).pos with
  | .rFree =>
    match (s.lever n).approach with
    | some a =>
      if s.approachFree a then s.setLever n ((s.lever n).grantTravel s.travelLimit) else backLock n a s
    | none => s.setLever n ((s.lever n).grantTravel s.travelLimit)
  | .rLocked => forceOut n s
  | _ => s

def execLeavingR (n : Lever) (s : State) : Host.Outcome State Fault Refusal :=
  .next (commit s (leverStep n .leavingR (leaveR n) s))

/-! ### Arrivals (R14, R15, R17) -/

/-- A lever in TRAVEL, BACKLOCKED or FAULT arrives at an end. The stalled flag is cleared at an arrival (R14, R18); from
BACKLOCKED the move is forced and the time release is cancelled (R15, R40); from FAULT no flag changes (R17, DEDUCED,
log 10). -/
def arrive (n : Lever) (pos : LeverPos) (s : State) : State :=
  let l := (s.lever n).caught pos
  match (s.lever n).pos with
  | .travel => s.setLever n { l with stalled := false }
  | .backlocked =>
    (s.setLever n { l with forced := true, stalled := false, backlock := .idle }).enter .leverFrame (.lever n .forced)
  | .fault => s.setLever n l
  | _ => s

/-- The lever is in a state from which it can arrive at an end. -/
def LeverPos.canArrive : LeverPos → Bool
  | .travel | .backlocked | .fault => true
  | _ => false

def execArrivalAtN (n : Lever) (s : State) : Host.Outcome State Fault Refusal :=
  .next (commit s (leverStep n .arrivalN (arrive n .nLocked) s))

/-- An arrival at R; one of a lever under block control is handed to the Block unit (R14, R104). -/
def arriveR (n : Lever) (s : State) : State :=
  let s' := arrive n .rLocked s
  if (s.lever n).pos.canArrive && (s.lever n).blockControl.isSome then
    s'.setInbox { s'.inbox with atR := s'.inbox.atR ++ [n] }
  else s'

def execArrivalAtR (n : Lever) (s : State) : Host.Outcome State Fault Refusal :=
  .next (commit s (leverStep n .arrivalR (arriveR n) s))

/-! ### Faults (R17) -/

/-- Both contacts made: FAULT from any state, with its entry for a loaded lever. -/
def takeBothMade (n : Lever) (s : State) : State :=
  let l := { (s.lever n).caught .fault with backlock := .idle }
  if l.loaded then (s.setLever n l).enter .leverFrame (.lever n .fault) else s.setLever n l

def execBothMade (n : Lever) (s : State) : Host.Outcome State Fault Refusal :=
  .next (commit s (leverStep n .bothMade (takeBothMade n) s))

/-- Both contacts break at one scan: a lever in FAULT enters caught travel. -/
def takeBothBreak (n : Lever) (s : State) : State :=
  match (s.lever n).pos with
  | .fault => s.setLever n ((s.lever n).caught .travel)
  | _ => s

def execBothContactsBreak (n : Lever) (s : State) : Host.Outcome State Fault Refusal :=
  .next (commit s (leverStep n .bothBreak (takeBothBreak n) s))

/-! ### Back-lock release and travel limit (R15, R16, R39) -/

/-- A BACKLOCKED lever whose record is DUE takes its release if the table test still passes: granted travel with
its limit started, and the record returns to IDLE. In every other case the release has no effect. -/
def takeBackRelease (n : Lever) (s : State) : State :=
  let l := s.lever n
  if decide (l.pos = .backlocked) && decide (l.backlock = .due) && s.tableTest n then
    s.setLever n { l.grantTravel s.travelLimit with backlock := .idle }
  else s

def backLockRelease (n : Lever) (s : State) : State :=
  match takeFirst (· = n) s.inbox.backReleases with
  | none => s
  | some (_, rest) => takeBackRelease n (s.setInbox { s.inbox with backReleases := rest })

def execBackLockRelease (n : Lever) (s : State) : Host.Outcome State Fault Refusal :=
  .next (commit s (backLockRelease n s))

/-- A lever's travel limit has run out while it is in granted travel. -/
def State.limitOver (s : State) (n : Lever) : Bool :=
  match (s.lever n).limit with
  | some t => (s.lever n).granted && decide (t ≤ s.now)
  | none => false

/-- TRAVEL_LIMIT_EXPIRY: caught travel, stalled, with its entry (R16). -/
def travelLimitExpiry (n : Lever) (s : State) : State :=
  if s.limitOver n then
    (s.setLever n { (s.lever n).caught .travel with stalled := true }).enter .leverFrame (.lever n .stalled)
  else s

def execTravelLimitExpiry (n : Lever) (s : State) : Host.Outcome State Fault Refusal :=
  .next (commit s (travelLimitExpiry n s))

end Sys2Proof.Machine
end

