-- ==== Sys2Proof/Machine/LinkLine.lean ====
section
/-! DEFINITION. The line itself: receiving characters, the lines that are no request, the lines of MORE, and the
transmitter (R145 to R149, R153, R155 to R157). -/

namespace Sys2Proof.Machine

/-! ### Reception (R145, R146) -/

/-- A finished line as it is classified when it is placed in the queue. -/
def Link.finished (k : Link) : WaitingLine :=
  if k.long then .long
  else if k.framing then .badCheck
  else
    match lineText? k.building with
    | some t => .request t
    | none => .badCheck

/-- The tally of the newest waiting line, raised by one up to 255. -/
def raiseTally : List Waiting → List Waiting
  | [] => []
  | [w] => [{ w with tally := min (w.tally + 1) Config.maxTally }]
  | w :: ws => w :: raiseTally ws

/-- The line being built is empty and uncounted. -/
def Link.emptyLine (k : Link) : Link :=
  { k with building := [], count := 0, long := false, framing := false }

/-- LINE_FINISHED: a CR ends the line. With no character before it, it is not a line; with two lines waiting, the
line is discarded and counted on the newest of them (R146), and the held words with it (R149): DESIGN CHOICE (log 46), at
this moment, and not when its ?BUSY is answered. -/
def Link.finishLine (k : Link) : Link :=
  if k.count = 0 then k
  else if Config.maxWaiting ≤ k.queue.length then { k.emptyLine with queue := raiseTally k.queue, heldWords := [] }
  else { k.emptyLine with queue := k.queue ++ [⟨k.finished, 0⟩] }

/-- One more character: counted, and kept while the line is not long; the count of a long line stays past 120. -/
def Link.addChar (k : Link) (c : Option Char) : Link :=
  if Config.maxLine < k.count + 1 then { k with count := Config.maxLine + 1, long := true, building := [] }
  else
    match c with
    | some ch => { k with count := k.count + 1, building := k.building ++ [ch] }
    | none => { k with count := k.count + 1, framing := true }

/-- The character a byte stands for. -/
def charOf (b : BitVec 8) : Char :=
  Char.ofNat b.toNat

/-- A received character: a line feed is ignored, a carriage return ends the line (R145). -/
def Link.receive (k : Link) : RxChar → Link
  | .framingError => k.addChar none
  | .byte b => if b = 10#8 then k else if b = 13#8 then k.finishLine else k.addChar (some (charOf b))

/-- CHARACTER_RECEIVED. While the reset pin is held nothing is received (R157). -/
def characterReceived (ch : RxChar) (s : State) : State :=
  if s.resetHeld then s else s.setLink (s.link.receive ch)

def execCharacterReceived (ch : RxChar) (s : State) : Host.Outcome State Fault Refusal :=
  .next (commit s (characterReceived ch s))

/-! ### Lines that are no request (R147 to R149) -/

/-- FAULTED_LINE: the ?LONG or ?CHECK of a faulted line, the ?FORM of a text outside R145, the ?LONG of a joined text. -/
def faultedLine (s : State) : State :=
  match s.front? with
  | some (.faulted e) => reply e.words s
  | _ => s

def execFaultedLine (s : State) : Host.Outcome State Fault Refusal :=
  .next (commit s (faultedLine s))

/-- BUSY_REPLY: one ?BUSY of those owed is placed when the slot has emptied. -/
def busyReply (s : State) : State :=
  if s.link.slot.isNone && decide (0 < s.link.owed) && decide (s.link.restart = .none) then
    s.setLink { s.link.place Err.busy.words with owed := s.link.owed - 1 }
  else s

def execBusyReply (s : State) : Host.Outcome State Fault Refusal :=
  .next (commit s (busyReply s))

/-- The service states that accept a request of an object word the table does not give: those of its first word. -/
def acceptsObject (w : Text) : ServiceState → Bool :=
  if w = W.ERASE then inConfigure else afterPowerUp

/-- The field of an object word that the table does not give: SHOW, CLEAR and TUNE name it, ERASE and RAW do not (R59,
R151). -/
def objectField (w : Text) : Option Nat :=
  if w = W.SHOW ∨ w = W.CLEAR ∨ w = W.TUNE then some 2 else none

/-- The refusal of a request of no row: an unknown first word, or an object word not of the table (R147, R151). -/
def unknownRefusal (v : ServiceState) (ws : List Text) : Err :=
  match ws with
  | [] => .word
  | w :: _ =>
    match lookup objectRows w with
    | none => .word
    | some _ => if acceptsObject w v then .form (objectField w) else .state

/-- UNKNOWN_KEYWORD. -/
def unknownKeyword (s : State) : State :=
  match s.front? with
  | some (.request .unknownKeyword ws) => reply (unknownRefusal s.service.state ws).words s
  | _ => s

def execUnknownKeyword (s : State) : Host.Outcome State Fault Refusal :=
  .next (commit s (unknownKeyword s))

/-- MORE_LINE: the words before MORE are held after those already held, and answered =MORE (R149). -/
def moreLine (s : State) : State :=
  match s.front? with
  | some (.held ws) => s.setLink { s.link.answer (success [W.MORE]) with heldWords := s.link.heldWords ++ ws }
  | _ => s

def execMoreLine (s : State) : Host.Outcome State Fault Refusal :=
  .next (commit s (moreLine s))

/-! ### The transmitter (R153, R155, R156) -/

/-- A report's text, opened by the exclamation mark and cut as a reply's (R148). -/
def reportText (ws : List Text) : Text :=
  (cutWords
    (match ws with
      | [] => [['!']]
      | w :: rest => ('!' :: w) :: rest) Config.maxText).1

/-- A line goes out now. -/
def Link.send (k : Link) (t : Text) (now : Nat) : Link :=
  { k with sending := some ⟨lineOf t, now⟩ }

/-- The reply in the slot is sent, which empties the slot; that of an accepted RESTART is the last line (R157). -/
def Link.sendReply (k : Link) (t : Text) (now : Nat) : Link :=
  { k.send t now with
    slot := none
    restart := match k.restart with
      | .replyWaiting => .replySending
      | p => p }

/-- The register entry at the send mark, while the REG class is notified. -/
def State.entryAtMark (s : State) : Option RegEntry :=
  if s.link.classes.reg then s.link.mark.bind s.register.entry? else none

/-- What the transmitter sends next: the reply, else the register entry at the mark, else the front item. -/
def chooseLine (s : State) : State :=
  match s.link.slot with
  | some t => s.setLink (s.link.sendReply t s.now)
  | none =>
    match s.entryAtMark with
    | some e => s.setLink { s.link.send (reportText (entryWords e)) s.now with mark := some (e.seq + 1) }
    | none =>
      match s.link.reports with
      | [] => s.setLink { s.link with sending := none }
      | i :: rest => s.setLink { s.link.send (reportText (s.itemWords i)) s.now with reports := rest }

/-- The transmitter is free: nothing is being sent, or the line being sent has taken its time on the wire. -/
def State.lineFree (s : State) : Bool :=
  match s.link.sending with
  | none => true
  | some k => lineOver s.now k

/-- LINE_SENT: the transmitter becomes free, or is free, and chooses. After the reply of RESTART it chooses nothing. -/
def lineSent (s : State) : State :=
  if s.lineFree && decide (s.link.restart ≠ .replySending) then chooseLine s else s

def execLineSent (s : State) : Host.Outcome State Fault Refusal :=
  .next (commit s (lineSent s))

end Sys2Proof.Machine
end

