-- ==== Sys2Proof/Machine/Dispatch.lean ====
section
/-! DEFINITION. The effect of each command on everything but the queue: one arm per row of the table. -/

namespace Sys2Proof.Machine

/-- The meaning of a command. -/
def exec (i : Instr) (s : State) : Host.Outcome State Fault Refusal :=
  match i with
  | .reset strap => Sys2Proof.Machine.execReset strap s
  | .initialisationComplete => Sys2Proof.Machine.execInitialisationComplete s
  | .restartPowerUp strap => Sys2Proof.Machine.execRestartPowerUp strap s
  | .contactScan made => Sys2Proof.Machine.execContactScan made s
  | .grip n => Sys2Proof.Machine.execGrip n s
  | .gripEnd n => Sys2Proof.Machine.execGripEnd n s
  | .leavingN n => Sys2Proof.Machine.execLeavingN n s
  | .leavingR n => Sys2Proof.Machine.execLeavingR n s
  | .arrivalAtN n => Sys2Proof.Machine.execArrivalAtN n s
  | .arrivalAtR n => Sys2Proof.Machine.execArrivalAtR n s
  | .bothMade n => Sys2Proof.Machine.execBothMade n s
  | .freedomWithdrawn n => Sys2Proof.Machine.execFreedomWithdrawn n s
  | .backLockRelease n => Sys2Proof.Machine.execBackLockRelease n s
  | .travelLimitExpiry n => Sys2Proof.Machine.execTravelLimitExpiry n s
  | .provingInputChange g => Sys2Proof.Machine.execProvingInputChange g s
  | .reTest => Sys2Proof.Machine.execReTest s
  | .timeReleaseExpiry n => Sys2Proof.Machine.execTimeReleaseExpiry n s
  | .scanFrameStart => Sys2Proof.Machine.execScanFrameStart s
  | .measurementComplete samples => Sys2Proof.Machine.execMeasurementComplete samples s
  | .scanFrameComplete => Sys2Proof.Machine.execScanFrameComplete s
  | .startOfBeat p => Sys2Proof.Machine.execStartOfBeat p s
  | .endOfBeat p => Sys2Proof.Machine.execEndOfBeat p s
  | .beatHeld p => Sys2Proof.Machine.execBeatHeld p s
  | .codeComplete p => Sys2Proof.Machine.execCodeComplete p s
  | .tapperPress p => Sys2Proof.Machine.execTapperPress p s
  | .tapperRelease p => Sys2Proof.Machine.execTapperRelease p s
  | .stretchEnd p => Sys2Proof.Machine.execStretchEnd p s
  | .tapperHeldCut p => Sys2Proof.Machine.execTapperHeldCut p s
  | .collision p => Sys2Proof.Machine.execCollision p s
  | .strokeEnd p => Sys2Proof.Machine.execStrokeEnd p s
  | .repeatEnd q => Sys2Proof.Machine.execRepeatEnd q s
  | .repeatClash q => Sys2Proof.Machine.execRepeatClash q s
  | .outCodeTaken x => Sys2Proof.Machine.execOutCodeTaken x s
  | .inCodeTaken x => Sys2Proof.Machine.execInCodeTaken x s
  | .codeExchangeUpdate p => Sys2Proof.Machine.execCodeExchangeUpdate p s
  | .indicatorSettled p => Sys2Proof.Machine.execIndicatorSettled p s
  | .unsettledTimeout p => Sys2Proof.Machine.execUnsettledTimeout p s
  | .throughIndicatorRepeat p => Sys2Proof.Machine.execThroughIndicatorRepeat p s
  | .arrivalAtLC x => Sys2Proof.Machine.execArrivalAtLC x s
  | .arrivalAtTOL x => Sys2Proof.Machine.execArrivalAtTOL x s
  | .arrivalAtLB x => Sys2Proof.Machine.execArrivalAtLB x s
  | .blockControlArrival n => Sys2Proof.Machine.execBlockControlArrival n s
  | .autoTol x => Sys2Proof.Machine.execAutoTol x s
  | .progressCheck x => Sys2Proof.Machine.execProgressCheck x s
  | .releasePlungerPress x => Sys2Proof.Machine.execReleasePlungerPress x s
  | .emergencyTimerExpiry x => Sys2Proof.Machine.execEmergencyTimerExpiry x s
  | .arrivalAtOut => Sys2Proof.Machine.execArrivalAtOut s
  | .arrivalAtIn => Sys2Proof.Machine.execArrivalAtIn s
  | .registerAppend u => Sys2Proof.Machine.execRegisterAppend u s
  | .clockTick => Sys2Proof.Machine.execClockTick s
  | .diagramFrameStart => Sys2Proof.Machine.execDiagramFrameStart s
  | .diagramFrameComplete => Sys2Proof.Machine.execDiagramFrameComplete s
  | .signallerActivity => Sys2Proof.Machine.execSignallerActivity s
  | .idleTimeout => Sys2Proof.Machine.execIdleTimeout s
  | .diagramServiceChange => Sys2Proof.Machine.execDiagramServiceChange s
  | .characterReceived ch => Sys2Proof.Machine.execCharacterReceived ch s
  | .faultedLine => Sys2Proof.Machine.execFaultedLine s
  | .busyReply => Sys2Proof.Machine.execBusyReply s
  | .unknownKeyword => Sys2Proof.Machine.execUnknownKeyword s
  | .moreLine => Sys2Proof.Machine.execMoreLine s
  | .lineSent => Sys2Proof.Machine.execLineSent s
  | .ident => Sys2Proof.Machine.execIdent s
  | .mode => Sys2Proof.Machine.execMode s
  | .more => Sys2Proof.Machine.execMore s
  | .notify => Sys2Proof.Machine.execNotify s
  | .lev => Sys2Proof.Machine.execLev s
  | .lock => Sys2Proof.Machine.execLock s
  | .tc => Sys2Proof.Machine.execTc s
  | .sec => Sys2Proof.Machine.execSec s
  | .code => Sys2Proof.Machine.execCode s
  | .lamp => Sys2Proof.Machine.execLamp s
  | .times => Sys2Proof.Machine.execTimes s
  | .boxout => Sys2Proof.Machine.execBoxout s
  | .eraseLev => Sys2Proof.Machine.execEraseLev s
  | .eraseLock => Sys2Proof.Machine.execEraseLock s
  | .eraseTc => Sys2Proof.Machine.execEraseTc s
  | .eraseSec => Sys2Proof.Machine.execEraseSec s
  | .eraseCode => Sys2Proof.Machine.execEraseCode s
  | .eraseLamp => Sys2Proof.Machine.execEraseLamp s
  | .eraseBoxout => Sys2Proof.Machine.execEraseBoxout s
  | .check => Sys2Proof.Machine.execCheck s
  | .start => Sys2Proof.Machine.execStart s
  | .withdraw => Sys2Proof.Machine.execWithdraw s
  | .restart => Sys2Proof.Machine.execRestart s
  | .tuneTc => Sys2Proof.Machine.execTuneTc s
  | .tuneGroup => Sys2Proof.Machine.execTuneGroup s
  | .clearTc => Sys2Proof.Machine.execClearTc s
  | .clearLev => Sys2Proof.Machine.execClearLev s
  | .clock => Sys2Proof.Machine.execClock s
  | .bright => Sys2Proof.Machine.execBright s
  | .dim => Sys2Proof.Machine.execDim s
  | .paint => Sys2Proof.Machine.execPaint s
  | .showLev => Sys2Proof.Machine.execShowLev s
  | .showTc => Sys2Proof.Machine.execShowTc s
  | .showSec => Sys2Proof.Machine.execShowSec s
  | .showBox => Sys2Proof.Machine.execShowBox s
  | .showGroup => Sys2Proof.Machine.execShowGroup s
  | .showLamp => Sys2Proof.Machine.execShowLamp s
  | .rawTc => Sys2Proof.Machine.execRawTc s
  | .reg => Sys2Proof.Machine.execReg s
  | .resetRelease => Sys2Proof.Machine.execResetRelease s
  | .bellSenseSample p current => Sys2Proof.Machine.execBellSenseSample p current s
  | .indicatorSample p cls => Sys2Proof.Machine.execIndicatorSample p cls s
  | .bothContactsBreak n => Sys2Proof.Machine.execBothContactsBreak n s

end Sys2Proof.Machine
end

