-- ==== Sys2Proof/Machine/Step.lean ====
section
/-! DEFINITION. One step: the command at the front of the queue, or one millisecond of the model's time. -/

namespace Sys2Proof.Machine

/-- One millisecond passes. DESIGN CHOICE (log 1): this is what a step does on an empty queue, so that the steps the
manual makes at an expiry can come due. It changes nothing of the part but the time its timers are read against. -/
def tick (s : State) : State :=
  { s with now := s.now + 1 }

/-- Take the command at the front of the queue and give its meaning with the rest of the queue. -/
def step (s : State) : Host.Outcome State Fault Refusal :=
  match s.pending with
  | [] => .next (tick s)
  | c :: rest => exec c { s with pending := rest }

/-- The state with the command a word spells at the front of its queue; no row of the table gives bits, so no word
spells one and the state is unchanged. -/
def State.withFetchWord (s : State) (nbits w : Nat) : State :=
  match decodeTableWord nbits w with
  | some c => { s with pending := c :: s.pending }
  | none => s

end Sys2Proof.Machine
end

