-- ==== Sys2Proof/WellFormed.lean ====
section
/-! DEFINITION. The checks a command's operands must meet that their types do not state. -/

namespace Sys2Proof

/-- A measurement has 8 to 64 samples (R62: WINDOW is 8–64). -/
def samplesOk (samples : List Sample) : Bool :=
  decide (8 ≤ samples.length ∧ samples.length ≤ 64)

/-- A scan names each made contact once (R1: one reading of each contact at each scan). -/
def scanOk (made : List Contact) : Bool :=
  decide made.Nodup

/-- A command the part can be given. -/
def Instr.wellFormed : Instr → Bool
  | .measurementComplete samples => samplesOk samples
  | .contactScan made => scanOk made
  | _ => true

end Sys2Proof
end

