-- ==== Sys2Proof/Safety.lean ====
section
/-! DEFINITION. The terms claims are stated in: what a command leaves as it was, what waits for a unit, what a line
answers, and the invariants of the part. -/

namespace Sys2Proof.Machine

/-! ### What a command leaves as it was -/

/-- The parts of the state a command can leave as they were. -/
inductive Part
  | pending | now | resetHeld | strap | contacts
  | lever (n : Lever)
  | locking | track
  | port (p : Sec)
  | codes
  | section_ (x : Sec)
  | lastTrain | serviceState | boxSwitch | path
  | memory (p : Sec)
  | boxout | times | ring | clock
  | lampMap | lampShown | brightness | light | lampFrame | latches
  | rx | queue | replySlot | restartPhase | held | tx | classes | mark | reports
  | frame | inputs | switches | plungers | tappers | box | activity | demands | backReleases | changes | atR | autoTol
  | progress | handedCodes | exchange | readings | entries | serviceChanges
deriving DecidableEq, Repr

/-- A part is as it was. The lists a step's end may add to (R19, R32, R155 and the like) are kept when they are only
added to at their end, and the BELL latches when none that was set is cleared. -/
def Part.kept (s t : State) : Part → Prop
  | .pending => t.pending = s.pending
  | .now => t.now = s.now
  | .resetHeld => t.resetHeld = s.resetHeld
  | .strap => t.strap = s.strap
  | .contacts => t.contacts = s.contacts
  | .lever n => t.lever n = s.lever n
  | .locking => t.locking = s.locking
  | .track => t.track = s.track
  | .port p => t.port p = s.port p
  | .codes => t.codes = s.codes
  | .section_ x => t.section_ x = s.section_ x
  | .lastTrain => t.lastTrain = s.lastTrain
  | .serviceState => t.service.state = s.service.state
  | .boxSwitch => t.service.position = s.service.position ∧ t.service.refusal = s.service.refusal
  | .path => t.service.path = s.service.path
  | .memory p => t.memory p = s.memory p
  | .boxout => t.service.boxout = s.service.boxout
  | .times => t.times = s.times ∧ t.timesLoaded = s.timesLoaded
  | .ring => t.register.ring = s.register.ring ∧ t.register.next = s.register.next
  | .clock => t.register.clock = s.register.clock
  | .lampMap => t.diagram.stored = s.diagram.stored ∧ t.diagram.ops = s.diagram.ops
  | .lampShown => t.diagram.bound = s.diagram.bound ∧ t.diagram.host = s.diagram.host
  | .brightness => t.diagram.bright = s.diagram.bright ∧ t.diagram.dim = s.diagram.dim
  | .light => t.diagram.level = s.diagram.level ∧ t.diagram.idleFrom = s.diagram.idleFrom
  | .lampFrame => t.diagram.half = s.diagram.half ∧ t.diagram.flashCount = s.diagram.flashCount ∧
      t.diagram.period = s.diagram.period ∧ t.diagram.div = s.diagram.div ∧ t.diagram.current = s.diagram.current ∧
      t.diagram.started = s.diagram.started ∧ t.diagram.published = s.diagram.published
  | .latches => ∀ p, s.diagram.latches.get p = true → t.diagram.latches.get p = true
  | .rx => t.link.building = s.link.building ∧ t.link.count = s.link.count ∧ t.link.long = s.link.long ∧
      t.link.framing = s.link.framing
  | .queue => t.link.queue = s.link.queue
  | .replySlot => t.link.slot = s.link.slot ∧ t.link.owed = s.link.owed ∧ t.link.keptWords = s.link.keptWords
  | .restartPhase => t.link.restart = s.link.restart
  | .held => t.link.heldWords = s.link.heldWords
  | .tx => t.link.sending = s.link.sending
  | .classes => t.link.classes = s.link.classes
  | .mark => t.link.mark = s.link.mark
  | .reports => s.link.reports <+: t.link.reports
  | .frame => t.inbox.frame = s.inbox.frame
  | .inputs => t.inbox.inputs = s.inbox.inputs
  | .switches => t.inbox.switches = s.inbox.switches
  | .plungers => t.inbox.plungers = s.inbox.plungers
  | .tappers => t.inbox.tappers = s.inbox.tappers
  | .box => t.inbox.box = s.inbox.box
  | .activity => t.inbox.activity = s.inbox.activity
  | .demands => t.inbox.demands = s.inbox.demands
  | .backReleases => t.inbox.backReleases = s.inbox.backReleases
  | .changes => s.inbox.changes <+: t.inbox.changes
  | .atR => t.inbox.atR = s.inbox.atR
  | .autoTol => s.inbox.autoTol <+: t.inbox.autoTol
  | .progress => s.inbox.progress <+: t.inbox.progress
  | .handedCodes => t.inbox.codes = s.inbox.codes
  | .exchange => t.inbox.exchange = s.inbox.exchange
  | .readings => t.inbox.readings = s.inbox.readings
  | .entries => s.inbox.entries <+: t.inbox.entries
  | .serviceChanges => s.inbox.service <+: t.inbox.service

/-- Every part but those listed is as it was. -/
def keepsAllBut (changed : List Part) (s t : State) : Prop :=
  ∀ p : Part, p ∉ changed → p.kept s t

def everyLever : List Part := allLevers.map .lever

def everySection : List Part := [.section_ .a, .section_ .b, .section_ .c]

/-- A port and the port it is joined to in through working. -/
def portAndPair (p : Sec) : List Part :=
  .port p :: (p.throughPair.toList.map .port)

/-- The parts the handling of a line writes: the queue, the reply slot and the held words. -/
def lineParts : List Part := [.queue, .replySlot, .held]

/-- The units of the part (00_scope.md 1.3), with the requests taken together. -/
inductive Family
  | reset | contacts | levers | locking | track | bell | block | service | register | diagram | link | requests
deriving DecidableEq, Repr

/-- The unit whose step a command is. -/
def Instr.family : Instr → Family
  | .reset _ | .resetRelease | .restartPowerUp _ | .initialisationComplete => .reset
  | .contactScan _ => .contacts
  | .grip _ | .gripEnd _ | .leavingN _ | .leavingR _ | .arrivalAtN _ | .arrivalAtR _ | .bothMade _ | .bothContactsBreak _
  | .freedomWithdrawn _ | .backLockRelease _ | .travelLimitExpiry _ => .levers
  | .provingInputChange _ | .reTest | .timeReleaseExpiry _ => .locking
  | .scanFrameStart | .measurementComplete _ | .scanFrameComplete => .track
  | .bellSenseSample _ _ | .startOfBeat _ | .endOfBeat _ | .beatHeld _ | .codeComplete _ | .tapperPress _ | .tapperRelease _
  | .stretchEnd _ | .tapperHeldCut _ | .collision _ | .strokeEnd _ | .repeatEnd _ | .repeatClash _ => .bell
  | .outCodeTaken _ | .inCodeTaken _ | .indicatorSample _ _ | .indicatorSettled _ | .unsettledTimeout _ | .arrivalAtLC _
  | .arrivalAtTOL _ | .arrivalAtLB _ | .blockControlArrival _ | .autoTol _ | .progressCheck _ | .releasePlungerPress _
  | .emergencyTimerExpiry _ => .block
  | .codeExchangeUpdate _ | .throughIndicatorRepeat _ | .arrivalAtOut | .arrivalAtIn => .service
  | .registerAppend _ | .clockTick => .register
  | .diagramFrameStart | .diagramFrameComplete | .signallerActivity | .idleTimeout | .diagramServiceChange => .diagram
  | .characterReceived _ | .faultedLine | .busyReply | .unknownKeyword | .moreLine | .lineSent => .link
  | .ident | .mode | .more | .notify | .lev | .lock | .tc | .sec | .code | .lamp | .times | .boxout | .eraseLev | .eraseLock
  | .eraseTc | .eraseSec | .eraseCode | .eraseLamp | .eraseBoxout | .check | .start | .withdraw | .restart | .tuneTc
  | .tuneGroup | .clearTc | .clearLev | .clock | .bright | .dim | .paint | .showLev | .showTc | .showSec | .showBox
  | .showGroup | .showLamp | .rawTc | .reg => .requests

/-- The parts that a command of a unit other than the reset may write: everything else it leaves as it was. -/
def writes : Instr → List Part
  | .reset _ | .restartPowerUp _ => []
  | .resetRelease => [.resetHeld]
  | .initialisationComplete => [.serviceState, .light] ++ everyLever
  | .contactScan _ =>
    [.contacts, .frame, .inputs, .switches, .plungers, .tappers, .box, .activity, .boxSwitch] ++ everySection
  | .grip n | .gripEnd n | .leavingN n | .leavingR n | .arrivalAtN n | .bothMade n | .bothContactsBreak n => [.lever n, .frame]
  | .arrivalAtR n => [.lever n, .frame, .atR]
  | .freedomWithdrawn n => [.lever n, .demands]
  | .backLockRelease n => [.lever n, .backReleases]
  | .travelLimitExpiry n => [.lever n]
  | .provingInputChange _ => [.inputs]
  | .reTest => [.changes, .demands, .backReleases] ++ everyLever
  | .timeReleaseExpiry n => [.lever n, .backReleases]
  | .scanFrameStart | .measurementComplete _ | .scanFrameComplete => [.track]
  | .bellSenseSample p _ | .beatHeld p | .strokeEnd p | .stretchEnd p | .tapperHeldCut p => [.port p]
  | .startOfBeat p => [.path, .handedCodes, .exchange] ++ portAndPair p
  | .endOfBeat p | .repeatEnd p | .repeatClash p => .path :: portAndPair p
  | .codeComplete p | .collision p => [.port p, .handedCodes, .exchange]
  | .tapperPress p | .tapperRelease p => [.port p, .tappers]
  | .outCodeTaken x | .inCodeTaken x => [.section_ x, .lastTrain, .handedCodes]
  | .indicatorSample x _ | .emergencyTimerExpiry x => [.section_ x]
  | .indicatorSettled x | .unsettledTimeout x => [.section_ x, .readings]
  | .arrivalAtLC x | .arrivalAtTOL x | .arrivalAtLB x => [.section_ x, .switches]
  | .blockControlArrival _ => .atR :: everySection
  | .autoTol x | .progressCheck x => [.section_ x, .autoTol, .progress]
  | .releasePlungerPress x => [.section_ x, .plungers]
  | .codeExchangeUpdate p => [.exchange, .memory p] ++ p.throughPair.toList.map .memory
  | .throughIndicatorRepeat p => .readings :: p.throughPair.toList.map .section_
  | .arrivalAtOut | .arrivalAtIn =>
    [.box, .serviceState, .boxSwitch, .path, .memory .a, .memory .b, .port .a, .port .b] ++ everySection
  | .registerAppend _ => [.ring, .mark, .entries]
  | .clockTick => [.clock]
  | .diagramFrameStart => [.lampMap, .lampShown, .lampFrame, .latches]
  | .diagramFrameComplete => [.lampFrame]
  | .signallerActivity => [.activity, .light]
  | .idleTimeout => [.light]
  | .diagramServiceChange => [.serviceChanges, .light]
  | .characterReceived _ => [.rx, .queue, .held]
  | .faultedLine | .unknownKeyword | .moreLine => lineParts
  | .busyReply => [.replySlot]
  | .lineSent => [.replySlot, .tx, .restartPhase, .mark, .reports]
  | .ident | .mode | .more | .check | .showLev | .showTc | .showSec | .showBox | .showGroup | .showLamp | .rawTc | .reg =>
    lineParts
  | .notify => lineParts ++ [.classes, .reports, .mark]
  | .lev | .eraseLev | .clearLev => lineParts ++ everyLever
  | .lock | .eraseLock => lineParts ++ [.locking]
  | .tc | .eraseTc | .tuneTc | .tuneGroup | .clearTc => lineParts ++ [.track]
  | .sec | .eraseSec => lineParts ++ everySection
  | .code | .eraseCode => lineParts ++ [.codes]
  | .lamp | .eraseLamp => lineParts ++ [.lampMap]
  | .times => lineParts ++ [.times]
  | .boxout | .eraseBoxout => lineParts ++ [.boxout]
  | .start => lineParts ++ [.lastTrain, .serviceState, .changes] ++ everyLever ++ everySection
  | .withdraw => lineParts ++ [.serviceState, .port .a, .port .b, .port .c] ++ everySection
  | .restart => lineParts ++ [.restartPhase]
  | .clock => lineParts ++ [.clock, .ring, .mark]
  | .bright | .dim => lineParts ++ [.brightness]
  | .paint => lineParts ++ [.lampShown]

/-! ### What waits for a unit -/

/-- The event a lever's unit takes next is `e`. -/
abbrev State.leverWaits (s : State) (n : Lever) (e : LeverEvent) : Prop :=
  (s.inbox.frame.find? fun h => decide (h.1 = n)) = some (n, e)

/-- The arrival a section's switch shows next is at `i`. -/
abbrev State.switchWaits (s : State) (x : Sec) (i : Ind) : Prop :=
  (s.inbox.switches.find? fun h => decide (h.1 = x)) = some (x, i)

/-- The tapper event of a port taken next is a press, or a release. -/
abbrev State.tapperWaits (s : State) (p : Sec) (press : Bool) : Prop :=
  (s.inbox.tappers.find? fun h => decide (h.1 = p)) = some (p, press)

/-- The code a section takes next. -/
abbrev State.codeWaits (s : State) (x : Sec) (h : CodeHanded) : Prop :=
  (s.inbox.codes.find? fun k => decide (k.port = x)) = some h

/-- The code the Service controller takes next from a port. -/
abbrev State.exchangeWaits (s : State) (p : Sec) (h : CodeHanded) : Prop :=
  (s.inbox.exchange.find? fun k => decide (k.port = p)) = some h

/-- The box switch arrival taken next. -/
abbrev State.boxWaits (s : State) (b : BoxPos) : Prop :=
  s.inbox.box.head? = some b

/-- Of what was handed to a unit, in a list, the first that is the taker's (`mine`) leaves it if it is what the command
takes (`due`); the others stay in their order, and where none is the taker's all stay. -/
def tookFirst {α : Type} (mine due : α → Prop) (before after : List α) : Prop :=
  ((∀ g ∈ before, ¬mine g) → after = before) ∧
    ∀ (pre : List α) (h : α) (post : List α), before = pre ++ h :: post → (∀ g ∈ pre, ¬mine g) → mine h →
      (due h → after = pre ++ post) ∧ (¬due h → after = before)

/-- Each hand-off a command takes leaves its list, and the others stay in their order (R127 for the entries of a unit). A
change of a section's first arrival track from CLEAR is in two lists, and leaves both with the step that takes it (R109,
R111; log 40). -/
def Instr.takes (c : Instr) (s t : State) : Prop :=
  let event := fun (n : Lever) (e : LeverEvent) => tookFirst (·.1 = n) (·.2 = e) s.inbox.frame t.inbox.frame
  let arrival := fun (x : Sec) (i : Ind) => tookFirst (·.1 = x) (·.2 = i) s.inbox.switches t.inbox.switches
  let tapper := fun (p : Sec) (press : Bool) => tookFirst (·.1 = p) (·.2 = press) s.inbox.tappers t.inbox.tappers
  let any := fun {α : Type} (_ : α) => True
  let falls := fun (x : Sec) (h : TrackHanded) => h.sec = x ∧ h.was = .clear ∧
    ∃ r rest, (s.section_ x).record = some r ∧ r.arrival = h.circuit :: rest
  let autoActs := fun (x : Sec) => (s.section_ x).state = .clearIn ∧
    ∃ r, (s.section_ x).record = some r ∧ r.autotol = true ∧ r.arrival ≠ []
  match c with
  | .grip n => event n .grip
  | .gripEnd n => event n .gripEnd
  | .leavingN n => event n .leavingN
  | .leavingR n => event n .leavingR
  | .arrivalAtN n => event n .arrivalN
  | .arrivalAtR n => event n .arrivalR
  | .bothMade n => event n .bothMade
  | .bothContactsBreak n => event n .bothBreak
  | .freedomWithdrawn n => tookFirst (· = n) any s.inbox.demands t.inbox.demands
  | .backLockRelease n => tookFirst (· = n) any s.inbox.backReleases t.inbox.backReleases
  | .provingInputChange g => tookFirst (· = g) any s.inbox.inputs t.inbox.inputs
  | .reTest => tookFirst any any s.inbox.changes t.inbox.changes
  | .tapperPress p => tapper p true
  | .tapperRelease p => tapper p false
  | .outCodeTaken x => tookFirst (·.port = x) (·.dir = .outgoing) s.inbox.codes t.inbox.codes
  | .inCodeTaken x => tookFirst (·.port = x) (·.dir ≠ .outgoing) s.inbox.codes t.inbox.codes
  | .arrivalAtLC x => arrival x .lc
  | .arrivalAtTOL x => arrival x .tol
  | .arrivalAtLB x => arrival x .lb
  | .blockControlArrival n => tookFirst (· = n) any s.inbox.atR t.inbox.atR
  | .autoTol x => tookFirst (· = x) any s.inbox.autoTol t.inbox.autoTol ∧
    (x ∈ s.inbox.autoTol → tookFirst (falls x) any s.inbox.progress t.inbox.progress) ∧
    (x ∉ s.inbox.autoTol → t.inbox.progress = s.inbox.progress)
  | .progressCheck x =>
    let due := fun (h : TrackHanded) => ¬(falls x h ∧ x ∈ s.inbox.autoTol ∧ autoActs x)
    tookFirst (·.sec = x) due s.inbox.progress t.inbox.progress ∧
      (∀ pre h post, s.inbox.progress = pre ++ h :: post → (∀ g ∈ pre, g.sec ≠ x) → h.sec = x → due h →
        (falls x h → tookFirst (· = x) any s.inbox.autoTol t.inbox.autoTol) ∧
        (¬falls x h → t.inbox.autoTol = s.inbox.autoTol)) ∧
      (t.inbox.progress = s.inbox.progress → t.inbox.autoTol = s.inbox.autoTol)
  | .releasePlungerPress x => tookFirst (· = x) any s.inbox.plungers t.inbox.plungers
  | .codeExchangeUpdate p => tookFirst (·.port = p) any s.inbox.exchange t.inbox.exchange
  | .throughIndicatorRepeat p => tookFirst (· = p) any s.inbox.readings t.inbox.readings
  | .arrivalAtOut => tookFirst any (· = .out) s.inbox.box t.inbox.box
  | .arrivalAtIn => tookFirst any (· = .inn) s.inbox.box t.inbox.box
  | .registerAppend u => tookFirst (·.1 = u) any s.inbox.entries t.inbox.entries
  | .signallerActivity => tookFirst any any s.inbox.activity t.inbox.activity
  | .diagramServiceChange => tookFirst any any s.inbox.service t.inbox.service
  | _ => True

/-! ### What a line answers -/

/-- A line whose handling is next is a request of a row with these words. -/
abbrev State.asks (s : State) (row : Instr) (ws : List Text) : Prop :=
  s.front? = some (.request row ws)

/-- The front line has been answered with a reply of these words and has left the queue, with what it owes. -/
abbrev repliesWith (ws : List Text) (s t : State) : Prop :=
  t.link.slot = some (cutWords ws Config.maxText).1 ∧ t.link.keptWords = (cutWords ws Config.maxText).2 ∧
    t.link.queue = s.link.queue.drop 1 ∧ t.link.owed = s.link.frontTally ∧ t.link.heldWords = []

/-- The front line has been answered with a reply of these words, and nothing but the line it was has changed. -/
abbrev answersOnly (row : Instr) (ws : List Text) (s : State) : Prop :=
  ∃ t, exec row s = .next t ∧ repliesWith ws s t ∧ keepsAllBut lineParts s t

/-- The service states that accept each request (R151's table). -/
def acceptedIn : Instr → List ServiceState
  | .ident | .mode => [.powerUp, .configure, .inService, .switchedOut]
  | .lev | .lock | .tc | .sec | .code | .lamp | .times | .boxout | .eraseLev | .eraseLock | .eraseTc | .eraseSec | .eraseCode
  | .eraseLamp | .eraseBoxout | .check | .start | .restart => [.configure]
  | .withdraw => [.inService]
  | _ => [.configure, .inService, .switchedOut]

/-! ### Contacts by name, and text received -/

/-- The debouncing of one contact. -/
def Contacts.contact (k : Contacts) : Contact → ContactState
  | .leverN n => k.levers[n].n
  | .leverR n => k.levers[n].r
  | .leverH n => k.levers[n].h
  | .proving g => k.proving[g]
  | .switchLC x => (k.switches.get x).lc
  | .switchTOL x => (k.switches.get x).tol
  | .tapper p => k.tappers.get p
  | .plunger x => k.plungers.get x
  | .box => k.box

/-- The characters of a text are received one after another, and the state passes from `s` to `t`. -/
def receives : Text → State → State → Prop
  | [], s, t => t = s
  | c :: cs, s, t =>
    ∃ u, exec (.characterReceived (.byte (BitVec.ofNat 8 c.toNat))) s = .next u ∧ receives cs u t

/-! ### Records as their load rules allow them -/

/-- A lever record that R5 refuses nowhere and clamps nowhere. -/
abbrev LevRecord.valid (r : LevRecord) : Prop :=
  r.tracks.length ≤ 4 ∧ (r.tracks.map (·.circuit)).Nodup ∧ r.provings.length ≤ 2 ∧ (r.provings.map (·.input)).Nodup ∧
    (r.kind = .signal → (∀ t ∈ r.tracks, t.applies = .leaveN) ∧ ∀ p ∈ r.provings, p.applies = .leaveN) ∧
    (r.kind ≠ .signal → r.block = none ∧ r.approach = none) ∧
    (r.kind = .spare → r.tracks = [] ∧ r.provings = []) ∧
    ∀ a ∈ r.approach, a.circuits ≠ [] ∧ a.circuits.length ≤ 3 ∧ a.circuits.Nodup ∧ 10 ≤ a.time ∧ a.time ≤ 600

/-- A locking entry of at most two conditions, of two levers, in lever order (R21, R22, R160). -/
abbrev LockEntry.valid (e : LockEntry) : Prop :=
  e.conds.length ≤ 2 ∧ (e.conds.map (·.lever)).Nodup ∧ sortTerms e.conds = e.conds

/-- A track circuit record with every value in its range (chapter 3's table). -/
abbrev TcRecord.valid (r : TcRecord) : Prop :=
  (r.coarse = 1 ∨ r.coarse = 2 ∨ r.coarse = 4 ∨ r.coarse = 8) ∧ (32 ≤ r.fine ∧ r.fine ≤ 63) ∧
    (8 ≤ r.window ∧ r.window ≤ 64) ∧ (20 ≤ r.ref ∧ r.ref ≤ 2500) ∧ (16 ≤ r.drop ∧ r.drop ≤ 224) ∧
    (r.drop + 16 ≤ r.pick ∧ r.pick ≤ 240) ∧ (5 ≤ r.floor ∧ r.floor ≤ 500) ∧ (10 ≤ r.low ∧ r.low ≤ 1000) ∧
    (10 ≤ r.joint ∧ r.joint ≤ 500) ∧ (1 ≤ r.dropf ∧ r.dropf ≤ 4) ∧ (2 ≤ r.pickf ∧ r.pickf ≤ 100) ∧ r.phase ≤ 6 ∧
    r.inv ≤ 1 ∧ r.group ≤ 7

/-- A section record within the bounds of R95. -/
abbrev SecRecord.valid (r : SecRecord) : Prop :=
  r.accept.length ≤ 6 ∧ r.accept.Nodup ∧ r.clearing.length ≤ 4 ∧ r.clearing.Nodup ∧ r.arrival.length ≤ 4 ∧ r.arrival.Nodup

/-- A meaning whose class or number is in its range (R84, R85). -/
def Meaning.valid : Meaning → Bool
  | .offer n => decide (1 ≤ n ∧ n ≤ 15)
  | .info n => decide (1 ≤ n ∧ n ≤ 99)
  | _ => true

/-- A code table entry within the bounds of R85. -/
abbrev CodeEntry.valid (e : CodeEntry) : Prop :=
  (1 ≤ e.pattern.length ∧ e.pattern.length ≤ 5) ∧ (∀ g ∈ e.pattern, 1 ≤ g ∧ g ≤ 9) ∧ e.meaning.valid = true

/-- A TIMES record with every value in its range, and END at least JOIN and 200 ms (R16, R48, R80, R98, R113, R119,
R133). -/
abbrev Times.valid (t : Times) : Prop :=
  (5 ≤ t.travel ∧ t.travel ≤ 60) ∧ (20 ≤ t.frame ∧ t.frame ≤ 250) ∧ (4 ≤ t.reverse ∧ t.reverse ≤ 64) ∧
    (t.proof = 0 ∨ 5 ≤ t.proof ∧ t.proof ≤ 200) ∧ (4 ≤ t.track ∧ t.track ≤ 8) ∧ (10 ≤ t.beatmin ∧ t.beatmin ≤ 100) ∧
    (150 ≤ t.beatmax ∧ t.beatmax ≤ 1000) ∧ (200 ≤ t.join ∧ t.join ≤ 1000) ∧ (1000 ≤ t.endWait ∧ t.endWait ≤ 5000) ∧
    t.join + 200 ≤ t.endWait ∧ (20 ≤ t.stroke ∧ t.stroke ≤ 200) ∧ (100 ≤ t.indstable ∧ t.indstable ≤ 1000) ∧
    (30 ≤ t.emrel ∧ t.emrel ≤ 600) ∧ (30 ≤ t.codewin ∧ t.codewin ≤ 600) ∧ (1 ≤ t.div ∧ t.div ≤ 16) ∧
    (250 ≤ t.flashms ∧ t.flashms ≤ 1000) ∧ t.idle ≤ 120 ∧ t.darkout ≤ 1 ∧ t.rowrev ≤ 1 ∧ t.colrev ≤ 1

/-- A switch-out list of at most 8 distinct levers, in lever order (R117, R160). -/
abbrev boxoutValid (ts : List LeverTerm) : Prop :=
  ts.length ≤ 8 ∧ (ts.map (·.lever)).Nodup ∧ sortTerms ts = ts

/-- The states of a SECTION source are one or more, in the table's order. -/
def Source.valid : Source → Bool
  | .sec _ states => !states.isEmpty && decide (sortStates states = states)
  | _ => true

/-- A binding that R137 refuses nowhere: HOST and ALARM carry no mode and no invert. -/
abbrev Binding.valid (b : Binding) : Prop :=
  b.source.valid = true ∧ (b.source.takesMode = false → b.flash = false ∧ b.invert = false)

/-! ### Invariants -/

/-- A lever's lock and timers agree with its state (R7, R16, R18, R35), and no lock is energised and no lever
back-locked outside IN_SERVICE, nor for a lever without a record (R6, R18, R20). -/
def State.leverOk (s : State) (n : Lever) : Prop :=
  let l := s.lever n
  (l.pos.isFree = true → l.lock = true) ∧
    (l.lock = true → (l.pos.isFree = true ∨ l.pos = .travel) ∧ l.loaded = true ∧ s.service.state = .inService) ∧
    (l.limit.isSome = true ↔ l.pos = .travel ∧ l.lock = true) ∧
    (l.pos = .backlocked ↔ l.backlock ≠ .idle) ∧
    (l.pos = .backlocked → l.loaded = true ∧ s.service.state = .inService)

def State.leversOk (s : State) : Prop :=
  ∀ n, s.leverOk n

/-- A section agrees with its state: its drive (R96), its flags and timer (R97), its train record (R110, R112). -/
def SectionData.ok (k : SectionData) : Prop :=
  (k.state ≠ .through → k.drive = driveOf k.state) ∧
    (k.releaseUnused = true → k.state = .clearOut) ∧
    (k.cancelHeard = true ∨ k.enteringHeard = true → k.state = .clearIn) ∧
    ¬(k.cancelHeard = true ∧ k.enteringHeard = true) ∧
    (k.timer.isSome = true ∨ k.released = true → k.state = .enteredIn) ∧
    (k.train.isSome = true ↔ k.state.holdsNone = false) ∧
    (∀ t, k.train = some t → 1 ≤ t.ident ∧ t.ident ≤ Config.maxTrainId ∧
      (t.inward = true ↔ k.state = .offerIn ∨ k.state = .clearIn ∨ k.state = .enteredIn)) ∧
    k.releases ≤ Config.maxReleases

/-- A section is worked as the service state has it (R96, R115): CLOSED without a record or outside service; in
SWITCHED_OUT, A and B THROUGH and C CLOSED; THROUGH at no other time. -/
def State.sectionFits (s : State) (x : Sec) : Prop :=
  let k := s.section_ x
  match s.service.state with
  | .powerUp | .configure => k.state = .closed
  | .inService => k.state ≠ .through ∧ (k.state = .closed ↔ k.record = none)
  | .switchedOut => if x = .c then k.state = .closed else k.state = .through ∧ k.record.isSome = true

/-- In service a BOXOUT record means that A and B are loaded (R117, R162). -/
def State.boxoutFits (s : State) : Prop :=
  (s.service.state = .inService ∨ s.service.state = .switchedOut) → s.service.boxout.isSome = true →
    (s.section_ .a).record.isSome = true ∧ (s.section_ .b).record.isSome = true

def State.sectionsOk (s : State) : Prop :=
  (∀ x, (s.section_ x).ok ∧ s.sectionFits x) ∧ s.boxoutFits ∧ s.lastTrain ≤ Config.maxTrainId

/-- Sequence numbers rise by one from `q` (R127). -/
def numberedFrom : Seq → List RegEntry → Prop
  | _, [] => True
  | q, e :: es => e.seq = q ∧ numberedFrom (q + 1) es

/-- The ring holds at most 256 entries with consecutive numbers, the newest one before the next to come, and the clock
a time of day (R127, R129). -/
def Register.ok (r : Register) : Prop :=
  r.ring.length ≤ Config.maxRegister ∧ numberedFrom (r.next - BitVec.ofNat 16 r.ring.length) r.ring ∧
    r.clock.tenths < Config.tenthsPerDay ∧ r.clock.day < 65536

/-- The link's bounds: two lines waiting, tallies and owed replies up to 255, a line of at most 120 characters
(R145, R146); each item once in the pending set and only of a notified class, a send mark while REG is on (R155, R156). -/
def Link.ok (k : Link) : Prop :=
  k.queue.length ≤ Config.maxWaiting ∧ (∀ w ∈ k.queue, w.tally ≤ Config.maxTally) ∧ k.owed ≤ Config.maxTally ∧
    k.building.length ≤ k.count ∧ k.building.length ≤ Config.maxLine ∧ k.count ≤ Config.maxLine + 1 ∧ k.reports.Nodup ∧
    (∀ i ∈ k.reports, k.classes.has i = true) ∧ (k.mark.isSome = true ↔ k.classes.reg = true)

def State.registerOk (s : State) : Prop :=
  s.register.ok ∧ s.link.ok

/-- A code in assembly holds 1 to 5 groups of 1 to 9 beats (R83). -/
def Code.ok (c : Code) : Prop :=
  1 ≤ c.groups.length ∧ c.groups.length ≤ Config.maxGroups ∧ ∀ g ∈ c.groups, 1 ≤ g ∧ g ≤ Config.maxBeats

/-- A port's owner, code, drive and pulses agree (R82, R86, R122): a code is held exactly while the line is owned; an
outgoing beat is an OUT owner's, and its code's last beat has not ended; the drive is on for an outgoing beat or a
repeat, and for one of them only; only the oldest pulse is a beat, of an IN owner's code whose last beat it is. -/
def PortData.ok (k : PortData) : Prop :=
  (k.owner = .free ↔ k.code = none) ∧
    (∀ c, k.code = some c → c.ok ∧ (c.dir = .outgoing ↔ k.owner = .outgoing)) ∧
    (k.out.isSome = true → k.owner = .outgoing ∧ ∀ c, k.code = some c → c.lastEnd = none) ∧
    (k.drive = true ↔ k.out.isSome = true ∨ k.rpt.isSome = true) ∧
    ¬(k.out.isSome = true ∧ k.rpt.isSome = true) ∧
    (∀ u ∈ k.pulses, u.beat = true → k.owner = .incoming ∧ ∀ c, k.code = some c → c.lastEnd = none) ∧
    ∀ u ∈ k.pulses.tail, u.beat = false

/-- Every port is in order, and a repeat is driven only in SWITCHED_OUT, an outgoing beat only where a tapper works
(R86, R93, R122). -/
def State.portsOk (s : State) : Prop :=
  ∀ p, (s.port p).ok ∧ ((s.port p).rpt.isSome = true → s.service.state = .switchedOut ∧ p ≠ .c) ∧
    ((s.port p).out.isSome = true → s.tapperWorks p = true)

/-- A record's clear level is one the reference can hold (chapter 3's table: REF 20–2500). -/
def TcRecord.refOk (r : TcRecord) : Prop :=
  r.ref ≤ 2500

def TrackOp.refOk : TrackOp → Prop
  | .load _ r => r.refOk
  | .tune _ vals => ∀ e ∈ vals, e.1 = .ref → e.2 ≤ 2500
  | .erase | .clear _ => True

/-- The Track unit's bounds: the generator never zero (R51), every reference 0–40000 (R61, R68), every record that can
set one in range. -/
def State.trackOk (s : State) : Prop :=
  s.track.gen ≠ 0 ∧ (∀ o ∈ s.track.ops, o.refOk) ∧
    ∀ t, (s.circuit t).q ≤ Config.maxReference ∧ (∀ r, (s.circuit t).live = some r → r.refOk) ∧
      (s.circuit t).low ≤ Config.maxCount ∧ (s.circuit t).high ≤ Config.maxCount ∧ (s.circuit t).reverse ≤ Config.maxCount

end Sys2Proof.Machine
end

