-- ==== Sys2Proof/Certificates/Slice0/Obligations.lean ====
section
/-! DEFINITION. The statements for the provers, by unit. A statement about a command has as its conclusion that `exec`
answers a next state, and says what that state holds; the frame statements say what it leaves as it was. -/

section
open Sys2Proof Sys2Proof.Machine

/-! ### The block as a whole -/

/-- A step runs the command at the front of the queue, with the rest of the queue left. -/
def Obligations.StepTakesTheFrontCommand : Prop :=
  ∀ (c : Instr) (rest : List Instr) (s : State),
    step { s with pending := c :: rest } = exec c { s with pending := rest }

/-- No command stops the part, and none touches the queue of commands or the model's time (the model's own, log 1). What a
command other than a reset changes is handed on at its end: a lever's state, a track state, a section's state and a release
to the Locking unit; the first arrival track's change to not CLEAR for auto-TOL, and any arrival or clearing track's change
to its section; a track's and a section's change bring the state before it, in which the reader holds it until it takes the
change (log 40); each change of service state; a SECTION entry for each change of a section's state, with the id of the
record held before it or after it, auto where AUTO_TOL makes it, and the TRAIN entry of a record it ends right behind it; no
SECTION entry but of such a change or of a state to itself; a DISAGREE entry where a section's or the box's disagree becomes
true, after the unit's other entries (of several sections in the order A, B, C: DESIGN CHOICE, log 42); a changed item to the
pending set where its class is on (the states compared: log 4; of a running emergency timer the start and the stop only:
DEDUCED, log 37); and a BELL latch where a beat in progress becomes true. What a command takes from a list is said in
`FrameOfRailwayUnits` and `FrameOfRegisterDiagramAndRequests`, and START clears the changes (R41). -/
def Obligations.EveryCommandGoesOn : Prop :=
  (∀ (c : Instr) (s : State), ∃ t, exec c s = .next t ∧ t.pending = s.pending ∧ t.now = s.now) ∧
  ∀ (c : Instr) (s t : State), (∀ b, c ≠ .reset b ∧ c ≠ .restartPowerUp b) → exec c s = .next t →
    let arrival := fun (x : Sec) => ((t.section_ x).record.map (·.arrival)).getD []
    let clearing := fun (x : Sec) => ((t.section_ x).record.map (·.clearing)).getD []
    let disagrees := fun (u : State) (x : Sec) => decide ((u.section_ x).state ≠ .closed ∧
      (u.section_ x).state ≠ .through ∧ (u.section_ x).position ≠ (u.section_ x).drive)
    let boxDisagrees := fun (u : State) => decide ((u.service.state = .inService ∧ u.service.position = .out) ∨
      (u.service.state = .switchedOut ∧ u.service.position = .inn))
    let lev := fun (u : State) (n : Lever) =>
      ((u.lever n).pos, (u.lever n).lock, (u.lever n).refused, (u.lever n).forced, (u.lever n).stalled)
    let sec := fun (u : State) (x : Sec) =>
      let k := u.section_ x
      ((k.state, k.drive, k.releaseUnused, k.cancelHeard, k.enteringHeard, k.timer, k.released, k.releases, k.reading),
        k.position, k.train, k.sentMark, k.rcvdMark, (u.port x).held, (u.port x).suppressed, (u.port x).sent,
        (u.port x).rcvd)
    let box := fun (u : State) => (u.service.state, u.service.position, boxDisagrees u, u.service.refusal, u.track.actual,
      u.track.extended)
    let changed := fun (i : Item) =>
      match i with
      | .lev n => (t.lever n).record ≠ none ∧ lev s n ≠ lev t n
      | .tc k => (s.circuit k).state ≠ (t.circuit k).state
      | .sec x => sec s x ≠ sec t x
      | .box => box s ≠ box t
    let beat := fun (u : State) (p : Sec) => (u.port p).drive = true ∨ ∃ w ∈ (u.port p).pulses, w.beat = true
    (c ≠ .reTest → c ≠ .start → ∃ added, t.inbox.changes = s.inbox.changes ++ added ∧
      (∀ n, .lever n ∈ added ↔ (t.lever n).record ≠ none ∧ ((s.lever n).pos ≠ (t.lever n).pos ∨
        ((s.lever n).pos = .travel ∧ (s.lever n).lock = true ∧ (t.lever n).lock = false))) ∧
      (∀ k, (s.circuit k).state ≠ (t.circuit k).state → .track k (s.circuit k).state ∈ added) ∧
      (c ≠ .scanFrameStart → ∀ k was, .track k was ∈ added →
        (s.circuit k).state ≠ (t.circuit k).state ∧ was = (s.circuit k).state) ∧
      ∀ x, (∀ was, .sec x was ∈ added ↔ (s.section_ x).state ≠ (t.section_ x).state ∧ was = (s.section_ x).state) ∧
        (.release x ∈ added ↔ (s.section_ x).releaseUnused ≠ (t.section_ x).releaseUnused)) ∧
    ((∀ x, c ≠ .autoTol x ∧ c ≠ .progressCheck x) → ∃ added, t.inbox.autoTol = s.inbox.autoTol ++ added ∧ ∀ x,
      let falls := ∃ k rest, arrival x = k :: rest ∧ (s.circuit k).state = .clear ∧ (t.circuit k).state ≠ .clear
      (falls → x ∈ added) ∧ (c ≠ .scanFrameStart → x ∈ added → falls)) ∧
    ((∀ x, c ≠ .autoTol x ∧ c ≠ .progressCheck x) → ∃ added, t.inbox.progress = s.inbox.progress ++ added ∧ ∀ x k,
      let moves := (k ∈ arrival x ∨ k ∈ clearing x) ∧ (s.circuit k).state ≠ (t.circuit k).state
      (moves → ⟨x, k, (s.circuit k).state⟩ ∈ added) ∧
        (c ≠ .scanFrameStart → ∀ was, ⟨x, k, was⟩ ∈ added → moves ∧ was = (s.circuit k).state)) ∧
    (c ≠ .diagramServiceChange → t.inbox.service = s.inbox.service ++
      (if s.service.state = t.service.state then [] else [(s.service.state, t.service.state)])) ∧
    ((∀ u, c ≠ .registerAppend u) → ∃ own, (∀ u x, (u, RegBody.disagree x) ∉ own) ∧
      (∀ x,
        let a := s.section_ x
        let b := t.section_ x
        (∀ old new ident auto, (RegUnit.block, RegBody.change x old new ident auto) ∈ own →
          old = a.state ∧ new = b.state) ∧
        (a.state ≠ b.state → ∃ before after outcome,
          own = before ++
            (RegUnit.block, RegBody.change x a.state b.state ((a.train.or b.train).map (·.ident))
              (decide (c = .autoTol x))) ::
            (match a.train, b.train with
              | some r, none => [(RegUnit.block, RegBody.train r.ident x r.inward r.cls outcome r.offered r.entered)]
              | _, _ => []) ++ after ∧
          ∀ old new ident auto, (RegUnit.block, RegBody.change x old new ident auto) ∉ before ++ after)) ∧
      t.inbox.entries = s.inbox.entries ++ own ++
        ([Sec.a, .b, .c].filter fun x => !disagrees s x && disagrees t x).map
          (fun x => (RegUnit.block, RegBody.disagree (some x))) ++
        (if !boxDisagrees s && boxDisagrees t then [(RegUnit.service, RegBody.disagree none)] else [])) ∧
    (∀ i, changed i → t.link.classes.has i = true → i ∈ t.link.reports) ∧
    (c ∉ [Instr.start, .scanFrameStart] → (∀ x, c ≠ .outCodeTaken x ∧ c ≠ .inCodeTaken x) →
      ∀ i ∈ t.link.reports, i ∈ s.link.reports ∨ (changed i ∧ t.link.classes.has i = true)) ∧
    ∀ p, ¬beat s p → beat t p → t.diagram.latches.get p = true

/-- Commands of reset release, initialisation, the contact matrix, the lever frame, locking, the track circuits, the
bells, the block and the Service controller change only the parts `writes` names; what their changes hand on to other
units is only added to. What a command takes of the events, changes and codes handed to its unit leaves its list, and the
others stay in their order (the lists: log 4). -/
def Obligations.FrameOfRailwayUnits : Prop :=
  ∀ (c : Instr) (s t : State),
    Instr.family c ∈ [Family.contacts, .levers, .locking, .track, .bell, .block, .service] ∨
      c ∈ [Instr.resetRelease, .initialisationComplete] →
    exec c s = .next t → keepsAllBut (writes c) s t ∧ Instr.takes c s t

/-- Commands of the register, the diagram and the link, and every request, change only the parts `writes` names. The entry,
activity or change of service state one takes leaves its list, and the others stay in their order (the lists: log 4). -/
def Obligations.FrameOfRegisterDiagramAndRequests : Prop :=
  ∀ (c : Instr) (s t : State), Instr.family c ∈ [Family.register, .diagram, .link, .requests] →
    exec c s = .next t → keepsAllBut (writes c) s t ∧ Instr.takes c s t

/-! ### Reset and initialisation -/

/-- Right after reset every unit holds the values the manual states for POWER_UP; values the manual leaves open (log 3) are
not spoken of. The reset pin takes the part there from any state, with the strap read and every output and lamp line off; the end of
the sending of RESTART's reply does the same, with the pin not held; the pin's release ends the hold and nothing else.
The queue of commands and the model's time are the model's own (logs 1 and 5), and so is the moment at which a line of k
characters has been sent, k / 5760 s after it was chosen (DEDUCED, log 15). -/
def Obligations.ResetEntersPowerUp : Prop :=
  (let s := State.reset
   s.service.state = .powerUp ∧ s.outputs = Outputs.cleared ∧
     (∀ c, (s.contacts.contact c).reading = none) ∧
     (∀ n, (s.lever n).record = none ∧ (s.lever n).lock = false ∧ (s.lever n).refused = false ∧
       (s.lever n).forced = false ∧ (s.lever n).stalled = false ∧ (s.lever n).limit = none ∧ (s.lever n).backlock = .idle) ∧
     s.locking = [] ∧
     (∀ c, (s.circuit c).stored = none ∧ (s.circuit c).state = .disabled ∧ (s.circuit c).feed = none ∧
       (s.circuit c).stale = false ∧ (s.circuit c).retuned = false) ∧
     s.track.ops = [] ∧ s.track.params = ⟨50, 8, 20, 5⟩ ∧ s.track.gen = 1 ∧ s.track.reversals = 0 ∧ s.track.proofs = 0 ∧
     s.track.cursor = none ∧
     (∀ p, (s.port p).drive = false ∧ (s.port p).owner = .free ∧ (s.port p).code = none ∧ (s.port p).held = false ∧
       (s.port p).sounder = .off ∧ (s.port p).sensed = false ∧ (s.port p).lastSample = none ∧ (s.port p).sent = none ∧ (s.port p).rcvd = none) ∧
     s.codes = [] ∧
     (∀ x, (s.section_ x).record = none ∧ (s.section_ x).state = .closed ∧ (s.section_ x).drive = .lb ∧
       (s.section_ x).releaseUnused = false ∧ (s.section_ x).cancelHeard = false ∧
       (s.section_ x).enteringHeard = false ∧ (s.section_ x).timer = none ∧ (s.section_ x).released = false ∧
       (s.section_ x).releases = 0 ∧ (s.section_ x).reading = none ∧ (s.section_ x).unsettled = none ∧
       (s.section_ x).train = none) ∧
     nextTrain s.lastTrain = 1 ∧
     s.service.boxout = none ∧ s.service.refusal = none ∧ s.service.path = none ∧
     (∀ p, s.memory p = ⟨none, none, none, none⟩) ∧
     s.register.ring = [] ∧ s.register.next = 0 ∧ s.register.clock = ⟨0, 0, true⟩ ∧
     s.diagram.stored = [] ∧ s.diagram.bound = [] ∧ s.diagram.host = [] ∧ s.diagram.latches = ⟨false, false, false⟩ ∧
     s.diagram.bright = 200 ∧ s.diagram.dim = 40 ∧ s.diagram.level = .active ∧ s.diagram.half = true ∧
     s.diagram.flashCount = 0 ∧
     s.link.building = [] ∧ s.link.count = 0 ∧ s.link.queue = [] ∧ s.link.owed = 0 ∧ s.link.slot = none ∧
     s.link.sending = none ∧ s.link.classes = ⟨false, false, false, false, false⟩ ∧ s.link.reports = [] ∧
     s.link.mark = none ∧ s.link.heldWords = [] ∧ s.link.keptWords = [] ∧
     (∀ tick, s.lampLines tick = LampLines.off) ∧
     s.times = ⟨15, 50, 8, 20, 5, 30, 400, 450, 1800, .stroke, 60, 200, 120, 180, 4, 500, 30, 1, 0, 0⟩ ∧
     s.timesLoaded = false) ∧
  ∀ (s : State) (strap : Fin 4),
    (∃ t, exec (.reset strap) s = .next t ∧ t.outputs = Outputs.cleared ∧ (∀ tick, t.lampLines tick = LampLines.off) ∧
      t = { State.reset with pending := s.pending, now := s.now, resetHeld := true, strap := strap }) ∧
    (∀ k, s.link.restart = .replySending → s.link.sending = some k →
      (k.line.length * 1000 ≤ (s.now - k.since) * 5760 →
        ∃ t, exec (.restartPowerUp strap) s = .next t ∧ t.outputs = Outputs.cleared ∧
          (∀ tick, t.lampLines tick = LampLines.off) ∧
          t = { State.reset with pending := s.pending, now := s.now, resetHeld := false, strap := strap }) ∧
      ((s.now - k.since) * 5760 < k.line.length * 1000 → exec (.restartPowerUp strap) s = .next s)) ∧
    (∃ t, exec .resetRelease s = .next t ∧ t = { s with resetHeld := false })

/-- When every contact has its first reading, the part enters CONFIGURE: levers are read from their contacts, the block
switches and the box switch stay where their first readings, and the arrivals taken since, have left them, and the idle time
starts. Until then, and while the pin is held, the part stays in POWER_UP. -/
def Obligations.InitialisationReadsTheContacts : Prop :=
  ∀ s : State, s.service.state = .powerUp →
    (s.resetHeld = true ∨ (∃ c, (s.contacts.contact c).reading = none) →
      ∃ t, exec .initialisationComplete s = .next t ∧ t.service.state = .powerUp ∧ ∀ n, t.lever n = s.lever n) ∧
    (s.resetHeld = false → (∀ c, (s.contacts.contact c).reading ≠ none) →
      ∃ t, exec .initialisationComplete s = .next t ∧ t.service.state = .configure ∧ t.diagram.idleFrom = s.now ∧
        t.service.position = s.service.position ∧ (∀ x, t.section_ x = s.section_ x) ∧
        ∀ n,
          let made := fun c => (s.contacts.contact c).reading = some true
          let l := s.lever n
          (made (.leverN n) → ¬made (.leverR n) → t.lever n = { l with pos := .nLocked, lastEnd := some .n }) ∧
          (¬made (.leverN n) → made (.leverR n) → t.lever n = { l with pos := .rLocked, lastEnd := some .r }) ∧
          (made (.leverN n) → made (.leverR n) → t.lever n = { l with pos := .fault, lastEnd := none }) ∧
          (¬made (.leverN n) → ¬made (.leverR n) → t.lever n = { l with pos := .travel, lastEnd := none }))

/-! ### Contacts -/

/-- A reading takes the sensed value at the third scan in a row that senses it; a scan of the old value discards the
count; the first reading needs three scans that agree. -/
def Obligations.DebounceTakesThreeScans : Prop :=
  ∀ (made : List Contact) (s : State), s.resetHeld = false →
    ∃ t, exec (.contactScan made) s = .next t ∧ ∀ c,
      let a := s.contacts.contact c
      let b := t.contacts.contact c
      let v := decide (c ∈ made)
      (∀ r, a.reading = some r →
        (v = r → b.reading = some r ∧ b.count = 0) ∧
        (v ≠ r → a.count < 2 → b.reading = some r ∧ b.count = a.count + 1) ∧
        (v ≠ r → a.count = 2 → b.reading = some v ∧ b.count = 0)) ∧
      (a.reading = none →
        (a.count = 0 → b.reading = none ∧ b.seen = v ∧ b.count = 1) ∧
        (0 < a.count → v ≠ a.seen → b.reading = none ∧ b.seen = v ∧ b.count = 1) ∧
        (a.count = 1 → v = a.seen → b.reading = none ∧ b.seen = v ∧ b.count = 2) ∧
        (a.count = 2 → v = a.seen → b.reading = some v))

/-- What a scan hands on, in every service state. Each lever's events in the order grip, breaks, makes, grip end, as the
readings before and after it give them; each block switch's arrivals, a break before a make; each change of a proving input;
tapper, plunger and box switch events; and signaller activity. A first reading is no event; the first readings of a switch
give its position (a position, and its events, once both contacts of a lever or a block switch have readings: DEDUCED, log 6; two contacts that make, or two of a switch
that break, at one scan are one event: DESIGN CHOICE, log 48). -/
def Obligations.ScanHandsOnEventsInOrder : Prop :=
  ∀ (made : List Contact) (s : State), s.resetHeld = false →
    ∃ t, exec (.contactScan made) s = .next t ∧
      let was := fun c => (s.contacts.contact c).reading
      let is_ := fun c => (t.contacts.contact c).reading
      let makes := fun c => decide (was c = some false ∧ is_ c = some true)
      let breaks := fun c => decide (was c = some true ∧ is_ c = some false)
      (∀ n, ∃ moves : List LeverEvent,
        t.inbox.frame.filter (fun h => decide (h.1 = n)) = s.inbox.frame.filter (fun h => decide (h.1 = n)) ++
          ((if makes (.leverH n) then [LeverEvent.grip] else []) ++ moves ++
            (if breaks (.leverH n) then [LeverEvent.gripEnd] else [])).map (fun e => (n, e)) ∧
        (was (.leverN n) = none ∨ was (.leverR n) = none → moves = []) ∧
        ∀ n₀ r₀ n₁ r₁, was (.leverN n) = some n₀ → was (.leverR n) = some r₀ → is_ (.leverN n) = some n₁ →
          is_ (.leverR n) = some r₁ → moves =
            (match n₀, r₀, n₁, r₁ with
              | true, false, false, false => [.leavingN]
              | true, false, false, true => [.leavingN, .arrivalR]
              | false, true, false, false => [.leavingR]
              | false, true, true, false => [.leavingR, .arrivalN]
              | false, false, true, false => [.arrivalN]
              | false, false, false, true => [.arrivalR]
              | true, true, true, false => [.arrivalN]
              | true, true, false, true => [.arrivalR]
              | true, true, false, false => [.bothBreak]
              | true, false, true, true => [.bothMade]
              | false, true, true, true => [.bothMade]
              | false, false, true, true => [.bothMade]
              | true, false, true, false => []
              | false, true, false, true => []
              | true, true, true, true => []
              | false, false, false, false => [])) ∧
      (∀ x, ∃ arrivals : List Ind,
        t.inbox.switches.filter (fun h => decide (h.1 = x)) =
          s.inbox.switches.filter (fun h => decide (h.1 = x)) ++ arrivals.map (fun i => (x, i)) ∧
        (was (.switchLC x) = none ∨ was (.switchTOL x) = none → arrivals = []) ∧
        (∀ l₀ o₀ l₁ o₁, was (.switchLC x) = some l₀ → was (.switchTOL x) = some o₀ → is_ (.switchLC x) = some l₁ →
          is_ (.switchTOL x) = some o₁ → arrivals =
            (match l₀, o₀, l₁, o₁ with
              | true, false, false, false => [.lb]
              | true, false, false, true => [.lb, .tol]
              | false, true, false, false => [.lb]
              | false, true, true, false => [.lb, .lc]
              | false, false, true, false => [.lc]
              | false, false, false, true => [.tol]
              | true, true, true, false => [.lc]
              | true, true, false, true => [.tol]
              | true, true, false, false => [.lb]
              | true, false, true, true => []
              | false, true, true, true => []
              | false, false, true, true => []
              | true, false, true, false => []
              | false, true, false, true => []
              | true, true, true, true => []
              | false, false, false, false => [])) ∧
        (∀ l o, was (.switchLC x) = none ∨ was (.switchTOL x) = none → is_ (.switchLC x) = some l →
          is_ (.switchTOL x) = some o → t.section_ x = { s.section_ x with position :=
            (if l = true ∧ o = false then .lc else if l = false ∧ o = true then .tol else .lb) }) ∧
        ((was (.switchLC x) ≠ none ∧ was (.switchTOL x) ≠ none) ∨ is_ (.switchLC x) = none ∨ is_ (.switchTOL x) = none →
          t.section_ x = s.section_ x) ∧
        t.inbox.tappers.filter (fun h => decide (h.1 = x)) = s.inbox.tappers.filter (fun h => decide (h.1 = x)) ++
          (if makes (.tapper x) then [(x, true)] else []) ++ (if breaks (.tapper x) then [(x, false)] else []) ∧
        t.inbox.plungers.filter (fun y => decide (y = x)) = s.inbox.plungers.filter (fun y => decide (y = x)) ++
          (if makes (.plunger x) then [x] else [])) ∧
      (∀ g, t.inbox.inputs.filter (fun h => decide (h = g)) = s.inbox.inputs.filter (fun h => decide (h = g)) ++
        (if makes (.proving g) || breaks (.proving g) then [g] else [])) ∧
      t.inbox.box = s.inbox.box ++ (if makes .box then [BoxPos.out] else []) ++ (if breaks .box then [BoxPos.inn] else []) ∧
      (∀ b, was .box = none → is_ .box = some b → t.service.position = if b then .out else .inn) ∧
      (was .box ≠ none ∨ is_ .box = none → t.service.position = s.service.position) ∧
      ∃ acts, t.inbox.activity = s.inbox.activity ++ acts ∧
        acts.count .grip = (allLevers.filter fun n => makes (.leverH n)).length ∧
        (.other ∈ acts ↔
          (∃ n, makes (.leverN n) ∨ breaks (.leverN n) ∨ makes (.leverR n) ∨ breaks (.leverR n) ∨ breaks (.leverH n)) ∨
          (∃ x i, t.inbox.switches.count (x, i) ≠ s.inbox.switches.count (x, i)) ∨
          (∃ x, makes (.tapper x) ∨ makes (.plunger x)) ∨ makes .box ∨ breaks .box)

/-! ### Levers -/

/-- A grip by the service state and the lever's state: freedom where the test of the Locking unit passes, the refused
flag where it fails, nothing where no grip is taken. A SPARE lever gripped in caught TRAVEL is refused as one at an end is
(DEDUCED, log 12: R6 over R9). -/
def Obligations.GripFreesOrIsRefused : Prop :=
  ∀ (n : Lever) (s : State), s.leverWaits n .grip → s.service.state ≠ .powerUp →
    ∃ t, exec (.grip n) s = .next t ∧
      let l := s.lever n
      let refused := { l with refused := true }
      let passes := l.isSpare = false ∧ s.freedomTest n = true
      (l.loaded = false ∨ s.service.state = .configure → t.lever n = l) ∧
      (l.loaded = true → s.service.state = .switchedOut → t.lever n = refused) ∧
      (l.loaded = true → s.service.state = .inService →
        (l.pos = .nLocked → passes → t.lever n = { l with pos := .nFree, lock := true, lastEnd := some .n }) ∧
        (l.pos = .rLocked → passes → t.lever n = { l with pos := .rFree, lock := true, lastEnd := some .r }) ∧
        (l.pos = .travel → l.lock = false → passes →
          t.lever n = { l with lock := true, limit := some (s.now + s.times.travel * 1000) }) ∧
        (l.pos = .nLocked ∨ l.pos = .rLocked ∨ (l.pos = .travel ∧ l.lock = false) → ¬passes → t.lever n = refused) ∧
        (l.pos = .fault → t.lever n = refused) ∧
        ((l.pos = .travel ∧ l.lock = true) ∨ l.pos = .backlocked ∨ l.pos = .nFree ∨ l.pos = .rFree → t.lever n = l))

/-- A grip end locks a free lever at its end and de-energises its lock, leaves state and lock alone elsewhere, and clears
the refused flag in every state. -/
def Obligations.GripEndLocksAFreeLever : Prop :=
  ∀ (n : Lever) (s : State), s.leverWaits n .gripEnd → s.service.state ≠ .powerUp →
    ∃ t, exec (.gripEnd n) s = .next t ∧
      let l := s.lever n
      (l.pos = .nFree → t.lever n = { l with pos := .nLocked, lock := false, refused := false, lastEnd := some .n }) ∧
      (l.pos = .rFree → t.lever n = { l with pos := .rLocked, lock := false, refused := false, lastEnd := some .r }) ∧
      (l.pos ≠ .nFree → l.pos ≠ .rFree → t.lever n = { l with refused := false })

/-- Leaving an end: granted travel with its limit from a free state; BACKLOCKED with the time release started for a
signal whose approach is not free; caught travel from a locked state, forced and entered where the box is worked. The
approach is that which the Locking unit has taken (R36; R75, as log 40 reads it). -/
def Obligations.LeavingAnEnd : Prop :=
  ∀ (n : Lever) (s : State), s.service.state ≠ .powerUp →
    let l := s.lever n
    let granted := { l with pos := .travel, lock := true, limit := some (s.now + s.times.travel * 1000) }
    let caught := { l with pos := .travel, lock := false, limit := none }
    let forced := { caught with forced := true }
    let worked := (s.service.state = .inService ∨ s.service.state = .switchedOut) ∧ l.loaded = true
    (s.leverWaits n .leavingN →
      ∃ t, exec (.leavingN n) s = .next t ∧
        (l.pos = .nFree → t.lever n = granted ∧ t.inbox.entries = s.inbox.entries) ∧
        (l.pos = .nLocked → worked →
          t.lever n = forced ∧ t.inbox.entries = s.inbox.entries ++ [(.leverFrame, .lever n .forced)]) ∧
        (l.pos = .nLocked → ¬worked → t.lever n = caught ∧ t.inbox.entries = s.inbox.entries)) ∧
    (s.leverWaits n .leavingR →
      ∃ t, exec (.leavingR n) s = .next t ∧
        (l.pos = .rFree → l.approach = none → t.lever n = granted) ∧
        (∀ a, l.pos = .rFree → l.approach = some a →
          ((∀ c ∈ a.circuits, s.lockTrack c = .clear) →
            (∀ x, a.sec = some x → s.lockSec x ≠ .enteredIn) → t.lever n = granted) ∧
          ((∃ c ∈ a.circuits, s.lockTrack c ≠ .clear) ∨ (∃ x, a.sec = some x ∧ s.lockSec x = .enteredIn) →
            t.lever n = { caught with
              pos := .backlocked, lastEnd := some .r, backlock := .timing (s.now + a.time * 1000) })) ∧
        (l.pos = .rLocked → worked →
          t.lever n = forced ∧ t.inbox.entries = s.inbox.entries ++ [(.leverFrame, .lever n .forced)]) ∧
        (l.pos = .rLocked → ¬worked → t.lever n = caught ∧ t.inbox.entries = s.inbox.entries))

/-- Arrivals at N and at R, both contacts made, and both contacts broken from FAULT. An arrival out of BACKLOCKED is
forced and cancels the time release; an arrival at R under block control is handed to the Block unit. -/
def Obligations.ArrivalsAndFaults : Prop :=
  ∀ (n : Lever) (s : State), s.service.state ≠ .powerUp →
    let l := s.lever n
    let at_ := fun (p : LeverPos) (e : LeverEnd) => { l with pos := p, lastEnd := some e, lock := false, limit := none }
    let result := fun (p : LeverPos) (e : LeverEnd) (t : State) =>
      (l.pos = .travel → t.lever n = { at_ p e with stalled := false } ∧ t.inbox.entries = s.inbox.entries) ∧
      (l.pos = .backlocked → t.lever n = { at_ p e with forced := true, stalled := false, backlock := .idle } ∧
        t.inbox.entries = s.inbox.entries ++ [(.leverFrame, .lever n .forced)]) ∧
      (l.pos = .fault → t.lever n = at_ p e ∧ t.inbox.entries = s.inbox.entries)
    (s.leverWaits n .arrivalN → ∃ t, exec (.arrivalAtN n) s = .next t ∧ result .nLocked .n t) ∧
    (s.leverWaits n .arrivalR → ∃ t, exec (.arrivalAtR n) s = .next t ∧ result .rLocked .r t ∧
      (l.pos = .travel ∨ l.pos = .backlocked ∨ l.pos = .fault →
        (∀ x, l.blockControl = some x → t.inbox.atR = s.inbox.atR ++ [n]) ∧
        (l.blockControl = none → t.inbox.atR = s.inbox.atR))) ∧
    (s.leverWaits n .bothMade → ∃ t, exec (.bothMade n) s = .next t ∧
      t.lever n = { l with pos := .fault, lastEnd := none, lock := false, limit := none, backlock := .idle } ∧
      (l.loaded = true → t.inbox.entries = s.inbox.entries ++ [(.leverFrame, .lever n .fault)]) ∧
      (l.loaded = false → t.inbox.entries = s.inbox.entries)) ∧
    (s.leverWaits n .bothBreak → l.pos = .fault → ∃ t, exec (.bothContactsBreak n) s = .next t ∧
      t.lever n = { l with pos := .travel, lock := false, limit := none } ∧ t.inbox.entries = s.inbox.entries)

/-- What reaches a lever without its contacts: a demand that its freedom be withdrawn, the expiry of its travel limit,
the expiry of its time release, and the back-lock release. -/
def Obligations.WithdrawalLimitsAndReleases : Prop :=
  ∀ (n : Lever) (s : State),
    let l := s.lever n
    (n ∈ s.inbox.demands → ∃ t, exec (.freedomWithdrawn n) s = .next t ∧
      (l.pos = .nFree → t.lever n = { l with pos := .nLocked, lock := false, refused := true, lastEnd := some .n }) ∧
      (l.pos = .rFree → t.lever n = { l with pos := .rLocked, lock := false, refused := true, lastEnd := some .r }) ∧
      (l.pos ≠ .nFree → l.pos ≠ .rFree → t.lever n = l)) ∧
    (∀ d, l.pos = .travel → l.lock = true → l.limit = some d → ∃ t, exec (.travelLimitExpiry n) s = .next t ∧
      (d ≤ s.now → t.lever n = { l with lock := false, limit := none, stalled := true } ∧
        t.inbox.entries = s.inbox.entries ++ [(.leverFrame, .lever n .stalled)]) ∧
      (s.now < d → t.lever n = l ∧ t.inbox.entries = s.inbox.entries)) ∧
    (∀ d, l.backlock = .timing d → ∃ t, exec (.timeReleaseExpiry n) s = .next t ∧
      (d ≤ s.now → t.lever n = { l with backlock := .due } ∧ (s.tableTest n = true → n ∈ t.inbox.backReleases)) ∧
      (s.now < d → t.lever n = l)) ∧
    (n ∈ s.inbox.backReleases → ∃ t, exec (.backLockRelease n) s = .next t ∧
      (l.pos = .backlocked → l.backlock = .due → s.tableTest n = true →
        t.lever n = { l with
          pos := .travel, lock := true, limit := some (s.now + s.times.travel * 1000), backlock := .idle }) ∧
      (l.pos ≠ .backlocked ∨ l.backlock ≠ .due ∨ s.tableTest n = false → t.lever n = l))

/-! ### Locking -/

/-- When an entry of the table is active, and when it is violated; and the readings in which the freedom test, the
release check and the VIOLATION check use it. -/
def Obligations.EntryActiveAndViolated : Prop :=
  (∀ (e : LockEntry) (read : Lever → Option LeverEnd),
    (e.active read = true ↔ ∀ c ∈ e.conds, read c.lever = some c.pos ∨ read c.lever = none) ∧
    (e.violated read = true ↔
      e.active read = true ∧ read e.x.lever ≠ some e.x.pos.opposite ∧ read e.y.lever ≠ some e.y.pos)) ∧
  ∀ s : State,
    (∀ z, s.tableTest z = true ↔ ∀ e ∈ s.locking, e.violated (s.trial z) = false) ∧
    (checkViolation s = none ↔ ∀ e ∈ s.locking, e.violated s.contactEnd = false)

/-- The freedom test of a loaded lever passes exactly when no entry is violated in its trial state, every track and
proving term that applies is met, and the block term, where it applies, is met. A track term is met by the state in which
the Locking unit holds the circuit: while changes of the circuit are on their way to the unit, that before the first of them
(R75, as log 40 reads it with R28). The block term is not met either while an arrival at R of a lever under the section's
control, Z or another, is on its way to the Block unit, which keeps the law of R43 (DEDUCED, log 40). -/
def Obligations.FreedomTestIsTheLaw : Prop :=
  ∀ (s : State) (z : Lever) (r : LevRecord), (s.lever z).record = some r →
    let from_ := (s.lever z).leaving
    let held := fun (c : Circuit) => (s.inbox.changes.findSome? fun ch =>
      match ch with
      | .track d was => if d = c then some was else none
      | _ => none).getD (s.circuit c).state
    (∀ m, s.trial z m =
      if m = z then none else if (s.lever m).pos = .nLocked then some .n
      else if (s.lever m).pos = .rLocked then some .r else none) ∧
    (s.freedomTest z = true ↔
      (∀ e ∈ s.locking, e.violated (s.trial z) = false) ∧
      (∀ t ∈ r.tracks, t.applies.to from_ = true → held t.circuit = .clear) ∧
      (∀ p ∈ r.provings, p.applies.to from_ = true → (s.proves p.input = p.active)) ∧
      ∀ x, r.block = some x → from_ ≠ some .r →
        (s.section_ x).state = .clearOut ∧ (s.section_ x).releaseUnused = true ∧
          (∀ m ∈ s.inbox.atR, (s.lever m).blockControl ≠ some x) ∧
          ∀ m, m ≠ z → (s.lever m).blockControl = some x → (s.lever m).pos ≠ .nFree ∧ (s.lever m).pos ≠ .travel)

/-- A lock is energised only by a grip whose freedom test passes in IN_SERVICE, or by a back-lock release whose table
test passes: never while an active entry would be violated with the lever and every free, travelling, back-locked or
faulty lever counted as away. The state is one whose locks agree with the lever states (O56 and O57: every state a run
reaches is). -/
def Obligations.LockEnergisedOnlyByTest : Prop :=
  ∀ (c : Instr) (s t : State) (n : Lever), s.leversOk → exec c s = .next t → (s.lever n).lock = false →
    (t.lever n).lock = true →
    s.tableTest n = true ∧
      ((c = .grip n ∧ s.service.state = .inService ∧ s.freedomTest n = true) ∨
        (c = .backLockRelease n ∧ (s.lever n).pos = .backlocked ∧ (s.lever n).backlock = .due))

/-- Of two levers an unconditional entry relates, the second gripped is never freed while the first stands free or is
away from both positions, as it is from the grip that frees it until it is locked at an end again: the second's lock stays
off, and it is refused, with its flag set, if it is a loaded lever locked at an end or in caught travel and the box is
worked. -/
def Obligations.ConflictingLeversNeverBothFreed : Prop :=
  ∀ (s : State) (e : LockEntry) (z₁ z₂ : Lever), z₁ ≠ z₂ → e ∈ s.locking → e.conds = [] →
    ((e.x.lever = z₁ ∧ e.y.lever = z₂) ∨ (e.x.lever = z₂ ∧ e.y.lever = z₁)) →
    (s.lever z₁).pos ∈ [LeverPos.nFree, .rFree, .travel, .backlocked, .fault] → (s.lever z₂).lock = false →
    ∃ t, exec (.grip z₂) s = .next t ∧ (t.lever z₂).lock = false ∧ t.lever z₁ = s.lever z₁ ∧
      (s.leverWaits z₂ .grip → (s.lever z₂).loaded = true →
        s.service.state = .inService ∨ s.service.state = .switchedOut →
        (s.lever z₂).pos ∈ [LeverPos.nLocked, .rLocked, .travel] →
        t.lever z₂ = { s.lever z₂ with refused := true })

/-- A change taken by the Locking unit: every free lever whose test fails is demanded back; a TIMING record whose
approach the change belongs to and finds free goes to DUE; a DUE record gives its release where the table test passes, at
entry to DUE and at each change of a lever's state. The tests see the change. A changed proving input is handed on for the
same. Until a change of a circuit or of a section's state is taken, the unit holds the circuit or the section in the state
before it, and no command but RE_TEST, START (R41) and a reset changes what the unit holds (log 40). -/
def Obligations.ReTestAtEachChange : Prop :=
  (∀ (s : State) (ch : Change) (rest : List Change), s.inbox.changes = ch :: rest →
    let taken := { s with inbox := { s.inbox with changes := rest } }
    let due := fun n => (∃ d, (s.lever n).backlock = .timing d) ∧
      ∃ a, (s.lever n).approach = some a ∧
        ((∀ c ∈ a.circuits, taken.lockTrack c = .clear) ∧ ∀ x, a.sec = some x → taken.lockSec x ≠ .enteredIn) ∧
        ((∃ c ∈ a.circuits, ∃ was, ch = .track c was) ∨ ∃ x was, a.sec = some x ∧ ch = .sec x was)
    ∃ t, exec .reTest s = .next t ∧ t.inbox.changes = rest ∧
      ∀ n,
        (n ∈ t.inbox.demands ↔ n ∈ s.inbox.demands ∨
          (((s.lever n).pos = .nFree ∨ (s.lever n).pos = .rFree) ∧ taken.freedomTest n = false)) ∧
        (due n → t.lever n = { s.lever n with backlock := .due }) ∧ (¬due n → t.lever n = s.lever n) ∧
        (n ∈ t.inbox.backReleases ↔ n ∈ s.inbox.backReleases ∨
          (s.tableTest n = true ∧ (due n ∨ ((s.lever n).backlock = .due ∧ ∃ m, ch = .lever m))))) ∧
  (∀ (s : State) (g : Input), g ∈ s.inbox.inputs →
    ∃ t, exec (.provingInputChange g) s = .next t ∧ t.inbox.changes = s.inbox.changes ++ [.input g]) ∧
  (∀ (s : State) (k : Circuit) (x : Sec),
    ((∀ was, .track k was ∉ s.inbox.changes) → s.lockTrack k = (s.circuit k).state) ∧
    ((∀ was, .sec x was ∉ s.inbox.changes) → s.lockSec x = (s.section_ x).state) ∧
    (∀ was before after, s.inbox.changes = before ++ .track k was :: after → (∀ w, .track k w ∉ before) →
      s.lockTrack k = was) ∧
    ∀ was before after, s.inbox.changes = before ++ .sec x was :: after → (∀ w, .sec x w ∉ before) →
      s.lockSec x = was) ∧
  ∀ (c : Instr) (s t : State), c ≠ .reTest → c ≠ .start → (∀ b, c ≠ .reset b ∧ c ≠ .restartPowerUp b) →
    exec c s = .next t → (∀ k, t.lockTrack k = s.lockTrack k) ∧ ∀ x, t.lockSec x = s.lockSec x

/-! ### Track circuits -/

/-- The start of a scan frame at which no request waits: the reversal count and generator, the proof count and proof
circuit, each enabled circuit's feed, applied polarity and masks, and the frame's length. The generator's step, and its
course: from 1 it takes every value from 1 to 127 once and returns to 1. -/
def Obligations.ScanFrameStartSetsFeeds : Prop :=
  (∀ g : BitVec 7, (stepGenerator g).getLsbD 0 = (g.getLsbD 6 ^^ g.getLsbD 5) ∧
    ∀ i < 6, (stepGenerator g).getLsbD (i + 1) = g.getLsbD i) ∧
  stepGenerator^[127] 1 = 1 ∧ (∀ v : BitVec 7, v ≠ 0 → ∃ k < 127, stepGenerator^[k] 1 = v) ∧
  ∀ s : State, s.service.state ≠ .powerUp → s.track.scanning = false → s.track.ops = [] →
    ∃ t, exec .scanFrameStart s = .next t ∧
      t.track.scanning = true ∧ t.track.started = s.now ∧
      t.track.params = ⟨s.times.frame, s.times.reverse, s.times.proof, s.times.track⟩ ∧
      (s.track.reversals + 1 < s.times.reverse →
        t.track.gen = s.track.gen ∧ t.track.reversals = s.track.reversals + 1) ∧
      (s.times.reverse ≤ s.track.reversals + 1 →
        t.track.gen = stepGenerator s.track.gen ∧ t.track.reversals = 0) ∧
      (s.times.proof = 0 → t.track.proofs = 0 ∧ t.track.proofNow = none) ∧
      (s.track.proofs + 1 < s.times.proof → t.track.proofs = s.track.proofs + 1 ∧ t.track.proofNow = none) ∧
      (0 < s.times.proof → s.times.proof ≤ s.track.proofs + 1 →
        t.track.proofs = 0 ∧
        t.track.proofNow = (afterCursor s.track.cursor).find? fun c =>
          decide ((s.circuit c).state = .occupied ∨ (s.circuit c).state = .clear)) ∧
      (∀ c, t.track.proofNow = some c → t.track.cursor = some c) ∧
      (t.track.proofNow = none → t.track.cursor = s.track.cursor) ∧
      (∀ c, (s.circuit c).live = none →
        (t.circuit c).feed = none ∧ (t.circuit c).applied = none ∧ c ∉ t.track.toMeasure) ∧
      (∀ c r, (s.circuit c).live = some r →
        c ∈ t.track.toMeasure ∧ (t.circuit c).live = some r ∧
        (MaskCause.restore ∈ (t.circuit c).masks ↔ s.track.proofNow = some c) ∧
        MaskCause.tune ∉ (t.circuit c).masks ∧
        (t.track.proofNow = some c →
          (t.circuit c).feed = none ∧ (t.circuit c).applied = (s.circuit c).applied ∧
            MaskCause.proof ∈ (t.circuit c).masks ∧ MaskCause.reversal ∉ (t.circuit c).masks) ∧
        (t.track.proofNow ≠ some c →
          let want : Polarity := if t.track.gen.getLsbD r.phase ≠ decide (r.inv = 1) then .positive else .negative
          (t.circuit c).feed = some want ∧ (t.circuit c).applied = some want ∧
            MaskCause.proof ∉ (t.circuit c).masks ∧
            (MaskCause.reversal ∈ (t.circuit c).masks ↔ (s.circuit c).applied ≠ some want))) ∧
      let required := ((allCircuits.filterMap fun c => (s.circuit c).live).map fun r => 2 + r.window).sum + 20
      (required ≤ s.times.frame * 10 → t.track.actual = s.times.frame ∧ t.track.extended = false) ∧
      (s.times.frame * 10 < required → t.track.actual = (required + 9) / 10 ∧ t.track.extended = true)

/-- A request that waits takes effect at the frame start: a load puts its circuit into OCCUPIED on its own record, with no
REVERSAL mask; an erase disables every circuit; a tune is written into the record; a clear ends a latched failure. Several
requests take effect in their order: of a circuit's requests an erase after them, or a load, undoes those before it, the
tunes after it are written in turn, and each change of state on the way is handed on. The frame begins with all of the
accepted tuning applied: `retuned`, the model's own field for that, is cleared at every frame start, and an erase that takes
effect clears STALE as a load does (DEDUCED, log 38). -/
def Obligations.WaitingRequestsTakeEffect : Prop :=
  ∀ s : State, s.service.state ≠ .powerUp → s.track.scanning = false → ∃ t, exec .scanFrameStart s = .next t ∧
    t.track.ops = [] ∧ (∀ c, (t.circuit c).retuned = false) ∧
    (∀ c r, s.track.ops = [.load c r] →
      (t.circuit c).state = .occupied ∧ (t.circuit c).live = some r ∧ (t.circuit c).q = r.ref * 16 ∧
      (t.circuit c).low = 0 ∧ (t.circuit c).high = 0 ∧ (t.circuit c).reverse = 0 ∧ (t.circuit c).published = none ∧
      (t.circuit c).stale = false ∧ MaskCause.reversal ∉ (t.circuit c).masks ∧ t.track.proofNow ≠ some c ∧
      (t.circuit c).feed = (t.circuit c).applied ∧ (t.circuit c).applied ≠ none ∧ c ∈ t.track.toMeasure ∧
      (∀ f, (s.circuit c).state = .failed f → t.inbox.entries = s.inbox.entries ++ [(.track, .track c none)]) ∧
      ((∀ f, (s.circuit c).state ≠ .failed f) → t.inbox.entries = s.inbox.entries)) ∧
    (s.track.ops = [.erase] → t.track.toMeasure = [] ∧ t.inbox.entries = s.inbox.entries ∧
      ∀ c, (t.circuit c).state = .disabled ∧ (t.circuit c).live = none ∧ (t.circuit c).feed = none ∧
        (t.circuit c).published = none ∧ (t.circuit c).stale = false) ∧
    (∀ c vals r, s.track.ops = [.tune c vals] → (s.circuit c).live = some r →
      (t.circuit c).live = some (r.setAll vals) ∧ (t.circuit c).stored = some (r.setAll vals) ∧
      (t.circuit c).state = (s.circuit c).state ∧ (t.circuit c).stale = true ∧
      (MaskCause.tune ∈ (t.circuit c).masks ↔
        ∃ e ∈ vals, e.1 = .coarse ∨ e.1 = .fine ∨ e.1 = .window ∨ e.1 = .ref) ∧
      ((∃ e ∈ vals, e.1 = .ref) → (t.circuit c).q = (r.setAll vals).ref * 16 ∧ (t.circuit c).low = 0 ∧
        (t.circuit c).high = 0 ∧ (t.circuit c).reverse = 0) ∧
      ((∀ e ∈ vals, e.1 ≠ .ref) → (t.circuit c).q = (s.circuit c).q ∧ (t.circuit c).low = (s.circuit c).low ∧
        (t.circuit c).high = (s.circuit c).high ∧ (t.circuit c).reverse = (s.circuit c).reverse)) ∧
    (∀ c, s.track.ops = [.clear c] → (t.circuit c).q = (s.circuit c).q ∧
      ((s.circuit c).state = .failed .joint ∨ (s.circuit c).state = .failed .proof →
        (t.circuit c).state = .occupied ∧ (t.circuit c).low = 0 ∧ (t.circuit c).high = 0 ∧
          (t.circuit c).reverse = 0 ∧ t.inbox.entries = s.inbox.entries ++ [(.track, .track c none)]) ∧
      ((s.circuit c).state ≠ .failed .joint → (s.circuit c).state ≠ .failed .proof →
        (t.circuit c).state = (s.circuit c).state ∧ t.inbox.entries = s.inbox.entries)) ∧
    ∀ c : Circuit,
      let values := fun (os : List TrackOp) => os.flatMap fun o =>
        match o with
        | .tune d vals => if d = c then vals else []
        | _ => []
      let onlyTunes := fun (os : List TrackOp) => ∀ o ∈ os, (∀ r, o ≠ .load c r) ∧ o ≠ .erase ∧ o ≠ .clear c
      (∀ r, (s.circuit c).live = some r → onlyTunes s.track.ops →
        (t.circuit c).live = some (r.setAll (values s.track.ops)) ∧ (t.circuit c).state = (s.circuit c).state ∧
        ((∃ e ∈ values s.track.ops, e.1 = .ref) → (t.circuit c).q = (r.setAll (values s.track.ops)).ref * 16) ∧
        ((∀ e ∈ values s.track.ops, e.1 ≠ .ref) → (t.circuit c).q = (s.circuit c).q)) ∧
      (∀ before r after, s.track.ops = before ++ .load c r :: after → onlyTunes after →
        (t.circuit c).state = .occupied ∧ (t.circuit c).live = some (r.setAll (values after)) ∧
        (t.circuit c).q = (r.setAll (values after)).ref * 16 ∧ (t.circuit c).published = none ∧
        (t.circuit c).low = 0 ∧ (t.circuit c).high = 0 ∧ (t.circuit c).reverse = 0 ∧
        ((t.circuit c).stale = true ↔ ∃ vals, TrackOp.tune c vals ∈ after)) ∧
      (∀ before after, s.track.ops = before ++ .erase :: after → (∀ o ∈ after, ∀ r, o ≠ .load c r) →
        (t.circuit c).state = .disabled ∧ (t.circuit c).live = none ∧ (t.circuit c).feed = none ∧
        (t.circuit c).stale = false) ∧
      (∀ r, s.track.ops = [.erase, .load c r] → (s.circuit c).state ≠ .disabled →
        t.inbox.changes.filterMap (·.trackWas c) =
          s.inbox.changes.filterMap (·.trackWas c) ++ [(s.circuit c).state, .disabled] ∧
        (s.link.classes.tc = true → .tc c ∈ t.link.reports) ∧
        (∀ x sr rest, (s.section_ x).record = some sr → sr.arrival = c :: rest → (s.circuit c).state = .clear →
          x ∈ t.inbox.autoTol))

/-- The measurement of the circuit in turn: its sum, average, level and signed level; the other circuits, and the record
of the circuit itself, are as they were. The completion of the frame publishes it, and clears STALE exactly where the frame
began with all of the circuit's accepted tuning applied: where no TUNE of it has been accepted since the frame start, one
that a TC load or an erase has dropped since among them (DEDUCED, log 38). Before the frame length has run, or with a circuit
still to measure, the frame goes on. -/
def Obligations.MeasurementFiguresArePublished : Prop :=
  (∀ (samples : List Sample) (s : State) (c : Circuit) (rest : List Circuit) (r : TcRecord),
    s.track.toMeasure = c :: rest → (s.circuit c).live = some r → samples.length = r.window →
    ∃ t m, exec (.measurementComplete samples) s = .next t ∧ t.track.toMeasure = rest ∧
      (∀ d, d ≠ c → t.circuit d = s.circuit d) ∧ (t.circuit c).live = some r ∧
      (t.circuit c).published = (s.circuit c).published ∧ (t.circuit c).taken = some m ∧
      m.sum = (samples.map (·.toInt)).sum ∧ m.count = samples.length ∧ m.average = m.sum.tdiv m.count ∧
      (m.saturated = true ↔ ∃ x ∈ samples, x.toInt = -2048 ∨ x.toInt = 2047) ∧
      (m.saturated = true → m.level = if 0 ≤ m.average then 2500 else -2500) ∧
      (m.saturated = false →
        m.level = max (-2500) (min 2500 ((m.average * 625).tdiv (16 * (r.coarse : Int) * (r.fine : Int))))) ∧
      m.masks = (s.circuit c).masks ∧
      m.sign = (if .proof ∈ (s.circuit c).masks then none else (s.circuit c).applied) ∧
      m.signed = (if m.sign = some .negative then -m.level else m.level)) ∧
  ∀ s : State, s.track.scanning = true → ∃ t, exec .scanFrameComplete s = .next t ∧
    (s.track.toMeasure = [] → s.track.started + s.track.actual ≤ s.now →
      t.track.scanning = false ∧ ∀ c,
        (∀ m, (s.circuit c).taken = some m → (t.circuit c).published = some m) ∧
        ((s.circuit c).taken = none → (t.circuit c).published = (s.circuit c).published) ∧
        (t.circuit c).state = (s.circuit c).state ∧
        ((t.circuit c).stale = true ↔ (s.circuit c).stale = true ∧ (s.circuit c).retuned = true)) ∧
    (s.track.toMeasure ≠ [] ∨ s.now < s.track.started + s.track.actual → t.track = s.track)

/-- An unmasked measurement in OCCUPIED or CLEAR moves the counts by its verdict and makes the first state decision that
applies; the case of a high input in CLEAR, which tracks, is `TrackingAndFailures`. -/
def Obligations.VerdictMovesCountsAndState : Prop :=
  ∀ (samples : List Sample) (s : State) (c : Circuit) (rest : List Circuit) (r : TcRecord),
    s.track.toMeasure = c :: rest → (s.circuit c).live = some r → samples.length = r.window →
    (s.circuit c).masks = [] → (s.circuit c).state = .occupied ∨ (s.circuit c).state = .clear →
    ∃ t m, exec (.measurementComplete samples) s = .next t ∧ (t.circuit c).taken = some m ∧
      let k := s.circuit c
      let d : Nat := max (k.q / 16 * r.drop / 256) r.floor
      let u : Nat := max (k.q / 16 * r.pick / 256) (d + 20)
      let wrong := m.signed < -(r.joint : Int)
      let low := if m.signed < (d : Int) then raise k.low else 0
      let high := if (u : Int) ≤ m.signed then raise k.high else 0
      let reverse := if wrong then raise k.reverse else 0
      let zero := (t.circuit c).low = 0 ∧ (t.circuit c).high = 0 ∧ (t.circuit c).reverse = 0
      (k.state = .occupied ∨ m.signed < (u : Int) → (t.circuit c).q = k.q ∧
        (2 ≤ reverse → (t.circuit c).state = .failed .joint ∧ zero ∧
          t.inbox.entries = s.inbox.entries ++ [(.track, .track c (some .joint))]) ∧
        (reverse < 2 → t.inbox.entries = s.inbox.entries ∧
          (k.state = .clear → r.dropf ≤ low → (t.circuit c).state = .occupied ∧ zero) ∧
          (k.state = .occupied → r.pickf ≤ high → (t.circuit c).state = .clear ∧ zero) ∧
          ((k.state = .clear ∧ low < r.dropf) ∨ (k.state = .occupied ∧ high < r.pickf) →
            (t.circuit c).state = k.state ∧ (t.circuit c).low = low ∧ (t.circuit c).high = high ∧
              (t.circuit c).reverse = reverse)))

/-- The reference follows a high input in CLEAR and every unmasked level in LOW_REF; the failures LOW_REF and PROOF and
the recovery from LOW_REF; a masked measurement, and one of a circuit failed JOINT or PROOF, change nothing. -/
def Obligations.TrackingAndFailures : Prop :=
  ∀ (samples : List Sample) (s : State) (c : Circuit) (rest : List Circuit) (r : TcRecord),
    s.track.toMeasure = c :: rest → (s.circuit c).live = some r → samples.length = r.window →
    ∃ t m, exec (.measurementComplete samples) s = .next t ∧ (t.circuit c).taken = some m ∧
      let k := s.circuit c
      let d : Nat := max (k.q / 16 * r.drop / 256) r.floor
      let u : Nat := max (k.q / 16 * r.pick / 256) (d + 20)
      let moved := max 0 (min 40000 ((k.q : Int) + (m.signed * 16 - (k.q : Int)).tdiv ((2 ^ s.track.params.track : Nat) : Int)))
      let zero := (t.circuit c).low = 0 ∧ (t.circuit c).high = 0 ∧ (t.circuit c).reverse = 0
      let unchanged := t.circuit c = { k with taken := some m } ∧ t.inbox.entries = s.inbox.entries
      (k.masks = [] → k.state = .clear → m.saturated = false → (u : Int) ≤ m.signed → 1 ≤ r.dropf →
        ((t.circuit c).q : Int) = moved ∧
        ((t.circuit c).q / 16 < r.low → (t.circuit c).state = .failed .lowRef ∧ zero ∧
          t.inbox.entries = s.inbox.entries ++ [(.track, .track c (some .lowRef))]) ∧
        (r.low ≤ (t.circuit c).q / 16 → (t.circuit c).state = .clear ∧ (t.circuit c).low = 0 ∧
          (t.circuit c).high = raise k.high ∧ (t.circuit c).reverse = 0 ∧ t.inbox.entries = s.inbox.entries)) ∧
      (k.masks = [] → k.state = .clear → m.saturated = true → (u : Int) ≤ m.signed → 1 ≤ r.dropf →
        (t.circuit c).q = k.q ∧ (t.circuit c).state = .clear) ∧
      (k.masks = [] → k.state = .failed .lowRef → m.saturated = false →
        ((t.circuit c).q : Int) = moved ∧
        (r.low + r.low / 8 ≤ (t.circuit c).q / 16 → (t.circuit c).state = .occupied ∧ zero ∧
          t.inbox.entries = s.inbox.entries ++ [(.track, .track c none)]) ∧
        ((t.circuit c).q / 16 < r.low + r.low / 8 → (t.circuit c).state = .failed .lowRef ∧
          t.inbox.entries = s.inbox.entries)) ∧
      (k.masks = [] → k.state = .failed .lowRef → m.saturated = true → unchanged) ∧
      (MaskCause.proof ∈ k.masks → k.state = .occupied ∨ k.state = .clear →
        (r.floor ≤ m.level.natAbs → (t.circuit c).state = .failed .proof ∧ zero ∧ (t.circuit c).q = k.q ∧
          t.inbox.entries = s.inbox.entries ++ [(.track, .track c (some .proof))]) ∧
        (m.level.natAbs < r.floor → unchanged)) ∧
      (k.masks ≠ [] → MaskCause.proof ∉ k.masks → unchanged) ∧
      (k.state = .failed .joint ∨ k.state = .failed .proof → unchanged)

/-! ### Bells -/

/-- The sense of a port: a value is taken when two samples in a row agree on it, and counts from the first of them. A
pulse begins where IDLE passes to IN and nowhere else, and the open one ends where IN is left, as noise if it was no beat
and did not last BEATMIN; the pulses that wait before it stay. The first value taken after POWER_UP begins none. A CLASH
taken under the drive is kept for its collision; that one sample is enough where the sense still stands at CLASH from an
earlier drive is the model's choice (DESIGN CHOICE, log 47). -/
def Obligations.SenseTakenAtSecondSample : Prop :=
  ∀ (p : Sec) (current : Bool) (s : State), s.service.state ≠ .powerUp →
    let k := s.port p
    let v : Sense := if k.drive then (if current then .outgoing else .clash) else if current then .incoming else .idle
    ∃ t, exec (.bellSenseSample p current) s = .next t ∧ (t.port p).drive = k.drive ∧ (t.port p).owner = k.owner ∧
      (k.lastSample = none ∨ (∃ u τ, k.lastSample = some (u, τ) ∧ u ≠ v) →
        (t.port p).lastSample = some (v, s.now) ∧ (t.port p).sense = k.sense ∧ (t.port p).sensed = k.sensed ∧
        (t.port p).pulses = k.pulses ∧
        (v = .clash → k.sense = .clash → (t.port p).clash = true) ∧
        (v ≠ .clash ∨ k.sense ≠ .clash → (t.port p).clash = k.clash)) ∧
      ∀ τ, k.lastSample = some (v, τ) →
        (t.port p).lastSample = some (v, τ) ∧ (t.port p).sense = v ∧ (t.port p).sensed = true ∧
        (v = .clash → (t.port p).clash = true) ∧ (v ≠ .clash → (t.port p).clash = k.clash) ∧
        (k.sensed = false ∨ k.sense = v → (t.port p).pulses = k.pulses) ∧
        (k.sensed = true → k.sense = .idle → v = .incoming →
          (t.port p).pulses = k.pulses ++ [⟨τ, none, false, false⟩]) ∧
        (k.sense = .clash ∨ k.sense = .outgoing → (t.port p).pulses = k.pulses) ∧
        (k.sense = .idle → v ≠ .incoming → (t.port p).pulses = k.pulses) ∧
        (k.sensed = true → k.sense = .incoming → v ≠ .incoming →
          ((∀ w ∈ k.pulses, w.ended ≠ none) → (t.port p).pulses = k.pulses) ∧
          ∀ (before : List Pulse) (u : Pulse) (after : List Pulse), k.pulses = before ++ u :: after →
            (∀ w ∈ before, w.ended ≠ none) → u.ended = none →
            (u.beat = true ∨ u.start + s.times.beatmin ≤ τ →
              (t.port p).pulses = before ++ { u with ended := some τ } :: after) ∧
            (u.beat = false → τ < u.start + s.times.beatmin → (t.port p).pulses = before ++ after))

/-- The start of a sensed beat outside through working: it rings the local bell, and begins a code, is placed in the code
in assembly by its gap, or interrupts an outgoing code, which is complete at once. A pulse still in progress becomes a beat
when it has lasted BEATMIN; one that has ended was judged at its end (DESIGN CHOICE, log 45). -/
def Obligations.BeatStartsOrExtendsACode : Prop :=
  ∀ (p : Sec) (s : State) (u : Pulse) (us : List Pulse), s.service.state ≠ .switchedOut ∨ p = .c →
    (s.port p).pulses = u :: us → u.beat = false → (s.port p).out = none →
    (u.ended = none → u.start + s.times.beatmin ≤ s.now) →
    ∃ t, exec (.startOfBeat p) s = .next t ∧
      (t.port p).pulses = { u with beat := true } :: us ∧ (t.port p).owner = .incoming ∧
      (t.port p).sounder =
        (match s.times.localmode with
          | .follow => .follow
          | .stroke => .stroke (s.now + s.times.stroke)) ∧
      ((s.port p).owner = .free → ∃ c, (t.port p).code = some c ∧ c.dir = .incoming ∧ c.groups = [1] ∧
        c.lastEnd = none ∧ c.spoil = .absent ∧ c.suppressed = false) ∧
      (∀ (c : Code) (gs : List Nat) (g e : Nat), (s.port p).owner = .incoming → (s.port p).code = some c →
        c.groups = gs ++ [g] → c.lastEnd = some e → c.overflow = false →
        ∃ c', (t.port p).code = some c' ∧ c'.dir = c.dir ∧ c'.lastEnd = none ∧
          (u.start - e ≤ s.times.join → g < 9 → c'.groups = gs ++ [g + 1] ∧ c'.spoil = c.spoil) ∧
          (u.start - e ≤ s.times.join → 9 ≤ g → c'.groups = c.groups ∧
            (c.spoil = .absent → c'.spoil = .present none)) ∧
          (s.times.join < u.start - e → c.groups.length < 5 → c'.groups = c.groups ++ [1] ∧ c'.spoil = c.spoil) ∧
          (s.times.join < u.start - e → 5 ≤ c.groups.length → c'.groups = c.groups ∧
            (c.spoil = .absent → c'.spoil = .present none)) ∧
          (∀ cause, c.spoil = .present cause → c'.spoil = .present cause)) ∧
      (∀ c, (s.port p).owner = .outgoing → (s.port p).code = some c → c.dir = .outgoing →
        ∃ r c', (t.port p).sent = some r ∧ r.pattern = c.groups ∧
          (c.spoil = .absent → r.cls = .erroneous (some .interrupted)) ∧
          (∀ cause, c.spoil = .present cause → r.cls = .erroneous cause) ∧
          t.inbox.codes = s.inbox.codes ++ [⟨p, .outgoing, r, c.unrepeated⟩] ∧
          t.inbox.exchange = s.inbox.exchange ++ [⟨p, .outgoing, r, c.unrepeated⟩] ∧
          t.inbox.entries = s.inbox.entries ++ [(.bell, .bell p .outgoing c.groups r.cls)] ∧
          (t.port p).code = some c' ∧ c'.dir = .incoming ∧ c'.groups = [1])

/-- The end of a sensed beat, a beat that becomes held, and the end of a local bell stroke. -/
def Obligations.BeatEndsAndHolds : Prop :=
  (∀ (p : Sec) (s : State) (u : Pulse) (us : List Pulse) (e : Nat), (s.port p).pulses = u :: us → u.beat = true →
    u.ended = some e → ∃ t, exec (.endOfBeat p) s = .next t ∧ (t.port p).pulses = us ∧
      (∀ c, (s.port p).code = some c → (t.port p).code = some { c with lastEnd := some e }) ∧
      ((s.port p).sounder = .follow → (t.port p).sounder = .off) ∧
      ((s.port p).sounder ≠ .follow → (t.port p).sounder = (s.port p).sounder)) ∧
  (∀ (p : Sec) (s : State) (u : Pulse) (us : List Pulse), (s.port p).pulses = u :: us → u.beat = true → u.held = false →
    (u.ended = none ∧ u.start + s.times.beatmax ≤ s.now) ∨ (∃ e, u.ended = some e ∧ u.start + s.times.beatmax < e) →
    ∃ t, exec (.beatHeld p) s = .next t ∧ (t.port p).pulses = { u with held := true } :: us ∧
      (∀ c, (s.port p).code = some c → ∃ c', (t.port p).code = some c' ∧ c'.groups = c.groups ∧
        (c.spoil = .absent → c'.spoil = .present (some .held)) ∧ (c.spoil ≠ .absent → c'.spoil = c.spoil)) ∧
      ((s.port p).sounder = .follow → (t.port p).sounder = .off) ∧
      ((s.port p).sounder ≠ .follow → (t.port p).sounder = (s.port p).sounder)) ∧
  ∀ (p : Sec) (s : State) (d : Nat), (s.port p).sounder = .stroke d → ∃ t, exec (.strokeEnd p) s = .next t ∧
    (d ≤ s.now → (t.port p).sounder = .off) ∧ (s.now < d → (t.port p).sounder = .stroke d)

/-- A code completes at the end of its end wait, or at a collision under an outgoing beat: the line is free, the code is
classified by its mark and the table, recorded with the clock's time, and handed to the Block unit, the Service
controller and the Register unit; a collision cuts the drive and makes its CLASH entry first. -/
def Obligations.CodesComplete : Prop :=
  ∀ (p : Sec) (s : State) (c : Code), (s.port p).code = some c →
    let done := fun (cls : Classification) (before : List (RegUnit × RegBody)) (t : State) =>
      let r : CodeRecord := ⟨c.groups, cls, s.register.clock, s.now⟩
      (t.port p).owner = .free ∧ (t.port p).code = none ∧
        (c.dir = .outgoing → (t.port p).sent = some r ∧ (t.port p).rcvd = (s.port p).rcvd) ∧
        (c.dir ≠ .outgoing → (t.port p).rcvd = some r ∧ (t.port p).sent = (s.port p).sent) ∧
        t.inbox.codes = s.inbox.codes ++ [⟨p, c.dir, r, c.unrepeated⟩] ∧
        t.inbox.exchange = s.inbox.exchange ++ [⟨p, c.dir, r, c.unrepeated⟩] ∧
        t.inbox.entries = s.inbox.entries ++ before ++ [(.bell, .bell p c.dir c.groups cls)]
    (∀ e, c.lastEnd = some e → ∃ t, exec (.codeComplete p) s = .next t ∧
      (e + s.times.endWait ≤ s.now →
        (∀ cause, c.spoil = .present cause → done (.erroneous cause) [] t) ∧
        (∀ d, c.spoil = .absent → (s.codes.find? fun d => decide (d.pattern = c.groups)) = some d →
          done (.meaning d.meaning) [] t) ∧
        (c.spoil = .absent → (∀ d ∈ s.codes, d.pattern ≠ c.groups) → done .unknown [] t)) ∧
      (s.now < e + s.times.endWait → t.port p = s.port p)) ∧
    ((s.port p).clash = true → (s.port p).out ≠ none → ∃ t, exec (.collision p) s = .next t ∧
      (t.port p).drive = false ∧ (t.port p).out = none ∧
      (c.spoil = .absent → done (.erroneous (some .clashed)) [(.bell, .clash p)] t) ∧
      ∀ cause, c.spoil = .present cause → done (.erroneous cause) [(.bell, .clash p)] t)

/-- The tapper: a press taken under the ownership rule, within the bounds of 9 beats a group and 5 groups, a release, the
end of the stretch, and the cut of a drive held for BEATMAX. -/
def Obligations.TapperDrivesTheLine : Prop :=
  (∀ (p : Sec) (s : State), s.tapperWaits p true →
    let k := s.port p
    let takes := s.service.state = .inService ∨ (s.service.state = .switchedOut ∧ p = .c)
    ∃ t, exec (.tapperPress p) s = .next t ∧
      (¬takes → t.port p = k) ∧
      (∀ o, takes → k.out = some o → t.port p = { k with out := some { o with made := true } }) ∧
      (takes → k.out = none → k.held = true → t.port p = k) ∧
      (takes → k.out = none → k.held = false →
        (k.owner = .free → (t.port p).drive = true ∧ (t.port p).out = some ⟨s.now, true⟩ ∧
          (t.port p).owner = .outgoing ∧ ∃ c, (t.port p).code = some c ∧ c.dir = .outgoing ∧ c.groups = [1]) ∧
        (∀ (c : Code) (gs : List Nat) (g e : Nat), k.owner = .outgoing → k.code = some c → c.groups = gs ++ [g] →
          c.lastEnd = some e → c.overflow = false → (t.port p).drive = true ∧ (t.port p).out = some ⟨s.now, true⟩ ∧
          (t.port p).owner = .outgoing ∧ ∃ c', (t.port p).code = some c' ∧ c'.dir = c.dir ∧ c'.lastEnd = none ∧
            (s.now - e ≤ s.times.join → g < 9 → c'.groups = gs ++ [g + 1] ∧ c'.spoil = c.spoil) ∧
            (s.now - e ≤ s.times.join → 9 ≤ g → c'.groups = c.groups ∧
              (c.spoil = .absent → c'.spoil = .present none)) ∧
            (s.times.join < s.now - e → c.groups.length < 5 → c'.groups = c.groups ++ [1] ∧ c'.spoil = c.spoil) ∧
            (s.times.join < s.now - e → 5 ≤ c.groups.length → c'.groups = c.groups ∧
              (c.spoil = .absent → c'.spoil = .present none)) ∧
            (∀ cause, c.spoil = .present cause → c'.spoil = .present cause)) ∧
        (∀ c, k.owner = .incoming → k.code = some c → t.port p = { k with code := some { c with suppressed := true } }))) ∧
  (∀ (p : Sec) (s : State), s.tapperWaits p false → ∃ t, exec (.tapperRelease p) s = .next t ∧
    (t.port p).held = false ∧
    ((s.port p).out = none → t.port p = { s.port p with held := false }) ∧
    ∀ o, (s.port p).out = some o →
      (o.start + s.times.beatmin ≤ s.now → (t.port p).drive = false ∧ (t.port p).out = none ∧
        ∀ c, (s.port p).code = some c → (t.port p).code = some { c with lastEnd := some s.now }) ∧
      (s.now < o.start + s.times.beatmin → (t.port p).drive = (s.port p).drive ∧
        (t.port p).out = some { o with made := false } ∧ (t.port p).code = (s.port p).code)) ∧
  (∀ (p : Sec) (s : State) (o : OutBeat), (s.port p).out = some o → o.made = false →
    ∃ t, exec (.stretchEnd p) s = .next t ∧
      (o.start + s.times.beatmin ≤ s.now → (t.port p).drive = false ∧ (t.port p).out = none ∧
        ∀ c, (s.port p).code = some c → (t.port p).code = some { c with lastEnd := some s.now }) ∧
      (s.now < o.start + s.times.beatmin → t.port p = s.port p)) ∧
  ∀ (p : Sec) (s : State) (o : OutBeat), (s.port p).out = some o → o.made = true →
    ∃ t, exec (.tapperHeldCut p) s = .next t ∧
      (o.start + s.times.beatmax ≤ s.now → (t.port p).drive = false ∧ (t.port p).out = none ∧ (t.port p).held = true ∧
        ∀ c, (s.port p).code = some c → ∃ c', (t.port p).code = some c' ∧ c'.lastEnd = some s.now ∧
          c'.groups = c.groups ∧ (c.spoil = .absent → c'.spoil = .present (some .held)) ∧
          (c.spoil ≠ .absent → c'.spoil = c.spoil)) ∧
      (s.now < o.start + s.times.beatmax → t.port p = s.port p)

/-- Through working of the bells: what a beat sensed on one through port does on the other, by the path owner and the other
port's owner, and in its own code, which it begins, extends by its gap or interrupts, and on the local bell; the end of a
repeat, and its cut by CLASH. A beat that finds the path still its own port's is taken as one that finds it NONE (DEDUCED,
log 18: R122 gives the other two cases); a pulse that has ended was judged at its end (DESIGN CHOICE, log 45). -/
def Obligations.ThroughWorkingOfBells : Prop :=
  ∀ (p q : Sec), p.throughPair = some q →
    (∀ (s : State) (u : Pulse) (us : List Pulse), s.service.state = .switchedOut →
      (s.port p).pulses = u :: us → u.beat = false → (s.port p).out = none →
      (u.ended = none → u.start + s.times.beatmin ≤ s.now) →
      let repeats := s.service.path ≠ some q ∧ (s.port q).owner = .free
      ∃ t, exec (.startOfBeat p) s = .next t ∧ (t.port p).owner = .incoming ∧
        (t.port p).pulses = { u with beat := true } :: us ∧
        (t.port p).sounder =
          (match s.times.localmode with
            | .follow => .follow
            | .stroke => .stroke (s.now + s.times.stroke)) ∧
        ((s.port p).owner = .free → ∃ c, (t.port p).code = some c ∧ c.dir = .thru ∧ c.groups = [1] ∧
          (c.unrepeated = false ↔ s.service.path ≠ some q ∧ (s.port q).owner = .free)) ∧
        (∀ (c : Code) (gs : List Nat) (g e : Nat), (s.port p).owner = .incoming → (s.port p).code = some c →
          c.groups = gs ++ [g] → c.lastEnd = some e → c.overflow = false →
          ∃ c', (t.port p).code = some c' ∧ c'.dir = c.dir ∧ c'.lastEnd = none ∧
            (c.dir = .thru → (c'.unrepeated = true ↔ c.unrepeated = true ∨ ¬repeats)) ∧
            (u.start - e ≤ s.times.join → g < 9 → c'.groups = gs ++ [g + 1] ∧ c'.spoil = c.spoil) ∧
            (u.start - e ≤ s.times.join → 9 ≤ g → c'.groups = c.groups ∧
              (c.spoil = .absent → c'.spoil = .present none)) ∧
            (s.times.join < u.start - e → c.groups.length < 5 → c'.groups = c.groups ++ [1] ∧ c'.spoil = c.spoil) ∧
            (s.times.join < u.start - e → 5 ≤ c.groups.length → c'.groups = c.groups ∧
              (c.spoil = .absent → c'.spoil = .present none))) ∧
        (∀ c, (s.port p).owner = .outgoing → (s.port p).code = some c → c.dir = .outgoing →
          ∃ r c', (t.port p).sent = some r ∧ r.pattern = c.groups ∧
            (c.spoil = .absent → r.cls = .erroneous (some .interrupted)) ∧
            (∀ cause, c.spoil = .present cause → r.cls = .erroneous cause) ∧
            t.inbox.codes = s.inbox.codes ++ [⟨p, .outgoing, r, c.unrepeated⟩] ∧
            (.bell, .bell p .outgoing c.groups r.cls) ∈ t.inbox.entries ∧
            (t.port p).code = some c' ∧ c'.dir = .thru ∧ c'.groups = [1] ∧
            (c'.unrepeated = false ↔ repeats)) ∧
        (s.service.path = none → (s.port q).owner = .free → t.service.path = some p ∧ (t.port q).drive = true ∧
          (t.port q).rpt = some ⟨s.now, none⟩ ∧ (t.port q).owner = .free) ∧
        (s.service.path = none → (s.port q).owner ≠ .free → t.service.path = some p ∧ t.port q = s.port q) ∧
        (s.service.path = some p → t.service.path = some p ∧
          ((s.port q).owner = .free → (t.port q).drive = true ∧ (t.port q).rpt = some ⟨s.now, none⟩) ∧
          ((s.port q).owner ≠ .free → t.port q = s.port q)) ∧
        (s.service.path = some q → t.service.path = some q ∧ t.port q = s.port q ∧
          (.service, .clash p) ∈ t.inbox.entries)) ∧
    (∀ (s : State) (u : Pulse) (us : List Pulse) (e : Nat), (s.port p).pulses = u :: us → u.beat = true →
      u.ended = some e → s.service.path = some p → ∃ t, exec (.endOfBeat p) s = .next t ∧
        (∀ r, (s.port q).rpt = some r → (t.port q).rpt = some { r with stop := some (e + s.times.beatmin) } ∧
          (t.port q).drive = (s.port q).drive ∧ t.service.path = some p) ∧
        ((s.port q).rpt = none → t.service.path = none)) ∧
    (∀ (s : State) (r : Repeat), (s.port q).rpt = some r → ∃ t, exec (.repeatEnd q) s = .next t ∧
      ((∃ d, r.stop = some d ∧ d ≤ s.now) ∨ r.start + s.times.beatmax ≤ s.now →
        (t.port q).drive = false ∧ (t.port q).rpt = none ∧ ((s.port p).beatOn = false → t.service.path = none) ∧
          ((s.port p).beatOn = true → t.service.path = s.service.path)) ∧
      ((∀ d, r.stop = some d → s.now < d) → s.now < r.start + s.times.beatmax → t.port q = s.port q)) ∧
    (∀ (s : State), (s.port q).clash = true → (s.port q).rpt ≠ none → ∃ t, exec (.repeatClash q) s = .next t ∧
      (t.port q).drive = false ∧ (t.port q).rpt = none ∧
      (∀ u us, (s.port p).pulses = u :: us → u.beat = true → t.service.path = s.service.path) ∧
      ((s.port p).pulses = [] → t.service.path = none)) ∧
    ∀ (s : State) (c : Code), (s.port q).clash = true → (s.port q).rpt ≠ none → (s.port p).code = some c →
      ∃ t, exec (.repeatClash q) s = .next t ∧ (t.port q).drive = false ∧ (t.port q).rpt = none ∧
        t.inbox.entries = s.inbox.entries ++ [(.service, .clash q)] ∧
        (c.dir = .thru → (t.port p).code = some { c with unrepeated := true }) ∧
        (c.dir ≠ .thru → (t.port p).code = some c)

/-- No bell drive starts on a port while an incoming code is being assembled there: not from the tapper, not as a repeat
of through working. -/
def Obligations.DriveNeverStartsUnderIncoming : Prop :=
  ∀ (c : Instr) (s t : State) (p : Sec), exec c s = .next t → (s.port p).drive = false → (t.port p).drive = true →
    (s.port p).owner ≠ .incoming ∧ (s.service.state = .inService ∨ s.service.state = .switchedOut)

/-! ### Block sections -/

/-- The block switch's arrivals at LC, TOL and LB, by the section's state: LC is given only to an offer with every
clearing track CLEAR and every acceptance lever at N; TOL is honoured in every worked state; LB ends what may be ended. A
clearing track is read as the section has taken it: while changes of it are on their way to the section, in the state before
the first of them (R75, as log 40 reads it with R100). -/
def Obligations.BlockSwitchArrivals : Prop :=
  ∀ (x : Sec) (s : State),
    let k := s.section_ x
    let clock := s.register.clock
    let held := fun (c : Circuit) =>
      ((s.inbox.progress.find? fun h => decide (h.sec = x ∧ h.circuit = c)).map (·.was)).getD (s.circuit c).state
    let open_ := ∀ r, k.record = some r → (∀ c ∈ r.clearing, held c = .clear) ∧
      ∀ n ∈ r.accept, (s.lever n).pos = .nLocked ∨ (s.lever n).pos = .nFree
    let stays := fun (i : Ind) (t : State) => t.section_ x = { k with position := i }
    let ends := fun (i : Ind) (st : SecState) (outcome : TrainEnd) (t : State) =>
      (t.section_ x).state = st ∧ (t.section_ x).drive = driveOf st ∧ (t.section_ x).position = i ∧
        (t.section_ x).train = none ∧ (t.section_ x).releaseUnused = false ∧ (t.section_ x).timer = none ∧
        (t.section_ x).released = false ∧
        (k.train = none → s.inbox.entries ++ [(.block, .change x k.state st none false)] <+: t.inbox.entries) ∧
        ∀ r, k.train = some r → s.inbox.entries ++ [(.block, .change x k.state st (some r.ident) false),
          (.block, .train r.ident x r.inward r.cls outcome r.offered r.entered)] <+: t.inbox.entries
    let entersIn := fun (i : Ind) (t : State) =>
      (t.section_ x).state = .enteredIn ∧ (t.section_ x).drive = .tol ∧ (t.section_ x).position = i ∧
        (∀ r, k.train = some r → r.inward = true → ∃ r', (t.section_ x).train = some r' ∧ r'.ident = r.ident ∧
          (r'.stage = .entered ∨ r'.stage = .cleared) ∧ r'.entered = some clock ∧ r'.accepted = r.accepted)
    (s.switchWaits x .lc → ∃ t, exec (.arrivalAtLC x) s = .next t ∧
      (k.state = .offerIn → open_ → (t.section_ x).state = .clearIn ∧ (t.section_ x).drive = .lc ∧
        (t.section_ x).position = .lc ∧
        (∀ r, k.train = some r → (t.section_ x).train = some { r with stage := .accepted, accepted := some clock })) ∧
      (k.state ≠ .offerIn ∨ ¬open_ → stays .lc t)) ∧
    (s.switchWaits x .tol → ∃ t, exec (.arrivalAtTOL x) s = .next t ∧
      (k.state = .clearIn → entersIn .tol t) ∧
      (k.state = .blocked ∨ k.state = .offerIn ∨ k.state = .offerOut ∨ k.state = .clearOut ∨
        k.state = .unofferedClear ∨ k.state = .enteredOut → ends .tol .protected_ .cancelled t) ∧
      (k.state = .enteredIn ∨ k.state = .protected_ ∨ k.state = .closed ∨ k.state = .through → stays .tol t)) ∧
    (s.switchWaits x .lb → ∃ t, exec (.arrivalAtLB x) s = .next t ∧
      (k.state = .clearIn → k.enteringHeard = true → entersIn .lb t) ∧
      (k.state = .clearIn → k.enteringHeard = false → k.cancelHeard = true → ends .lb .blocked .cancelled t) ∧
      (k.state = .clearIn → k.enteringHeard = false → k.cancelHeard = false → stays .lb t) ∧
      (∀ r, k.state = .enteredIn → k.train = some r →
        (r.stage = .cleared → ends .lb .blocked .complete t) ∧
        (r.stage ≠ .cleared → k.released = true → ends .lb .blocked .released t) ∧
        (r.stage ≠ .cleared → k.released = false → stays .lb t)) ∧
      (k.state = .protected_ → ends .lb .blocked .cancelled t) ∧
      (k.state = .closed ∨ k.state = .blocked ∨ k.state = .offerOut ∨ k.state = .clearOut ∨ k.state = .unofferedClear ∨
        k.state = .enteredOut ∨ k.state = .offerIn ∨ k.state = .through → stays .lb t))

/-- A delivered code in the section's state: an offer creates a train record, an offer against an offer in hand voids
both with its CROSSED entry first, cancellations and ENTERING; any other code changes nothing but the mark, and a CLOSED
or THROUGH section takes none. Each marking is a change of SEC s, of the same mark as the code before it too. -/
def Obligations.CodesAtASection : Prop :=
  ∀ (x : Sec) (s : State) (h : CodeHanded), s.codeWaits x h →
    let k := s.section_ x
    let ident := if s.lastTrain < 999 then s.lastTrain + 1 else 1
    let offered := fun (st : SecState) (inward : Bool) (cls : Nat) (t : State) =>
      (t.section_ x).state = st ∧ (t.section_ x).drive = .lb ∧ t.lastTrain = ident ∧
        (t.section_ x).train = some ⟨ident, inward, cls, .offered, s.register.clock, none, none, 0⟩ ∧
        (k.train = none →
          s.inbox.entries ++ [(.block, .change x .blocked st (some ident) false)] <+: t.inbox.entries)
    let crossed := fun (t : State) => (t.section_ x).state = .blocked ∧ (t.section_ x).train = none ∧
      ∀ r, k.train = some r → s.inbox.entries ++ [(.block, .crossed x),
        (.block, .change x k.state .blocked (some r.ident) false),
        (.block, .train r.ident x r.inward r.cls .void r.offered r.entered)] <+: t.inbox.entries
    let cancelled := fun (t : State) => (t.section_ x).state = .blocked ∧ (t.section_ x).train = none ∧
      ∀ r, k.train = some r → s.inbox.entries ++ [(.block, .change x k.state .blocked (some r.ident) false),
        (.block, .train r.ident x r.inward r.cls .cancelled r.offered r.entered)] <+: t.inbox.entries
    let reported := fun (t : State) => k.state ≠ .closed → k.state ≠ .through → s.link.classes.sec = true →
      .sec x ∈ t.link.reports
    (h.dir = .outgoing → ∃ t, exec (.outCodeTaken x) s = .next t ∧ reported t ∧
      let taken := (t.section_ x).sentMark = some .taken
      (∀ cls, h.code.cls = .meaning (.offer cls) → k.state = .blocked → offered .offerOut false cls t ∧ taken) ∧
      (∀ cls, h.code.cls = .meaning (.offer cls) → k.state = .offerIn → crossed t ∧ taken) ∧
      (h.code.cls = .meaning .cancel → k.state = .offerOut → cancelled t ∧ taken) ∧
      ((∀ cls, h.code.cls = .meaning (.offer cls) → k.state ≠ .blocked ∧ k.state ≠ .offerIn) →
        (h.code.cls = .meaning .cancel → k.state ≠ .offerOut) →
        t.section_ x = { k with sentMark :=
          (if k.state = .closed ∨ k.state = .through then none else some .outOfTurn) })) ∧
    (h.dir = .incoming → ∃ t, exec (.inCodeTaken x) s = .next t ∧ reported t ∧
      let taken := (t.section_ x).rcvdMark = some .taken
      (∀ cls, h.code.cls = .meaning (.offer cls) → k.state = .blocked → offered .offerIn true cls t ∧ taken) ∧
      (∀ cls, h.code.cls = .meaning (.offer cls) → k.state = .offerOut → crossed t ∧ taken) ∧
      (h.code.cls = .meaning .cancel → k.state = .offerIn → cancelled t ∧ taken) ∧
      (h.code.cls = .meaning .cancel → k.state = .clearIn → k.enteringHeard = false →
        t.section_ x = { k with cancelHeard := true, rcvdMark := some .taken }) ∧
      (h.code.cls = .meaning .entering → k.state = .clearIn → k.enteringHeard = false →
        t.section_ x = { k with enteringHeard := true, cancelHeard := false, rcvdMark := some .taken }) ∧
      ((∀ cls, h.code.cls = .meaning (.offer cls) → k.state ≠ .blocked ∧ k.state ≠ .offerOut) →
        (h.code.cls = .meaning .cancel → k.state ≠ .offerIn ∧ (k.state = .clearIn → k.enteringHeard = true)) →
        (h.code.cls = .meaning .entering → k.state = .clearIn → k.enteringHeard = true) →
        t.section_ x = { k with rcvdMark :=
          (if k.state = .closed ∨ k.state = .through then none else some .outOfTurn) })) ∧
    (h.dir = .thru → ∃ t, exec (.inCodeTaken x) s = .next t ∧ reported t ∧
      t.section_ x = { k with rcvdMark := (if k.state = .closed ∨ k.state = .through then none else some .outOfTurn) })

/-- The incoming indicator: how a sample starts the unsettled time, when a class settles, when the reading becomes
INVALID; and what each change of the reading does in the section's state. -/
def Obligations.ReadingChangesAtASection : Prop :=
  (∀ (p : Sec) (cls : IndClass) (s : State), s.service.state ≠ .powerUp →
    ∃ t, exec (.indicatorSample p cls) s = .next t ∧
      (t.section_ p).reading = (s.section_ p).reading ∧ (t.section_ p).state = (s.section_ p).state ∧
      (cls = .outside → (t.section_ p).showing = none) ∧
      (∀ c τ, cls = .valid c → (s.section_ p).showing = some (c, τ) → (t.section_ p).showing = some (c, τ)) ∧
      (∀ c, cls = .valid c → (∀ τ, (s.section_ p).showing ≠ some (c, τ)) → (t.section_ p).showing = some (c, s.now)) ∧
      (∀ τ, (s.section_ p).unsettled = some τ → (t.section_ p).unsettled = some τ) ∧
      ((s.section_ p).unsettled = none →
        ((∃ c, cls = .valid c ∧ (s.section_ p).reading = some c) → (t.section_ p).unsettled = none) ∧
        ((∀ c, cls = .valid c → (s.section_ p).reading ≠ some c) → (t.section_ p).unsettled = some s.now))) ∧
  ∀ (p : Sec) (s : State),
    let k := s.section_ p
    let becomes := fun (new : Option Ind) (t : State) =>
      (t.section_ p).reading = new ∧ (t.section_ p).unsettled = none ∧
      (k.reading = new → t.section_ p = { k with unsettled := none } ∧ t.inbox.readings = s.inbox.readings) ∧
      (k.reading ≠ new → t.inbox.readings = s.inbox.readings ++ [p] ∧
        (k.state = .offerOut → new = some .lc → (t.section_ p).state = .clearOut ∧
          (t.section_ p).releaseUnused = true ∧ (∀ r, k.train = some r →
            (t.section_ p).train = some { r with stage := .accepted, accepted := some s.register.clock })) ∧
        (k.state = .clearOut → new = some .tol → (t.section_ p).state = .enteredOut ∧
          (t.section_ p).releaseUnused = false ∧ (∀ r, k.train = some r →
            (t.section_ p).train = some { r with stage := .entered, entered := some s.register.clock })) ∧
        (k.state = .clearOut ∨ k.state = .enteredOut ∨ k.state = .unofferedClear → new = some .lb →
          (t.section_ p).state = .blocked ∧ (t.section_ p).releaseUnused = false ∧ (t.section_ p).train = none ∧
          (∀ r, k.train = some r → (.block, .train r.ident p r.inward r.cls
            (if k.state = .enteredOut then .complete else .cancelled) r.offered r.entered) ∈ t.inbox.entries)) ∧
        (k.state = .clearOut → new = none →
          t.section_ p = { k with reading := none, unsettled := none, releaseUnused := false } ∧
          (.block, .change p .clearOut .clearOut (k.train.map (·.ident)) false) ∈ t.inbox.entries) ∧
        (k.state = .blocked → new = some .lc →
          (t.section_ p).state = .unofferedClear ∧ (t.section_ p).releaseUnused = false ∧
          (t.section_ p).train = none) ∧
        (k.state = .blocked → new = some .tol →
          t.section_ p = { k with reading := new, unsettled := none } ∧
          (.block, .change p .blocked .blocked (k.train.map (·.ident)) false) ∈ t.inbox.entries) ∧
        (¬(k.state = .offerOut ∧ new = some .lc) → ¬(k.state = .clearOut ∧ new ≠ some .lc) →
          ¬(k.state = .enteredOut ∧ new = some .lb) → ¬(k.state = .unofferedClear ∧ new = some .lb) →
          ¬(k.state = .blocked ∧ (new = some .lc ∨ new = some .tol)) →
          t.section_ p = { k with reading := new, unsettled := none }))
    (∀ c τ, k.showing = some (c, τ) → ∃ t, exec (.indicatorSettled p) s = .next t ∧
      (τ + s.times.indstable ≤ s.now → becomes (some c) t) ∧ (s.now < τ + s.times.indstable → t.section_ p = k)) ∧
    ∀ τ, k.unsettled = some τ → ∃ t, exec (.unsettledTimeout p) s = .next t ∧
      (τ + 2000 ≤ s.now → becomes none t) ∧ (s.now < τ + 2000 → t.section_ p = k)

/-- The release used by an arrival at R, auto-TOL, arrival progress, the release plunger and the emergency timer. A change
of an arrival track, taken by its section, brings the progress check, which reads the tracks as they stand then; that of a
track which is a clearing track only is taken and changes no section. A change of the first arrival track from CLEAR is taken
by AUTO_TOL, in every state, or by PROGRESS_CHECK, which leaves to AUTO_TOL one on which auto-TOL acts; taken by either, it is
seen by the next arrival at LC (DEDUCED, log 40). A record taken at START on tracks already
occupied is carried and becomes CLEARED as any other (DEDUCED, log 44). -/
def Obligations.ReleaseProgressAndEmergency : Prop :=
  let autoActs := fun (k : SectionData) =>
    k.state = .clearIn ∧ ∃ r, k.record = some r ∧ r.autotol = true ∧ r.arrival ≠ []
  let checks := fun (x : Sec) (s t : State) => ∀ r sr, (s.section_ x).state = .enteredIn →
    (s.section_ x).train = some r → r.inward = true → (s.section_ x).record = some sr → r.progress ≤ sr.arrival.length →
    ∃ r', (t.section_ x).train = some r' ∧ r.progress ≤ r'.progress ∧ r'.progress ≤ sr.arrival.length ∧
      (∀ i (hi : i < sr.arrival.length), r.progress ≤ i → i < r'.progress → (s.circuit sr.arrival[i]).state ≠ .clear) ∧
      (∀ (hp : r'.progress < sr.arrival.length), (s.circuit sr.arrival[r'.progress]).state = .clear) ∧
      ((∃ c rest, sr.arrival = c :: rest ∧ (s.circuit c).state = .clear) → r'.progress = sr.arrival.length →
        r'.stage = .cleared) ∧
      (r'.progress < sr.arrival.length → r'.stage = r.stage) ∧
      (∀ c rest, sr.arrival = c :: rest → (s.circuit c).state ≠ .clear → r'.stage = r.stage)
  (∀ (n : Lever) (s : State), n ∈ s.inbox.atR → ∃ t, exec (.blockControlArrival n) s = .next t ∧ ∀ x,
    ((s.lever n).blockControl = some x → t.section_ x = { s.section_ x with releaseUnused := false }) ∧
    ((s.lever n).blockControl ≠ some x → t.section_ x = s.section_ x)) ∧
  (∀ (x : Sec) (s : State), x ∈ s.inbox.autoTol →
    let k := s.section_ x
    ∃ t, exec (.autoTol x) s = .next t ∧
      (autoActs k → (t.section_ x).state = .enteredIn ∧ (t.section_ x).drive = .tol ∧
        s.inbox.entries ++ [(.block, .change x .clearIn .enteredIn (k.train.map (·.ident)) true)] <+:
          t.inbox.entries ∧
        ∀ r, k.train = some r → ∃ r', (t.section_ x).train = some r' ∧ r'.entered = some s.register.clock) ∧
      (¬autoActs k → (k.state ≠ .enteredIn → t.section_ x = k) ∧ checks x s t ∧
        t.section_ x = { k with train := (t.section_ x).train }) ∧
      ∀ sr c rest before after, k.record = some sr → sr.arrival = c :: rest →
        s.inbox.progress = before ++ ⟨x, c, .clear⟩ :: after → (∀ h ∈ before ++ after, h.sec = x → h.circuit ≠ c) →
        t.blockTrack x c = (s.circuit c).state) ∧
  (∀ (x : Sec) (s : State) (h : TrackHanded) (before after : List TrackHanded),
    s.inbox.progress = before ++ h :: after → h.sec = x → (∀ g ∈ before, g.sec ≠ x) →
    let k := s.section_ x
    let leaves := autoActs k ∧ x ∈ s.inbox.autoTol ∧ h.was = .clear ∧
      ∃ sr rest, k.record = some sr ∧ sr.arrival = h.circuit :: rest
    ∃ t, exec (.progressCheck x) s = .next t ∧
      (leaves → t.inbox.progress = s.inbox.progress ∧ ∀ y, t.section_ y = s.section_ y) ∧
      (¬leaves → t.inbox.progress = before ++ after) ∧
      ((∀ sr, k.record = some sr → h.circuit ∉ sr.arrival) → ∀ y, t.section_ y = s.section_ y) ∧
      ((∃ sr, k.record = some sr ∧ h.circuit ∈ sr.arrival) → checks x s t)) ∧
  (∀ (x : Sec) (s : State), x ∈ s.inbox.plungers →
    let k := s.section_ x
    let accepted := k.state = .enteredIn ∧ (∀ r, k.train = some r → r.stage ≠ .cleared) ∧ k.timer = none ∧
      k.released = false
    let count := if k.releases < 9999 then k.releases + 1 else k.releases
    ∃ t, exec (.releasePlungerPress x) s = .next t ∧
      (accepted → t.section_ x = { k with timer := some (s.now + s.times.emrel * 1000), releases := count } ∧
        t.inbox.entries = s.inbox.entries ++ [(.block, .release x count)]) ∧
      (¬accepted → t.section_ x = k)) ∧
  ∀ (x : Sec) (s : State) (d : Nat), (s.section_ x).timer = some d → ∃ t, exec (.emergencyTimerExpiry x) s = .next t ∧
    (d ≤ s.now → t.section_ x = { s.section_ x with timer := none, released := true }) ∧
    (s.now < d → t.section_ x = s.section_ x)

/-- A section enters CLEAR_IN only at the switch's arrival at LC under an offer, with its tracks CLEAR and its levers at N;
and a release is given only by the neighbour's LC settling in OFFER_OUT, at the entry into CLEAR_OUT. The tracks are those
the section has taken, which no command but its PROGRESS_CHECK, its AUTO_TOL and a reset changes (log 40). An arrival at R of
a lever under the section's control spends the release, from the arrival and not only from its taking (DEDUCED, log 40); and
a release spent stays so, whatever is done under the same block controls, until the section enters CLEAR_OUT again. No block
term is met by a spent release (O15), so one release lets no lever leave N after another has used it (R43). -/
def Obligations.AcceptanceAndReleaseOnlyAsGiven : Prop :=
  ∀ (c : Instr) (s t : State) (x : Sec), exec c s = .next t →
    ((s.section_ x).state ≠ .clearIn → (t.section_ x).state = .clearIn →
      c = .arrivalAtLC x ∧ s.switchWaits x .lc ∧ (s.section_ x).state = .offerIn ∧
        ∀ r, (s.section_ x).record = some r → (∀ d ∈ r.clearing, s.blockTrack x d = .clear) ∧
          ∀ n ∈ r.accept, (s.lever n).pos = .nLocked ∨ (s.lever n).pos = .nFree) ∧
    ((s.section_ x).releaseUnused = false → (t.section_ x).releaseUnused = true →
      c = .indicatorSettled x ∧ (s.section_ x).state = .offerOut ∧ (t.section_ x).state = .clearOut ∧
        (s.section_ x).reading ≠ some .lc ∧ (t.section_ x).reading = some .lc) ∧
    (c ≠ .progressCheck x → c ≠ .autoTol x → (∀ b, c ≠ .reset b ∧ c ≠ .restartPowerUp b) → ∀ r d,
      (s.section_ x).record = some r → (t.section_ x).record = some r → d ∈ r.clearing →
      t.blockTrack x d = s.blockTrack x d) ∧
    let spent := fun (u : State) =>
      (u.section_ x).releaseUnused = false ∨ ∃ m ∈ u.inbox.atR, (u.lever m).blockControl = some x
    (∀ n, c = .arrivalAtR n → (s.lever n).blockControl = some x → (s.lever n).pos = .travel →
      (t.lever n).pos = .rLocked → spent t) ∧
    (spent s → (∀ m, (t.lever m).blockControl = (s.lever m).blockControl) → spent t ∨
      (c = .indicatorSettled x ∧ (s.section_ x).state = .offerOut ∧ (t.section_ x).state = .clearOut))

/-! ### Switching out and through working -/

/-- A completed code in the code exchange memory, the marks a reception earns, and the outgoing indicator of the other
through port. -/
def Obligations.CodeExchangeAndThroughIndicators : Prop :=
  (∀ (p : Sec) (s : State) (h : CodeHanded), s.exchangeWaits p h →
    let r : MemCode := ⟨h.code.pattern, h.code.cls, h.code.time, h.code.stamp⟩
    ∃ t, exec (.codeExchangeUpdate p) s = .next t ∧
      (h.dir = .outgoing → t.memory p = { s.memory p with sent := some r }) ∧
      (h.dir ≠ .outgoing →
        (t.memory p).rcvd = some r ∧
        let answers := fun (m : Meaning) => ∃ c, (s.memory p).sent = some c ∧ c.cls = .meaning m ∧
          c.pattern = r.pattern ∧ c.stamp < r.stamp ∧ r.stamp ≤ c.stamp + s.times.codewin * 1000
        (∀ c, (s.memory p).sent = some c → r.cls = .meaning .boxOut → answers .boxOut →
          (t.memory p).boxOut = some c.stamp ∧ (t.memory p).boxIn = none) ∧
        (∀ c, (s.memory p).sent = some c → r.cls = .meaning .boxIn → answers .boxIn →
          (t.memory p).boxIn = some c.stamp ∧ (t.memory p).boxOut = none) ∧
        (¬(r.cls = .meaning .boxOut ∧ answers .boxOut) → ¬(r.cls = .meaning .boxIn ∧ answers .boxIn) →
          (t.memory p).boxOut = (s.memory p).boxOut ∧ (t.memory p).boxIn = (s.memory p).boxIn)) ∧
      (∀ q, h.dir = .thru → p.throughPair = some q →
        (h.unrepeated = false → (t.memory q).sent = some r) ∧
        (h.unrepeated = true → (t.memory q).sent = some { r with cls := .erroneous none }))) ∧
  ∀ (p q : Sec) (s : State), p.throughPair = some q → p ∈ s.inbox.readings →
    ∃ t, exec (.throughIndicatorRepeat p) s = .next t ∧
      (s.service.state = .switchedOut →
        (∀ i, (s.section_ p).reading = some i → t.section_ q = { s.section_ q with drive := i }) ∧
        ((s.section_ p).reading = none → t.section_ q = { s.section_ q with drive := .lb })) ∧
      (s.service.state ≠ .switchedOut → t.section_ q = s.section_ q)

/-- The box switch: when an arrival at OUT switches the box out and what that does, when an arrival at IN switches it in,
and that a refused arrival changes only the position and the last refusal, which is the first condition that fails in the
order of R120 and of R125, with its index (of several levers the lowest, of several sections the first letter, of several
terms the first in lever order: logs 21, 22, 39). An arrival that agrees with the service state clears the last refusal; one
in POWER_UP or CONFIGURE leaves it (log 20). -/
def Obligations.BoxSwitchArrivals : Prop :=
  ∀ s : State,
    let exchanged := fun (mark : Option Nat) => ∃ τ, mark = some τ ∧ s.now ≤ τ + s.times.codewin * 1000
    let mayOut := (∃ ts, s.service.boxout = some ts ∧ ∀ e ∈ ts,
        (s.lever e.lever).pos = (match e.pos with
          | .n => LeverPos.nLocked
          | .r => LeverPos.rLocked)) ∧
      (∀ x r, (s.section_ x).record = some r → (s.section_ x).state = .blocked) ∧
      (∀ n, (s.lever n).loaded = true →
        (s.lever n).pos = .nLocked ∨ (s.lever n).pos = .rLocked ∨ (s.lever n).pos = .fault) ∧
      exchanged (s.memory .a).boxOut ∧ exchanged (s.memory .b).boxOut
    let mayIn := (s.section_ .a).reading = some .lb ∧ (s.section_ .b).reading = some .lb ∧
      exchanged (s.memory .a).boxIn ∧ exchanged (s.memory .b).boxIn
    let fresh := fun (mark : Option Nat) => mark.any fun τ => decide (s.now ≤ τ + s.times.codewin * 1000)
    let failsOut : Option BoxRefusal :=
      match s.service.boxout with
      | none => some .noList
      | some ts =>
        match [Sec.a, .b, .c].find? fun x => decide ((s.section_ x).record ≠ none ∧ (s.section_ x).state ≠ .blocked),
          allLevers.find? (fun n => decide ((s.lever n).record ≠ none ∧
            (s.lever n).pos ∈ [LeverPos.nFree, .rFree, .travel, .backlocked])),
          ts.find? (fun e => decide ((s.lever e.lever).pos ≠ (match e.pos with
            | .n => LeverPos.nLocked
            | .r => LeverPos.rLocked))),
          [Sec.a, .b].find? (fun x => !fresh (s.memory x).boxOut) with
        | some x, _, _, _ => some (.notBlocked x)
        | none, some n, _, _ => some (.lever n)
        | none, none, some e, _ => some (.term e.lever)
        | none, none, none, some x => some (.exchange x)
        | none, none, none, none => none
    let failsIn : Option BoxRefusal :=
      match [Sec.a, .b].find? (fun x => decide ((s.section_ x).reading ≠ some .lb)),
        [Sec.a, .b].find? (fun x => !fresh (s.memory x).boxIn) with
      | some x, _ => some (.indicator x)
      | none, some x => some (.exchange x)
      | none, none => none
    let kept := fun (t : State) => t.service.state = s.service.state ∧ (∀ x, t.section_ x = s.section_ x) ∧
      (∀ p, t.port p = s.port p ∧ t.memory p = s.memory p) ∧ t.service.path = s.service.path
    let cleared := fun (t : State) => (t.memory .a).boxOut = none ∧ (t.memory .a).boxIn = none ∧
      (t.memory .b).boxOut = none ∧ (t.memory .b).boxIn = none ∧ t.service.path = none ∧ t.service.refusal = none
    (s.boxWaits .out → ∃ t, exec .arrivalAtOut s = .next t ∧ t.service.position = .out ∧
      (s.service.state = .inService → mayOut →
        t.service.state = .switchedOut ∧ cleared t ∧ (.service, .box .switchedOut) ∈ t.inbox.entries ∧
        (t.section_ .a).state = .through ∧ (t.section_ .b).state = .through ∧
        (t.section_ .a).drive = (s.section_ .b).reading.getD .lb ∧
        (t.section_ .b).drive = (s.section_ .a).reading.getD .lb ∧
        (∀ r, (s.section_ .c).record = some r → (t.section_ .c).state = .closed ∧ (t.section_ .c).drive = .lb) ∧
        (∀ p, (p = .a ∨ p = .b) → (s.port p).out ≠ none → (t.port p).drive = false ∧ (t.port p).out = none) ∧
        t.port .c = s.port .c ∧ ∀ n, t.lever n = s.lever n) ∧
      (s.service.state = .inService → ¬mayOut → kept t ∧ t.service.refusal ≠ none) ∧
      (s.service.state = .inService → t.service.refusal = failsOut ∧ (failsOut = none ↔ mayOut)) ∧
      (s.service.state = .switchedOut → t.service.refusal = none) ∧
      (s.service.state = .powerUp ∨ s.service.state = .configure → t.service.refusal = s.service.refusal) ∧
      (s.service.state ≠ .inService → kept t)) ∧
    (s.boxWaits .inn → ∃ t, exec .arrivalAtIn s = .next t ∧ t.service.position = .inn ∧
      (s.service.state = .switchedOut → mayIn →
        t.service.state = .inService ∧ cleared t ∧ (.service, .box .switchedIn) ∈ t.inbox.entries ∧
        (∀ x r, (s.section_ x).record = some r → (t.section_ x).state = .blocked ∧ (t.section_ x).drive = .lb) ∧
        (∀ p, (p = .a ∨ p = .b) → (s.port p).rpt ≠ none → (t.port p).drive = false ∧ (t.port p).rpt = none) ∧
        ∀ n, t.lever n = s.lever n) ∧
      (s.service.state = .switchedOut → ¬mayIn → kept t ∧ t.service.refusal ≠ none) ∧
      (s.service.state = .switchedOut → t.service.refusal = failsIn ∧ (failsIn = none ↔ mayIn)) ∧
      (s.service.state = .inService → t.service.refusal = none) ∧
      (s.service.state = .powerUp ∨ s.service.state = .configure → t.service.refusal = s.service.refusal) ∧
      (s.service.state ≠ .switchedOut → kept t))

/-- The service state changes only by the reset pin and RESTART, the completion of initialisation, START, WITHDRAW, and
the box switch. -/
def Obligations.ServiceStateChanges : Prop :=
  ∀ (c : Instr) (s t : State), exec c s = .next t → t.service.state ≠ s.service.state →
    (t.service.state = .powerUp ∧ ((∃ b, c = .reset b) ∨ ∃ b, c = .restartPowerUp b ∧ s.link.restart = .replySending)) ∨
    (s.service.state = .powerUp ∧ t.service.state = .configure ∧ c = .initialisationComplete ∧ s.resetHeld = false ∧
      ∀ k, (s.contacts.contact k).reading ≠ none) ∨
    (s.service.state = .configure ∧ t.service.state = .inService ∧ c = .start) ∨
    (s.service.state = .inService ∧ t.service.state = .configure ∧ c = .withdraw ∧
      (∀ n, (s.lever n).loaded = true → (s.lever n).pos = .nLocked ∨ (s.lever n).pos = .rLocked) ∧
      ∀ x, (s.section_ x).record ≠ none → (s.section_ x).state = .blocked) ∨
    (s.service.state = .inService ∧ t.service.state = .switchedOut ∧ c = .arrivalAtOut ∧ s.boxWaits .out) ∨
    (s.service.state = .switchedOut ∧ t.service.state = .inService ∧ c = .arrivalAtIn ∧ s.boxWaits .inn)

/-! ### Register and diagram -/

/-- An entry appended to the ring with the next number and the clock's time, displacing the oldest of 256 and moving a send
mark that named it; and a tenth of a second counted by the clock. -/
def Obligations.RegisterAppendsAndClockCounts : Prop :=
  (∀ (u : RegUnit) (s : State) (body : RegBody),
    (s.inbox.entries.find? fun e => decide (e.1 = u)) = some (u, body) →
    let e : RegEntry := ⟨s.register.next, s.register.clock, body⟩
    ∃ t, exec (.registerAppend u) s = .next t ∧ t.register.next = s.register.next + 1 ∧
      t.register.clock = s.register.clock ∧
      (s.register.ring.length < 256 → t.register.ring = s.register.ring ++ [e] ∧ t.link.mark = s.link.mark) ∧
      ∀ old rest, s.register.ring = old :: rest → 256 ≤ s.register.ring.length →
        t.register.ring = rest ++ [e] ∧
        (s.link.mark = some old.seq → t.link.mark = some (old.seq + 1)) ∧
        (s.link.mark ≠ some old.seq → t.link.mark = s.link.mark)) ∧
  ∀ s : State, s.service.state ≠ .powerUp → ∃ t, exec .clockTick s = .next t ∧
    let c := s.register.clock
    (c.tenths + 1 < 864000 → t.register.clock = { c with tenths := c.tenths + 1 }) ∧
    (864000 ≤ c.tenths + 1 → t.register.clock = { c with tenths := 0, day := (c.day + 1) % 65536 })

/-- A diagram frame: the bindings taken at its start, the snapshot's cell values by the condition of each source, the
bindings, brightness and flash half, and the publishing and flash cycle at its completion. -/
def Obligations.DiagramFrames : Prop :=
  (∀ s : State, s.service.state ≠ .powerUp → s.diagram.current = none →
    let condition := fun (src : Source) =>
      match src with
      | .off | .host => False
      | .on => True
      | .track d clr => if clr then (s.circuit d).state = .clear else (s.circuit d).state ≠ .clear
      | .lever n q => (s.lever n).record ≠ none ∧
        match q with
        | .n => (s.lever n).pos = .nLocked ∨ (s.lever n).pos = .nFree
        | .r => (s.lever n).pos = .rLocked ∨ (s.lever n).pos = .rFree
        | .free => (s.lever n).lock = true
        | .refused => (s.lever n).refused = true
      | .sec x states => (s.section_ x).state ∈ states
      | .indicator x lc => (s.section_ x).reading = some (if lc then .lc else .tol)
      | .bell x => s.diagram.latches.get x = true
      | .box => s.service.state = .switchedOut
      | .disagree (some x) => (s.section_ x).state ≠ .closed ∧ (s.section_ x).state ≠ .through ∧
        (s.section_ x).position ≠ (s.section_ x).drive
      | .disagree none => (s.service.state = .inService ∧ s.service.position = .out) ∨
        (s.service.state = .switchedOut ∧ s.service.position = .inn)
      | .alarm => (∃ d x, (s.circuit d).state = .failed x) ∨ ∃ n, (s.lever n).forced = true
    ∃ t f, exec .diagramFrameStart s = .next t ∧ t.diagram.current = some f ∧ t.diagram.started = s.now ∧
      t.diagram.ops = [] ∧ t.diagram.div = s.times.div ∧
      t.diagram.period = (s.times.flashms + s.times.div - 1) / s.times.div ∧
      (∀ p, t.diagram.latches.get p = (s.port p).beatInProgress) ∧
      (∀ p, (s.port p).beatInProgress = true ↔ (s.port p).drive = true ∨ ∃ w ∈ (s.port p).pulses, w.beat = true) ∧
      f.bindings = t.diagram.bound ∧
      f.half = s.diagram.half ∧ f.level = s.diagram.level ∧ f.ton = (f.b * 120 + 254) / 255 ∧
      (s.diagram.level = .active → f.b = s.diagram.bright) ∧ (s.diagram.level = .dimmed → f.b = s.diagram.dim) ∧
      (s.diagram.level = .dark → f.b = 0) ∧
      (f.rowrev = true ↔ s.times.rowrev = 1) ∧ (f.colrev = true ↔ s.times.colrev = 1) ∧
      (∀ c b, s.diagram.ops = [.load c b] → mapGet t.diagram.bound c = some b ∧
        (b.source = .host → mapGet t.diagram.host c = some .off ∧ mapGet f.cells c = some .off)) ∧
      (s.diagram.ops = [.erase] → t.diagram.bound = [] ∧ t.diagram.host = [] ∧ f.cells = []) ∧
      (∀ before c b after, s.diagram.ops = before ++ .load c b :: after → LampOp.erase ∉ after →
        (∀ d, .load c d ∉ after) → mapGet t.diagram.bound c = some b) ∧
      (∀ before after, s.diagram.ops = before ++ .erase :: after → ∀ c, (∀ d, .load c d ∉ after) →
        mapGet t.diagram.bound c = none ∧ mapGet t.diagram.host c = none) ∧
      (s.diagram.ops = [] → ∀ c,
        (mapGet s.diagram.bound c = none → mapGet f.cells c = none) ∧
        ∀ b, mapGet s.diagram.bound c = some b → ∃ v, mapGet f.cells c = some v ∧
          (b.source = .host → v = (mapGet s.diagram.host c).getD .off) ∧
          (b.source = .alarm →
            ((∃ d x, (s.circuit d).state = .failed x) ∨ (∃ n, (s.lever n).forced = true) → v = .flash) ∧
            ((∀ d x, (s.circuit d).state ≠ .failed x) → (∀ n, (s.lever n).forced = false) → v = .off)) ∧
          (∀ d clr x, b.source = .track d clr → (s.circuit d).state = .failed x → v = .flash) ∧
          (b.source ≠ .host → b.source ≠ .alarm →
            (∀ d clr x, b.source = .track d clr → (s.circuit d).state ≠ .failed x) →
            (condition b.source ↔ s.condition b.source = true) ∧
            ((condition b.source ↔ b.invert = false) → v = if b.flash then .flash else .on) ∧
            (¬(condition b.source ↔ b.invert = false) → v = .off) ∧
            (s.condition b.source ≠ b.invert → v = if b.flash then .flash else .on) ∧
            (s.condition b.source = b.invert → v = .off)))) ∧
  ∀ (s : State) (f : LampFrame), s.diagram.current = some f → ∃ t, exec .diagramFrameComplete s = .next t ∧
    (s.diagram.started + s.diagram.div ≤ s.now → t.diagram.published = some f ∧ t.diagram.current = none ∧
      (s.diagram.flashCount + 1 < s.diagram.period →
        t.diagram.half = s.diagram.half ∧ t.diagram.flashCount = s.diagram.flashCount + 1) ∧
      (s.diagram.period ≤ s.diagram.flashCount + 1 → t.diagram.half = !s.diagram.half ∧ t.diagram.flashCount = 0)) ∧
    (s.now < s.diagram.started + s.diagram.div → t.diagram = s.diagram)

/-- The light level at an activity, at the end of the idle time, and at a change of service state. In POWER_UP an activity
has no effect. -/
def Obligations.LightLevelChanges : Prop :=
  (∀ (s : State) (a : Activity) (rest : List Activity), s.inbox.activity = a :: rest →
    ∃ t, exec .signallerActivity s = .next t ∧ t.inbox.activity = rest ∧
      (s.service.state ≠ .powerUp → t.diagram.idleFrom = s.now ∧
        (a = .grip ∨ s.diagram.level ≠ .dark → t.diagram.level = .active) ∧
        (a = .other → s.diagram.level = .dark → t.diagram.level = .dark)) ∧
      (s.service.state = .powerUp → t.diagram = s.diagram)) ∧
  (∀ s : State, s.service.state ≠ .powerUp → ∃ t, exec .idleTimeout s = .next t ∧
    (s.diagram.level = .active → s.times.idle ≠ 0 → s.diagram.idleFrom + s.times.idle * 60000 ≤ s.now →
      t.diagram.level = .dimmed) ∧
    (s.diagram.level ≠ .active ∨ s.times.idle = 0 ∨ s.now < s.diagram.idleFrom + s.times.idle * 60000 →
      t.diagram.level = s.diagram.level)) ∧
  ∀ (s : State) (a b : ServiceState) (rest : List (ServiceState × ServiceState)), s.inbox.service = (a, b) :: rest →
    ∃ t, exec .diagramServiceChange s = .next t ∧ t.inbox.service = rest ∧
      (b = .switchedOut → s.times.darkout = 1 → t.diagram.level = .dark) ∧
      (a = .switchedOut → b = .inService → s.diagram.level = .dark → t.diagram.level = .active) ∧
      (b ≠ .switchedOut ∨ s.times.darkout ≠ 1 →
        ¬(a = .switchedOut ∧ b = .inService ∧ s.diagram.level = .dark) → t.diagram.level = s.diagram.level)

/-- The scan of the lamp matrix: in a frame of 2048 ticks a lit cell's column line is on for the first t_on ticks after the
8 ticks of blanking in the slot of its physical row, and at no other tick of its row; t_on runs from 0 for a dark
board through at least 1 to the whole lit part of 120. The part drives the row line of the slot and the column lines of the
frame in progress; in POWER_UP every line is off. That the row line is on in the blanking ticks too, and that every line is
off with no frame in progress, is the model's choice (DESIGN CHOICE, log 14). -/
def Obligations.LampLinesFollowTheFrame : Prop :=
  (∀ (f : LampFrame) (c : Cell) (tick : Nat), tick < 2048 →
    let row := if f.rowrev then 15 - c.val / 32 else c.val / 32
    let col := if f.colrev then 31 - c.val % 32 else c.val % 32
    tick / 128 = row →
      (f.columnOn tick col = true ↔
        8 ≤ tick % 128 ∧ tick % 128 < 8 + f.ton ∧
          (mapGet f.cells c = some .on ∨ (mapGet f.cells c = some .flash ∧ f.half = true)))) ∧
  (tOn 0 = 0 ∧ tOn 255 = 120 ∧ ∀ b, 1 ≤ b → b ≤ 255 → 1 ≤ tOn b ∧ tOn b ≤ 120) ∧
  ∀ (s : State) (tick : Nat),
    let dark := (∀ row : Fin 16, (s.lampLines tick).rows[row] = false) ∧
      ∀ col : Fin 32, (s.lampLines tick).columns[col] = false
    (s.service.state = .powerUp ∨ s.diagram.current = none → dark) ∧
    ∀ f, s.service.state ≠ .powerUp → s.diagram.current = some f →
      (∀ row : Fin 16, ((s.lampLines tick).rows[row] = true ↔ tick / 128 = row.val)) ∧
      ∀ col : Fin 32, (s.lampLines tick).columns[col] = f.columnOn tick col.val

/-! ### The supervisory line -/

/-- A text of at most 115 printable characters, received with its check and line end, waits as a request of that text; the
line being built is empty again. -/
def Obligations.WellFormedLineIsQueued : Prop :=
  ∀ (text : Text) (s : State), text.all isTextChar = true → text.length ≤ 115 → s.resetHeld = false →
    s.link.building = [] → s.link.count = 0 → s.link.long = false → s.link.framing = false →
    s.link.queue.length < 2 →
    ∃ t, receives (lineOf text) s t ∧ t.link.queue = s.link.queue ++ [⟨.request text, 0⟩] ∧ t.link.building = [] ∧
      t.link.count = 0

/-- One character of a line: a line feed is ignored; a character past the 120th makes the line long; a carriage return
finishes the line as long, as one with a bad check, or not at all where nothing stands before it; with two lines waiting
the line is discarded and counted on the newest. And the lines that are no request of a row: a faulted line is answered
?LONG or ?CHECK, a text outside the rules ?FORM, an unknown word ?WORD, an object word its request does not give ?FORM, with
its field for SHOW, CLEAR and TUNE, in the states that accept the request; an owed ?BUSY goes out before the next line; a
line of a MORE run is held. That a text outside the rules is ?FORM before ?WORD and ?STATE (log 32), and also where it ends
with MORE (log 28), is the model's reading (DEDUCED), and so is which step answers (log 27); that a line discarded for BUSY drops the held words at its end is
its choice (DESIGN CHOICE, log 46). -/
def Obligations.LinesThatAreNoRequest : Prop :=
  (∀ s : State, s.resetHeld = false →
     (∃ t, exec (.characterReceived (.byte 10#8)) s = .next t ∧ t.link = s.link) ∧
     (∀ b : BitVec 8, b ≠ 10#8 → b ≠ 13#8 → ∃ t, exec (.characterReceived (.byte b)) s = .next t ∧
       t.link.queue = s.link.queue ∧
       (s.link.count < 120 → t.link.count = s.link.count + 1 ∧
         t.link.building = s.link.building ++ [Char.ofNat b.toNat] ∧ t.link.long = s.link.long) ∧
       (120 ≤ s.link.count → t.link.long = true ∧ t.link.building = [])) ∧
     (s.link.count < 120 → ∃ t, exec (.characterReceived .framingError) s = .next t ∧ t.link.framing = true ∧
       t.link.count = s.link.count + 1) ∧
     ∃ t, exec (.characterReceived (.byte 13#8)) s = .next t ∧
       (s.link.count = 0 → t.link = s.link) ∧
       (s.link.count ≠ 0 → t.link.building = [] ∧ t.link.count = 0 ∧ t.link.long = false ∧ t.link.framing = false ∧
         (s.link.queue.length < 2 →
           (s.link.long = true → t.link.queue = s.link.queue ++ [⟨.long, 0⟩]) ∧
           (s.link.long = false → s.link.framing = true ∨ lineText? s.link.building = none →
             t.link.queue = s.link.queue ++ [⟨.badCheck, 0⟩])) ∧
         (∀ a b, s.link.queue = [a, b] → t.link.heldWords = [] ∧
           t.link.queue = [a, { b with tally := min (b.tally + 1) 255 }]))) ∧
  ∀ s : State,
    let free := s.link.slot = none ∧ s.link.owed = 0 ∧ s.link.restart = .none
    (∀ w rest, s.link.queue = w :: rest → free →
      (w.line = .long → ∃ t, exec .faultedLine s = .next t ∧ repliesWith [refusalWord W.LONG] s t) ∧
      (w.line = .badCheck → ∃ t, exec .faultedLine s = .next t ∧ repliesWith [refusalWord W.CHECK] s t) ∧
      (∀ text, w.line = .request text → textOk text = false →
        ∃ t, exec .faultedLine s = .next t ∧ repliesWith [refusalWord W.FORM] s t)) ∧
    (∀ w ws, s.asks .unknownKeyword (w :: ws) → lookup objectRows w = none →
      ∃ t, exec .unknownKeyword s = .next t ∧ repliesWith [refusalWord W.WORD] s t) ∧
    (∀ (o : Text) (rest : List Text), s.asks .unknownKeyword (o :: rest) →
      (o = W.SHOW ∨ o = W.CLEAR ∨ o = W.TUNE → s.service.state ≠ .powerUp →
        answersOnly .unknownKeyword [refusalWord W.FORM, digits 2] s) ∧
      (o = W.RAW → s.service.state ≠ .powerUp → answersOnly .unknownKeyword [refusalWord W.FORM] s) ∧
      (o = W.ERASE → s.service.state = .configure → answersOnly .unknownKeyword [refusalWord W.FORM] s) ∧
      (o = W.ERASE → s.service.state ≠ .configure → answersOnly .unknownKeyword [refusalWord W.STATE] s) ∧
      (o ∈ [W.SHOW, W.CLEAR, W.TUNE, W.RAW] → s.service.state = .powerUp →
        answersOnly .unknownKeyword [refusalWord W.STATE] s)) ∧
    (s.link.slot = none → 0 < s.link.owed → s.link.restart = .none → ∃ t, exec .busyReply s = .next t ∧
      t.link.slot = some (refusalWord W.BUSY) ∧ t.link.owed = s.link.owed - 1 ∧ t.link.queue = s.link.queue) ∧
    (∀ text rest w, s.service.state ≠ .powerUp → free → s.link.queue = w :: rest → w.line = .request text →
      textOk text = true → 2 ≤ (splitOn ' ' text).length → (splitOn ' ' text).getLast? = some W.MORE →
      ∃ t, exec .moreLine s = .next t ∧ t.link.slot = some ('=' :: W.MORE) ∧
        t.link.heldWords = s.link.heldWords ++ (splitOn ' ' text).dropLast ∧ t.link.queue = rest ∧
        t.link.owed = w.tally)

/-- The transmitter: while it is free it sends the reply in the slot, else the register entry at the mark, else the front
item of the pending set; a line being sent goes on to its end. -/
def Obligations.TransmitterChoosesInOrder : Prop :=
  ∀ s : State,
    let free := ∀ k, s.link.sending = some k → k.line.length * 1000 ≤ (s.now - k.since) * 5760
    ∃ t, exec .lineSent s = .next t ∧
      (free → s.link.restart ≠ .replySending →
        (∀ text, s.link.slot = some text → t.link.slot = none ∧ t.link.sending = some ⟨lineOf text, s.now⟩ ∧
          t.link.mark = s.link.mark ∧ t.link.reports = s.link.reports ∧
          (s.link.restart = .replyWaiting → t.link.restart = .replySending)) ∧
        (s.link.slot = none →
          (∀ m e, s.link.classes.reg = true → s.link.mark = some m → s.register.entry? m = some e →
            t.link.mark = some (m + 1) ∧ t.link.reports = s.link.reports ∧
            t.link.sending = some ⟨lineOf (reportText (entryWords e)), s.now⟩) ∧
          (s.link.classes.reg = false ∨ (∀ m, s.link.mark = some m → s.register.entry? m = none) →
            t.link.mark = s.link.mark ∧
            (∀ i rest, s.link.reports = i :: rest → t.link.reports = rest ∧
              t.link.sending = some ⟨lineOf (reportText (s.itemWords i)), s.now⟩) ∧
            (s.link.reports = [] → t.link.sending = none)))) ∧
      (¬free ∨ s.link.restart = .replySending → t.link = s.link)

/-! ### Requests -/

/-- A request in a service state that does not accept it is answered ?STATE, and changes nothing but the line it was. -/
def Obligations.RequestsOutsideTheirStates : Prop :=
  ∀ (row : Instr) (ws : List Text) (s : State), Instr.family row = .requests → s.asks row ws →
    s.service.state ∉ acceptedIn row →
    ∃ t, exec row s = .next t ∧ repliesWith [refusalWord W.STATE] s t ∧ keepsAllBut lineParts s t

/-- ID, MODE, MORE and NOTIFY, its class words in any order, and the refusals of NOTIFY: an unknown class word, and a class
named twice. That the reply names the classes in the order of R154 is the model's choice (log 26). -/
def Obligations.IdentModeMoreNotify : Prop :=
  ∀ s : State,
    (s.asks .ident [W.ID] → ∃ t, exec .ident s = .next t ∧
      repliesWith ['=' :: W.ID, W.WEFTAN, digits 2208, W.REV, digits 3, W.LEVERS, digits 48, W.LOCKS, digits 320, W.TC,
        digits 20, W.SEC, digits 3, W.CODES, digits 24, W.REG, digits 256, W.LAMPS, digits 512, W.BOX,
        digits s.strap.val] s t) ∧
    (s.asks .mode [W.MODE] → ∃ t, exec .mode s = .next t ∧
      (s.service.state = .powerUp → repliesWith ['=' :: W.MODE, W.POWER_UP] s t) ∧
      (s.service.state = .configure → repliesWith ['=' :: W.MODE, W.CONFIGURE] s t) ∧
      (s.service.state = .inService → repliesWith ['=' :: W.MODE, W.IN_SERVICE] s t) ∧
      (s.service.state = .switchedOut → repliesWith ['=' :: W.MODE, W.SWITCHED_OUT] s t)) ∧
    (s.asks .more [W.MORE] → s.service.state ≠ .powerUp → ∃ t, exec .more s = .next t ∧
      t.link.slot = some (cutWords (('=' :: W.MORE) :: s.link.keptWords) 115).1 ∧
      t.link.keptWords = (cutWords (('=' :: W.MORE) :: s.link.keptWords) 115).2 ∧
      t.link.heldWords = s.link.heldWords ∧ t.link.queue = s.link.queue.drop 1) ∧
    (∀ (k : Classes) (given : List Text), given.Perm k.words → s.asks .notify (W.NOTIFY :: given) →
      s.service.state ≠ .powerUp →
      ∃ t, exec .notify s = .next t ∧ repliesWith (('=' :: W.NOTIFY) :: k.words) s t ∧ t.link.classes = k ∧
        (∀ i, i ∈ t.link.reports ↔ i ∈ s.link.reports ∧ k.has i = true) ∧
        (k.reg = false → t.link.mark = none) ∧
        (k.reg = true → s.link.classes.reg = true → t.link.mark = s.link.mark) ∧
        (k.reg = true → s.link.classes.reg = false → t.link.mark = some s.register.next)) ∧
    ∀ (k : Classes) (given : List Text) (w : Text) (rest : List Text), s.service.state ≠ .powerUp →
      given.Perm k.words → s.asks .notify (W.NOTIFY :: given ++ w :: rest) →
      (w ∉ [W.LEV, W.TC, W.SEC, W.BOX, W.REG] →
        answersOnly .notify [refusalWord W.FORM, digits (given.length + 2)] s) ∧
      (w ∈ given → answersOnly .notify [refusalWord W.CONFLICT, digits (given.length + 2)] s)

/-- The canonical text of a lever record, a locking entry, a section record or a switch-out list, sent in CONFIGURE, loads
exactly that item and is echoed; an entry's index follows its keyword, and its conditions may be given in any order. What is
not given takes its default, a time release is
clamped, and each refusal of the four requests. The positions of words missing, of too many terms and of a word given twice,
and the order of some checks, also of the faults of one word past the most of a list, are the model's (DESIGN CHOICE, logs 23,
24); so are the missing datum of a malformed time release (log 36), what a decimal number is (log 43), and the ascending order in which a switch-out list is stored (DEDUCED,
log 22). -/
def Obligations.CanonicalTextsLoadLocking : Prop :=
  ∀ s : State, s.service.state = .configure →
    let range := fun (k : Nat) => [refusalWord W.RANGE, digits k]
    let form := fun (k : Nat) => [refusalWord W.FORM, digits k]
    let conflict := fun (k : Nat) => [refusalWord W.CONFLICT, digits k]
    (∀ (n : Lever) (r : LevRecord), r.valid → s.asks .lev (levWords n r) → ∃ t, exec .lev s = .next t ∧
      repliesWith (success (levWords n r)) s t ∧
      t.lever n = { s.lever n with record := some r, backlock := .idle } ∧ ∀ m, m ≠ n → t.lever m = s.lever m) ∧
    (∀ (e : LockEntry) (conds : List LeverTerm), e.valid → conds.Perm e.conds → e ∉ s.locking →
      s.locking.length < 320 → s.asks .lock (W.LOCK :: (termWords e.x ++ termWords e.y ++
        if conds = [] then [] else W.IF :: conds.flatMap termWords)) →
      ∃ t, exec .lock s = .next t ∧ t.locking = s.locking ++ [e] ∧
        repliesWith (('=' :: W.LOCK) :: digits (s.locking.length + 1) :: (lockWords e).tail) s t) ∧
    (∀ (x : Sec) (r : SecRecord), r.valid → s.asks .sec (secWords x r) → ∃ t, exec .sec s = .next t ∧
      repliesWith (success (secWords x r)) s t ∧ t.section_ x = { s.section_ x with record := some r } ∧
      ∀ y, y ≠ x → t.section_ y = s.section_ y) ∧
    (∀ ts : List LeverTerm, boxoutValid ts → s.asks .boxout (boxoutWords ts) → ∃ t, exec .boxout s = .next t ∧
      repliesWith (success (boxoutWords ts)) s t ∧ t.service.boxout = some ts) ∧
    (∀ (n : Lever) (c : Circuit) (v : Nat),
      (s.asks .lev [W.LEV, ordinal n, W.SIGNAL, W.APPROACH, ordinal c, W.TIME, digits v] → ∃ t, exec .lev s = .next t ∧
        (t.lever n).record = some ⟨.signal, [], [], none, some ⟨[c], none, max 10 (min 600 v)⟩⟩ ∧
        repliesWith (['=' :: W.LEV, ordinal n, W.SIGNAL, W.APPROACH, ordinal c, W.TIME, digits (max 10 (min 600 v))] ++
          if v < 10 ∨ 600 < v then [W.CLAMPED] else []) s t) ∧
      (s.asks .lev [W.LEV, ordinal n, W.SIGNAL, W.APPROACH, ordinal c] → ∃ t, exec .lev s = .next t ∧
        (t.lever n).record = some ⟨.signal, [], [], none, some ⟨[c], none, 120⟩⟩ ∧
        repliesWith ['=' :: W.LEV, ordinal n, W.SIGNAL, W.APPROACH, ordinal c, W.TIME, digits 120] s t)) ∧
    (∀ x : Sec, s.asks .sec [W.SEC, sectionLetter x] → ∃ t, exec .sec s = .next t ∧
      (t.section_ x).record = some ⟨[], [], [], false⟩) ∧
    (∀ (m n : Lever) (p q : LeverEnd), n < m →
      s.asks .boxout [W.BOXOUT, ordinal m, endWord p, ordinal n, endWord q] → ∃ t, exec .boxout s = .next t ∧
        t.service.boxout = some [⟨n, q⟩, ⟨m, p⟩] ∧
        repliesWith ['=' :: W.BOXOUT, ordinal n, endWord q, ordinal m, endWord p] s t) ∧
    (∀ (n : Lever) (c d : Circuit) (i : Input) (kind : LeverKind) (k : Nat) (w : Text) (rest : List Text),
      let opening := [W.LEV, ordinal n, wordFor kindTable kind]
      let isField := w ∈ [W.TC, W.G, W.BLOCK, W.APPROACH, W.ASEC, W.TIME]
      let refused := fun (given answer : List Text) => s.asks .lev (opening ++ given) → answersOnly .lev answer s
      (s.asks .lev [W.LEV] → answersOnly .lev (range 2) s) ∧
      (k < 1 ∨ 48 < k → s.asks .lev (W.LEV :: digits k :: rest) → answersOnly .lev (range 2) s) ∧
      (s.asks .lev [W.LEV, ordinal n] → answersOnly .lev (form 3) s) ∧
      (lookup kindTable w = none → s.asks .lev (W.LEV :: ordinal n :: w :: rest) → answersOnly .lev (form 3) s) ∧
      (¬isField → refused [w] (form 4)) ∧
      (kind = .spare → refused [W.TC, ordinal c, W.BOTH] (form 4) ∧ refused [W.G, ordinal i, W.ACTIVE, W.BOTH] (form 4)) ∧
      (kind ≠ .signal → refused [W.BLOCK, W.A] (form 4) ∧ refused [W.APPROACH, ordinal c] (form 4) ∧
        refused [W.TIME, digits k, W.ASEC, W.A] (form 6)) ∧
      (kind = .signal → refused [W.ASEC, W.A] (form 4) ∧ refused [W.TIME, digits k] (form 4) ∧
        refused [W.TIME, digits k, W.ASEC, W.A] (form 6) ∧
        refused [W.APPROACH] (form 5) ∧ refused [W.APPROACH, ordinal c, W.TIME] [refusalWord W.FORM] ∧
        (decimal? w = none → ¬isField → refused [W.APPROACH, ordinal c, W.TIME, w] [refusalWord W.FORM]) ∧
        (w ∉ [W.A, W.B, W.C] → ¬isField → refused [W.BLOCK, w] (range 5) ∧
          refused [W.APPROACH, ordinal c, W.ASEC, w] (range 7)) ∧
        (k < 1 ∨ 20 < k → refused [W.APPROACH, digits k] (range 5)) ∧
        refused [W.APPROACH, ordinal c, ordinal c] (conflict 6) ∧
        refused [W.APPROACH, digits 1, digits 2, digits 3, digits 4] (range 8) ∧
        refused [W.TC, ordinal c, W.LEAVE_R] (form 6) ∧ refused [W.TC, ordinal c, W.BOTH] (form 6) ∧
        refused [W.G, ordinal i, W.ACTIVE, W.BOTH] (form 7)) ∧
      (kind ≠ .spare →
        (k < 1 ∨ 20 < k → refused [W.TC, digits k, W.LEAVE_N] (range 5)) ∧
        (k < 1 ∨ 16 < k → refused [W.G, digits k, W.ACTIVE, W.LEAVE_N] (range 5)) ∧
        (lookup appliesTable w = none → ¬isField → refused [W.TC, ordinal c, w] (form 6) ∧
          refused [W.G, ordinal i, W.ACTIVE, w] (form 7)) ∧
        (lookup activeTable w = none → ¬isField → refused [W.G, ordinal i, w, W.LEAVE_N] (form 6)) ∧
        refused [W.TC, ordinal c, W.LEAVE_N, W.TC, ordinal c, W.LEAVE_N] (conflict 8) ∧
        refused [W.G, ordinal i, W.ACTIVE, W.LEAVE_N, W.G, ordinal i, W.INACTIVE, W.LEAVE_N] (conflict 9) ∧
        (∀ ts : List Circuit, ts.Nodup → ts.length = 4 →
          refused ((ts.flatMap fun t => [W.TC, ordinal t, W.LEAVE_N]) ++ [W.TC, ordinal d, W.LEAVE_N]) (range 16)) ∧
        refused [W.G, digits 1, W.ACTIVE, W.LEAVE_N, W.G, digits 2, W.ACTIVE, W.LEAVE_N, W.G, digits 3, W.ACTIVE,
          W.LEAVE_N] (range 12) ∧
        (k < 1 ∨ 20 < k → refused [W.G, digits 17, W.ACTIVE, W.LEAVE_N, W.TC, digits k, W.LEAVE_N] (range 9)))) ∧
    (∀ (x y c : LeverTerm) (m : Lever) (p : LeverEnd) (k : Nat) (w : Text) (rest : List Text),
      let refused := fun (given answer : List Text) => s.asks .lock (W.LOCK :: given) → answersOnly .lock answer s
      (k < 1 ∨ 48 < k → refused (digits k :: rest) (range 2) ∧ refused (termWords x ++ digits k :: rest) (range 4) ∧
        refused (termWords x ++ termWords y ++ W.IF :: digits k :: rest) (range 7)) ∧
      (w ∉ [W.N, W.R] → refused (ordinal m :: w :: rest) (form 3) ∧
        refused (termWords x ++ ordinal m :: w :: rest) (form 5) ∧
        refused (termWords x ++ termWords y ++ W.IF :: ordinal m :: w :: rest) (form 8)) ∧
      refused [] (form 2) ∧ refused [ordinal m] (form 3) ∧ refused (termWords x) (form 4) ∧
      refused (termWords x ++ [ordinal m]) (form 5) ∧
      refused (termWords x ++ termWords y ++ W.IF :: termWords c ++ ordinal c.lever :: rest) (conflict 9) ∧
      (m ≠ c.lever → refused (termWords x ++ termWords y ++ W.IF :: termWords c ++ [ordinal m, endWord p] ++ w :: rest)
        (range 11)) ∧
      (∀ (e : LockEntry) (before after : List LockEntry), e.valid → s.locking = before ++ e :: after → e ∉ before →
        refused (lockWords e).tail (conflict (before.length + 1))) ∧
      ∀ e : LockEntry, e.valid → e ∉ s.locking → 320 ≤ s.locking.length →
        refused (lockWords e).tail [refusalWord W.FULL]) ∧
    (∀ (x : Sec) (n : Lever) (c : Circuit) (k : Nat) (w : Text) (rest : List Text),
      let refused := fun (given answer : List Text) =>
        s.asks .sec (W.SEC :: sectionLetter x :: given) → answersOnly .sec answer s
      (s.asks .sec [W.SEC] → answersOnly .sec (range 2) s) ∧
      (w ∉ [W.A, W.B, W.C] → s.asks .sec (W.SEC :: w :: rest) → answersOnly .sec (range 2) s) ∧
      (w ∉ [W.ACCEPT, W.CLEARING, W.ARRIVAL, W.AUTOTOL] → refused (w :: rest) (form 3)) ∧
      (k < 1 ∨ 48 < k → refused [W.ACCEPT, digits k] (range 4)) ∧
      (k < 1 ∨ 20 < k → refused [W.CLEARING, digits k] (range 4) ∧ refused [W.ARRIVAL, digits k] (range 4)) ∧
      (1 < k → refused [W.AUTOTOL, digits k] (form 4)) ∧
      refused [W.ACCEPT, ordinal n, ordinal n] (conflict 5) ∧ refused [W.CLEARING, ordinal c, ordinal c] (conflict 5) ∧
      refused [W.ARRIVAL, ordinal c, ordinal c] (conflict 5) ∧
      (∀ ns : List Lever, ns.Nodup → ns.length = 6 → refused (W.ACCEPT :: ns.map ordinal ++ [ordinal n]) (range 10)) ∧
      ∀ cs : List Circuit, cs.Nodup → cs.length = 4 →
        refused (W.CLEARING :: cs.map ordinal ++ [ordinal c]) (range 8) ∧
        refused (W.ARRIVAL :: cs.map ordinal ++ [ordinal c]) (range 8)) ∧
    ∀ (n : Lever) (p q : LeverEnd) (k : Nat) (w : Text) (rest : List Text),
      let refused := fun (given answer : List Text) => s.asks .boxout (W.BOXOUT :: given) → answersOnly .boxout answer s
      (k < 1 ∨ 48 < k → refused (digits k :: rest) (range 2)) ∧
      (decimal? w = none → refused (w :: rest) (form 2)) ∧
      (w ∉ [W.N, W.R] → refused (ordinal n :: w :: rest) (form 3)) ∧
      refused [ordinal n] (form 3) ∧ refused ([ordinal n, endWord p, ordinal n, endWord q] ++ rest) (conflict 4) ∧
      ∀ ts : List LeverTerm, (ts.map (·.lever)).Nodup → ts.length = 8 →
        refused (ts.flatMap termWords ++ ordinal n :: rest) (range 18)

/-- The canonical text of a track circuit record, the TIMES record, a code table entry or a lamp binding, sent in CONFIGURE,
loads exactly that item and is echoed; a circuit's record and a binding then wait for their frame start. A value not given
takes its default, a tunable value out of range is clamped, and each refusal of the four requests. The positions of missing
words, the order of some checks, a refusal without a datum where no rule gives one and what a decimal number is are the
model's (DESIGN CHOICE, logs 23, 24, 36, 43). -/
def Obligations.CanonicalTextsLoadUnits : Prop :=
  ∀ s : State, s.service.state = .configure →
    let range := fun (k : Nat) => [refusalWord W.RANGE, digits k]
    let form := fun (k : Nat) => [refusalWord W.FORM, digits k]
    let conflict := fun (k : Nat) => [refusalWord W.CONFLICT, digits k]
    let plain : TcRecord := ⟨1, 32, 16, 500, 96, 160, 30, 60, 40, 1, 10, 0, 0, 0⟩
    let clamp := fun (drop : Nat) (f : TcField) (v : Nat) =>
      match f with
      | .coarse => if v < 2 then 1 else if v < 4 then 2 else if v < 8 then 4 else 8
      | .fine => max 32 (min 63 v)
      | .window => max 8 (min 64 v)
      | .ref => max 20 (min 2500 v)
      | .drop => max 16 (min 224 v)
      | .pick => max (drop + 16) (min 240 v)
      | .floor => max 5 (min 500 v)
      | .low => max 10 (min 1000 v)
      | .joint => max 10 (min 500 v)
      | .dropf => max 1 (min 4 v)
      | .pickf => max 2 (min 100 v)
      | .phase | .inv | .group => v
    let bounds := fun (f : TimesName) =>
      match f with
      | .travel => (5, 60)
      | .frame => (20, 250)
      | .reverse => (4, 64)
      | .proof => (5, 200)
      | .track => (4, 8)
      | .beatmin => (10, 100)
      | .beatmax => (150, 1000)
      | .join => (200, 1000)
      | .endWait => (1000, 5000)
      | .stroke => (20, 200)
      | .indstable => (100, 1000)
      | .emrel => (30, 600)
      | .codewin => (30, 600)
      | .div => (1, 16)
      | .flashms => (250, 1000)
      | .idle => (0, 120)
      | .localmode | .darkout | .rowrev | .colrev => (0, 1)
    (∀ (c : Circuit) (r : TcRecord), r.valid → s.asks .tc (tcWords c r) → ∃ t, exec .tc s = .next t ∧
      repliesWith (success (tcWords c r)) s t ∧ t.circuit c = { s.circuit c with stored := some r } ∧
      (∀ d, d ≠ c → t.circuit d = s.circuit d) ∧
      t.track.ops = (s.track.ops.filter fun o => !o.tunes c) ++ [.load c r]) ∧
    (∀ v : Times, v.valid → s.asks .times (timesWords v) → ∃ t, exec .times s = .next t ∧
      repliesWith (success (timesWords v)) s t ∧ t.times = v ∧ t.timesLoaded = true) ∧
    (∀ e : CodeEntry, e.valid → (∀ d ∈ s.codes, d.pattern ≠ e.pattern) → s.codes.length < 24 →
      s.asks .code (codeWords e) → ∃ t, exec .code s = .next t ∧ t.codes = s.codes ++ [e] ∧
        repliesWith (('=' :: W.CODE) :: digits (s.codes.length + 1) :: (codeWords e).tail) s t) ∧
    (∀ (c : Cell) (b : Binding), b.valid → s.asks .lamp (bindingWords c b) → ∃ t, exec .lamp s = .next t ∧
      repliesWith (success (bindingWords c b)) s t ∧ mapGet t.diagram.stored c = some b ∧
      (∀ d, d ≠ c → mapGet t.diagram.stored d = mapGet s.diagram.stored d) ∧
      t.diagram.ops = s.diagram.ops ++ [.load c b]) ∧
    (∀ (c : Circuit) (f : TcField) (v w : Nat),
      (s.asks .tc [W.TC, ordinal c] → ∃ t, exec .tc s = .next t ∧ (t.circuit c).stored = some plain ∧
        repliesWith (success (tcWords c plain)) s t) ∧
      (f ∉ [TcField.drop, .phase, .inv, .group] → s.asks .tc [W.TC, ordinal c, wordFor tcFieldTable f, digits v] →
        ∃ t, exec .tc s = .next t ∧ (t.circuit c).stored = some (plain.set (clamp 96 f v) f) ∧
          repliesWith (success (tcWords c (plain.set (clamp 96 f v) f)) ++
            if clamp 96 f v = v then [] else [W.CLAMPED]) s t) ∧
      (s.asks .tc [W.TC, ordinal c, W.DROP, digits v] →
        let r := { plain with drop := clamp 0 .drop v, pick := clamp (clamp 0 .drop v) .pick 160 }
        ∃ t, exec .tc s = .next t ∧ (t.circuit c).stored = some r ∧
          repliesWith (success (tcWords c r) ++ if r.drop = v ∧ r.pick = 160 then [] else [W.CLAMPED]) s t) ∧
      (s.asks .tc [W.TC, ordinal c, W.DROP, digits v, W.PICK, digits w] →
        let r := { plain with drop := clamp 0 .drop v, pick := clamp (clamp 0 .drop v) .pick w }
        ∃ t, exec .tc s = .next t ∧ (t.circuit c).stored = some r ∧
          repliesWith (success (tcWords c r) ++ if r.drop = v ∧ r.pick = w then [] else [W.CLAMPED]) s t)) ∧
    (∀ (f : TimesName) (v w : Nat),
      let was := State.reset.times
      (s.asks .times [W.TIMES] → ∃ t, exec .times s = .next t ∧ t.times = was ∧ t.timesLoaded = true ∧
        repliesWith (success (timesWords was)) s t) ∧
      (f ∉ [TimesName.localmode, .darkout, .rowrev, .colrev] →
        s.asks .times [W.TIMES, wordFor timesTable f, digits v] →
        ∃ t, exec .times s = .next t ∧ t.timesLoaded = true ∧ (∀ g, g ≠ f → t.times.get g = was.get g) ∧
          t.times.get f = (if f = .proof ∧ v = 0 then 0 else max (bounds f).1 (min (bounds f).2 v)) ∧
          repliesWith (success (timesWords t.times) ++ if t.times.get f = v then [] else [W.CLAMPED]) s t) ∧
      (f ∈ [TimesName.darkout, .rowrev, .colrev] → s.asks .times [W.TIMES, wordFor timesTable f, digits v] →
        (v ≤ 1 → ∃ t, exec .times s = .next t ∧ t.times.get f = v ∧ ∀ g, g ≠ f → t.times.get g = was.get g) ∧
        (1 < v → answersOnly .times [refusalWord W.FORM] s)) ∧
      (s.asks .times [W.TIMES, W.LOCALMODE, W.FOLLOW] → ∃ t, exec .times s = .next t ∧
        t.times = { was with localmode := .follow } ∧ repliesWith (success (timesWords t.times)) s t) ∧
      (s.asks .times [W.TIMES, W.JOIN, digits v, W.END, digits w] →
        let join := max 200 (min 1000 v)
        let endWait := max (join + 200) (max 1000 (min 5000 w))
        ∃ t, exec .times s = .next t ∧ t.times = { was with join := join, endWait := endWait } ∧
          repliesWith (success (timesWords t.times) ++
            if join = v ∧ endWait = w then [] else [W.CLAMPED]) s t)) ∧
    (∀ (c : Circuit) (f : TcField) (k m : Nat) (w : Text) (rest : List Text),
      let refused := fun (given answer : List Text) => s.asks .tc (W.TC :: ordinal c :: given) → answersOnly .tc answer s
      (s.asks .tc [W.TC] → answersOnly .tc (range 2) s) ∧
      (k < 1 ∨ 20 < k → s.asks .tc (W.TC :: digits k :: rest) → answersOnly .tc (range 2) s) ∧
      (6 < k → refused (W.PHASE :: digits k :: rest) (range 4)) ∧
      (7 < k → refused (W.GROUP :: digits k :: rest) (range 4)) ∧ (1 < k → refused (W.INV :: digits k :: rest) (form 4)) ∧
      (lookup tcFieldTable w = none → refused (w :: rest) (form 3)) ∧
      (decimal? w = none → refused (wordFor tcFieldTable f :: w :: rest) (form 4)) ∧
      refused [wordFor tcFieldTable f] (form 4) ∧
      (f ∉ [TcField.phase, .inv, .group] →
        refused ([wordFor tcFieldTable f, digits k, wordFor tcFieldTable f, digits m] ++ rest) (conflict 5))) ∧
    (∀ (f : TimesName) (k m : Nat) (w : Text) (rest : List Text),
      let refused := fun (given answer : List Text) => s.asks .times (W.TIMES :: given) → answersOnly .times answer s
      (lookup timesTable w = none → refused (w :: rest) (form 2)) ∧
      refused [wordFor timesTable f] (form 3) ∧
      (w ≠ W.FOLLOW → w ≠ W.STROKE → refused (W.LOCALMODE :: w :: rest) [refusalWord W.FORM]) ∧
      (f ≠ .localmode → decimal? w = none → refused (wordFor timesTable f :: w :: rest) [refusalWord W.FORM]) ∧
      (f ∉ [TimesName.localmode, .darkout, .rowrev, .colrev] →
        refused ([wordFor timesTable f, digits k, wordFor timesTable f, digits m] ++ rest) (conflict 4))) ∧
    (∀ (e : CodeEntry) (p : List Nat) (k : Nat) (w : Text) (rest : List Text),
      let refused := fun (given answer : List Text) => s.asks .code (W.CODE :: given) → answersOnly .code answer s
      let pattern := patternText e.pattern
      refused [] (form 2) ∧
      (p ≠ [] → 5 < p.length ∨ (∃ g ∈ p, g < 1 ∨ 9 < g) → refused (patternText p :: rest) (range 2)) ∧
      ((∃ g ∈ splitOn '-' w, decimal? g = none) → refused (w :: rest) (form 2)) ∧
      (e.valid →
        refused [pattern] (form 3) ∧ refused [pattern, W.OFFER] (form 4) ∧ refused [pattern, W.INFO] (form 4) ∧
        (w ∉ [W.ATTENTION, W.OFFER, W.ENTERING, W.OUT_OF_SECTION, W.CANCEL, W.OBSTRUCTION, W.BOX_OUT, W.BOX_IN, W.TEST,
          W.INFO] → refused (pattern :: w :: rest) (form 3)) ∧
        (k < 1 ∨ 15 < k → refused (pattern :: W.OFFER :: digits k :: rest) (range 4)) ∧
        (k < 1 ∨ 99 < k → refused (pattern :: W.INFO :: digits k :: rest) (range 4)) ∧
        ((∀ n, e.meaning ≠ .offer n ∧ e.meaning ≠ .info n) → refused (codeTail e ++ w :: rest) (form 4)) ∧
        (∀ (before after : List CodeEntry) (d : CodeEntry), s.codes = before ++ d :: after → d.pattern = e.pattern →
          (∀ b ∈ before, b.pattern ≠ e.pattern) → refused (codeTail e) (conflict (before.length + 1))) ∧
        ((∀ d ∈ s.codes, d.pattern ≠ e.pattern) → 24 ≤ s.codes.length → refused (codeTail e) [refusalWord W.FULL]))) ∧
    ∀ (c : Cell) (t : Circuit) (n : Lever) (x : Sec) (st : SecState) (k m : Nat) (w : Text) (rest : List Text),
      let opening := [W.LAMP, digits (c.val / 32), digits (c.val % 32)]
      let refused := fun (given answer : List Text) => s.asks .lamp (opening ++ given) → answersOnly .lamp answer s
      let loads := fun (given : List Text) (b : Binding) => s.asks .lamp (opening ++ given) →
        ∃ u, exec .lamp s = .next u ∧ mapGet u.diagram.stored c = some b
      loads [W.ON] ⟨.on, false, false⟩ ∧ loads [W.BELL, sectionLetter x] ⟨.bell x, false, false⟩ ∧
      loads [W.TRACK, ordinal t, W.CLR, W.FLASH] ⟨.track t true, true, false⟩ ∧
      (15 < k → s.asks .lamp (W.LAMP :: digits k :: digits m :: rest) → answersOnly .lamp (range 2) s) ∧
      (k ≤ 15 → 31 < m → s.asks .lamp (W.LAMP :: digits k :: digits m :: rest) → answersOnly .lamp (range 3) s) ∧
      refused [] (form 4) ∧
      (w ∉ [W.OFF, W.ON, W.HOST, W.TRACK, W.LEVER, W.SECTION, W.INDICATOR, W.BELL, W.BOX, W.DISAGREE, W.ALARM] →
        refused (w :: rest) (form 4)) ∧
      (k < 1 ∨ 20 < k → refused (W.TRACK :: digits k :: rest) (range 5)) ∧
      (k < 1 ∨ 48 < k → refused (W.LEVER :: digits k :: rest) (range 5)) ∧
      (w ∉ [W.A, W.B, W.C] → refused (W.SECTION :: w :: rest) (range 5) ∧ refused (W.INDICATOR :: w :: rest) (range 5) ∧
        refused (W.BELL :: w :: rest) (range 5)) ∧
      refused [W.TRACK] (form 5) ∧ refused [W.LEVER] (form 5) ∧ refused [W.SECTION] (form 5) ∧
      refused [W.INDICATOR] (form 5) ∧ refused [W.BELL] (form 5) ∧ refused [W.DISAGREE] (form 5) ∧ refused [W.BOX] (form 5) ∧
      (w ∉ [W.STEADY, W.FLASH] → decimal? w = none → refused [W.ON, w] (form 5)) ∧
      (1 < k → refused [W.ON, digits k] (form 5) ∧ refused [W.ON, W.STEADY, digits k] (form 6)) ∧
      refused (W.HOST :: w :: rest) (form 5) ∧ refused (W.ALARM :: w :: rest) (form 5) ∧
      refused [W.TRACK, ordinal t] (form 6) ∧ refused [W.LEVER, ordinal n] (form 6) ∧
      refused [W.SECTION, sectionLetter x] (form 6) ∧ refused [W.INDICATOR, sectionLetter x] (form 6) ∧
      (w ∉ [W.OCC, W.CLR] → refused (W.TRACK :: ordinal t :: w :: rest) (form 6)) ∧
      (w ∉ [W.N, W.R, W.FREE, W.REFUSED] → refused (W.LEVER :: ordinal n :: w :: rest) (form 6)) ∧
      (w ∉ [W.LC, W.TOL] → refused (W.INDICATOR :: sectionLetter x :: w :: rest) (form 6)) ∧
      (lookup secStateTable w = none → refused (W.SECTION :: sectionLetter x :: w :: rest) (form 6)) ∧
      refused (W.SECTION :: sectionLetter x :: secStateWord st :: secStateWord st :: rest) (conflict 7)

/-- The seven ERASE requests, sent in CONFIGURE. -/
def Obligations.EraseClearsItsTable : Prop :=
  ∀ s : State, s.service.state = .configure →
    (s.asks .eraseLev [W.ERASE, W.LEV] → ∃ t, exec .eraseLev s = .next t ∧
      repliesWith ['=' :: W.ERASE, W.LEV] s t ∧
      ∀ n, t.lever n = { s.lever n with record := none, backlock := .idle }) ∧
    (s.asks .eraseLock [W.ERASE, W.LOCK] → ∃ t, exec .eraseLock s = .next t ∧
      repliesWith ['=' :: W.ERASE, W.LOCK] s t ∧ t.locking = []) ∧
    (s.asks .eraseTc [W.ERASE, W.TC] → ∃ t, exec .eraseTc s = .next t ∧ repliesWith ['=' :: W.ERASE, W.TC] s t ∧
      (∀ c, t.circuit c = { s.circuit c with stored := none }) ∧
      t.track.ops = (s.track.ops.filter fun o => !o.isTune) ++ [.erase]) ∧
    (s.asks .eraseSec [W.ERASE, W.SEC] → ∃ t, exec .eraseSec s = .next t ∧
      repliesWith ['=' :: W.ERASE, W.SEC] s t ∧ ∀ x, t.section_ x = { s.section_ x with record := none }) ∧
    (s.asks .eraseCode [W.ERASE, W.CODE] → ∃ t, exec .eraseCode s = .next t ∧
      repliesWith ['=' :: W.ERASE, W.CODE] s t ∧ t.codes = []) ∧
    (s.asks .eraseLamp [W.ERASE, W.LAMP] → ∃ t, exec .eraseLamp s = .next t ∧
      repliesWith ['=' :: W.ERASE, W.LAMP] s t ∧ t.diagram.stored = [] ∧ t.diagram.ops = s.diagram.ops ++ [.erase]) ∧
    (s.asks .eraseBoxout [W.ERASE, W.BOXOUT] → ∃ t, exec .eraseBoxout s = .next t ∧
      repliesWith ['=' :: W.ERASE, W.BOXOUT] s t ∧ t.service.boxout = none)

/-- Checks 1 to 7 pass exactly when the configuration is as they ask, and the first that fails is answered with its reason
and its index, the first entry, lever, section or meaning in the check's order; CHECK and START answer by them and the digest; an
accepted START brings levers and sections into service as they stand, with a change of LEV n for each lever found away. A
START without a digest of eight hexadecimal digits is refused; that one with no digest word is named by the position it would
have is the model's choice (log 24). -/
def Obligations.CheckAndStart : Prop :=
  (∀ s : State,
    let worked := fun n => ∃ r, (s.lever n).record = some r ∧ r.kind ≠ .spare
    let loaded := fun x => (s.section_ x).record ≠ none
    let given := fun (m : Meaning) => ∃ e ∈ s.codes, e.meaning = m
    s.configError = none ↔
      (∃ n, (s.lever n).record ≠ none) ∧
      (∀ e ∈ s.locking, worked e.x.lever ∧ worked e.y.lever ∧ (∀ c ∈ e.conds, worked c.lever) ∧
        e.x.lever ≠ e.y.lever ∧ (∀ c ∈ e.conds, c.lever ≠ e.x.lever ∧ c.lever ≠ e.y.lever) ∧
        e.violated s.contactEnd = false) ∧
      (∀ ts, s.service.boxout = some ts → (∀ e ∈ ts, worked e.lever) ∧ loaded .a ∧ loaded .b) ∧
      (∀ n r, (s.lever n).record = some r →
        (∀ e ∈ r.tracks, (s.circuit e.circuit).stored ≠ none) ∧ (∀ x, r.block = some x → loaded x) ∧
        ∀ a, r.approach = some a →
          (∀ c ∈ a.circuits, (s.circuit c).stored ≠ none) ∧ ∀ x, a.sec = some x → loaded x) ∧
      ((∃ x, loaded x) → (∃ cls, given (.offer cls)) ∧ given .entering ∧ given .cancel) ∧
      (loaded .a → loaded .b → given .boxOut ∧ given .boxIn)) ∧
  (∀ s : State,
    let worked := fun n => ∃ r, (s.lever n).record = some r ∧ r.kind ≠ .spare
    let loaded := fun x => (s.section_ x).record ≠ none
    let untracked := fun c => (s.circuit c).stored = none
    let given := fun (m : Meaning) => ∃ e ∈ s.codes, e.meaning = m
    let offer := ∃ cls, given (.offer cls)
    let firstEntry := fun (bad : LockEntry → Prop) (k : Nat) => ∃ before e after,
      s.locking = before ++ e :: after ∧ k = before.length + 1 ∧ bad e ∧ ∀ d ∈ before, ¬bad d
    let firstLever := fun (bad : LevRecord → Prop) (n : Lever) =>
      (∃ r, (s.lever n).record = some r ∧ bad r) ∧ ∀ m < n, ∀ r, (s.lever m).record = some r → ¬bad r
    let undefined := fun (e : LockEntry) => ¬worked e.x.lever ∨ ¬worked e.y.lever ∨ ∃ c ∈ e.conds, ¬worked c.lever
    let noTrack := fun (r : LevRecord) => (∃ e ∈ r.tracks, untracked e.circuit) ∨
      ∃ a, r.approach = some a ∧ ∃ c ∈ a.circuits, untracked c
    let noSection := fun (r : LevRecord) => (∃ x, r.block = some x ∧ ¬loaded x) ∨
      ∃ a x, r.approach = some a ∧ a.sec = some x ∧ ¬loaded x
    let fails := fun (check : Nat) (why : List Text) =>
      match check with
      | 1 => (∀ n, (s.lever n).record = none) ∧ why = [W.NO_LEVERS]
      | 2 => (∃ k, firstEntry undefined k ∧ why = [W.UNDEFINED_LEVER, digits k]) ∨
        ((∀ e ∈ s.locking, ¬undefined e) ∧ (∃ ts, s.service.boxout = some ts ∧ ∃ e ∈ ts, ¬worked e.lever) ∧
          why = [W.UNDEFINED_LEVER, W.BOXOUT])
      | 3 => ∃ k, firstEntry (fun e => e.x.lever = e.y.lever ∨ ∃ c ∈ e.conds, c.lever = e.x.lever ∨ c.lever = e.y.lever) k ∧
        why = [W.SELF_LOCK, digits k]
      | 4 => ∃ n, firstLever noTrack n ∧ why = [W.UNDEFINED_TRACK, ordinal n]
      | 5 => (∃ n, firstLever noSection n ∧ why = [W.UNDEFINED_SECTION, ordinal n]) ∨
        ((∀ n r, (s.lever n).record = some r → ¬noSection r) ∧ s.service.boxout ≠ none ∧
          ((¬loaded .a ∧ why = [W.UNDEFINED_SECTION, W.A]) ∨ (loaded .a ∧ ¬loaded .b ∧ why = [W.UNDEFINED_SECTION, W.B])))
      | 6 => ∃ meaning, why = [W.MISSING_CODE, meaning] ∧
        (((∃ x, loaded x) ∧ ((¬offer ∧ meaning = W.OFFER) ∨ (offer ∧ ¬given .entering ∧ meaning = W.ENTERING) ∨
            (offer ∧ given .entering ∧ ¬given .cancel ∧ meaning = W.CANCEL))) ∨
          (offer ∧ given .entering ∧ given .cancel ∧ loaded .a ∧ loaded .b ∧
            ((¬given .boxOut ∧ meaning = W.BOX_OUT) ∨ (given .boxOut ∧ ¬given .boxIn ∧ meaning = W.BOX_IN))))
      | 7 => ∃ k, firstEntry (fun e => e.violated s.contactEnd = true) k ∧ why = [W.VIOLATION, digits k]
      | _ => False
    ∀ check why, fails check why → (∀ earlier < check, ∀ other, ¬fails earlier other) → s.configError = some why) ∧
  ∀ s : State, s.service.state = .configure →
    (s.asks .check [W.CHECK] → ∃ t, exec .check s = .next t ∧
      (∀ why, s.configError = some why → repliesWith (refusalWord W.START :: why) s t) ∧
      (s.configError = none → repliesWith ['=' :: W.CHECK, s.digestWord] s t)) ∧
    (∀ (w : Text) (rest : List Text), hex? 8 w = none → s.asks .start (W.START :: w :: rest) →
      answersOnly .start [refusalWord W.FORM, digits 2] s) ∧
    (s.asks .start [W.START] → answersOnly .start [refusalWord W.FORM, digits 2] s) ∧
    ∀ (w : Text) (v : Nat), s.asks .start [W.START, w] → hex? 8 w = some v → ∃ t, exec .start s = .next t ∧
      let digest := (crc32 (digestText s.storedItems)).toNat
      (∀ why, s.configError = some why →
        repliesWith (refusalWord W.START :: why) s t ∧ t.service.state = .configure) ∧
      (s.configError = none → v ≠ digest →
        repliesWith [refusalWord W.START, W.DIGEST, s.digestWord] s t ∧ t.service.state = .configure) ∧
      (s.configError = none → v = digest →
        repliesWith ['=' :: W.START, s.digestWord] s t ∧ t.service.state = .inService ∧
        (.service, .box .inService) ∈ t.inbox.entries ∧
        (∀ n, (s.lever n).record ≠ none →
          let made := fun c => (s.contacts.contact c).reading = some true
          let l := { s.lever n with lock := false, refused := false, stalled := false, limit := none, backlock := .idle }
          (made (.leverN n) → ¬made (.leverR n) → t.lever n = { l with pos := .nLocked, lastEnd := some .n }) ∧
          (¬made (.leverN n) → made (.leverR n) → t.lever n = { l with pos := .rLocked, lastEnd := some .r }) ∧
          (made (.leverN n) → made (.leverR n) → t.lever n = { l with pos := .fault, lastEnd := none }) ∧
          (¬made (.leverN n) → ¬made (.leverR n) →
            ((s.lever n).pos = .travel ∨ (s.lever n).approach = none → s.link.classes.lev = true →
              .lev n ∈ t.link.reports) ∧
            ((s.lever n).approach = none → t.lever n = { l with pos := .travel, lastEnd := none }) ∧
            ∀ a, (s.lever n).approach = some a → t.lever n = { l with
              pos := .backlocked, lastEnd := some .r, backlock := .timing (s.now + a.time * 1000) })) ∧
        ∀ x,
          let k := s.section_ x
          let clock := s.register.clock
          let enters := fun (st : SecState) => (t.section_ x).state = st ∧ (t.section_ x).drive = driveOf st
          (k.record = none → t.section_ x = k) ∧
          (k.record ≠ none → k.position = .tol → enters .enteredIn ∧ ∃ r, (t.section_ x).train = some r ∧
            r.inward = true ∧ r.cls = 0 ∧ r.stage = .entered ∧ r.offered = clock ∧ r.accepted = none ∧
            r.entered = some clock) ∧
          (k.record ≠ none → k.position = .lc → enters .blocked ∧ (t.section_ x).train = none) ∧
          (k.record ≠ none → k.position = .lb → k.reading = some .lc →
            enters .unofferedClear ∧ (t.section_ x).train = none ∧ (t.section_ x).releaseUnused = false) ∧
          (k.record ≠ none → k.position = .lb → k.reading = some .tol →
            enters .enteredOut ∧ ∃ r, (t.section_ x).train = some r ∧ r.inward = false ∧ r.cls = 0 ∧
              r.stage = .entered ∧ r.offered = clock ∧ r.entered = some clock ∧ r.progress = 0) ∧
          (k.record ≠ none → k.position = .lb → k.reading = some .lb ∨ k.reading = none →
            enters .blocked ∧ (t.section_ x).train = none))

/-- WITHDRAW of a box at rest, and its refusal otherwise; and RESTART, whose reply is the last line sent. -/
def Obligations.WithdrawAndRestart : Prop :=
  ∀ s : State,
    let rest := (∀ n, (s.lever n).record ≠ none → (s.lever n).pos = .nLocked ∨ (s.lever n).pos = .rLocked) ∧
      ∀ x, (s.section_ x).record ≠ none → (s.section_ x).state = .blocked
    (s.service.state = .inService → s.asks .withdraw [W.WITHDRAW] → ∃ t, exec .withdraw s = .next t ∧
      (rest → repliesWith ['=' :: W.WITHDRAW] s t ∧ t.service.state = .configure ∧
        (∀ x, (s.section_ x).record ≠ none → (t.section_ x).state = .closed ∧ (t.section_ x).drive = .lb) ∧
        (∀ p, (s.port p).out ≠ none → (t.port p).drive = false ∧ (t.port p).out = none) ∧
        (∀ p, (s.port p).out = none → t.port p = s.port p) ∧
        (.service, .box .withdrawn) ∈ t.inbox.entries ∧ ∀ n, t.lever n = s.lever n) ∧
      (¬rest → repliesWith [refusalWord W.STATE] s t ∧ keepsAllBut lineParts s t)) ∧
    (s.service.state = .configure → s.asks .restart [W.RESTART] → ∃ t, exec .restart s = .next t ∧
      repliesWith ['=' :: W.RESTART] s t ∧ t.link.restart = .replyWaiting)

/-- TUNE TC and TUNE GROUP with one field or several, CLEAR TC and CLEAR LEV: clamped values wait for the frame start and
mark the circuit STALE; a TUNE of DROP carries PICK with it; in a group each member is tuned by its own DROP and PICK; a
clear waits for the frame start; a forced flag is cleared; and their refusals. The layout of the replies, the values of the
lowest member and CLAMPED for any member among it, is the model's (DESIGN CHOICE, log 26), and so is a refusal's datum where
a word is missing (log 24) or where no rule gives one (log 36), that the first of several offending words is reported and
that a field named twice is refused for a group with no members too (log 23), and what a decimal number is (log 43). -/
def Obligations.TuneAndClear : Prop :=
  ∀ s : State, s.service.state ≠ .powerUp →
    let waiting := fun (c : Circuit) => s.track.ops.flatMap fun o =>
      match o with
      | .tune d vals => if d = c then vals else []
      | _ => []
    let tuned := fun (c : Circuit) => (s.circuit c).stored.map fun r => r.setAll (waiting c)
    let members := fun (g : Nat) => allCircuits.filter fun c => decide ((s.circuit c).stored.map (·.group) = some g)
    let given := fun (f : TcField) (vals : List (TcField × Nat)) => (vals.find? fun e => decide (e.1 = f)).map (·.2)
    let clamped := fun (r : TcRecord) (vals : List (TcField × Nat)) =>
      let drop := match given .drop vals with
        | some v => max 16 (min 224 v)
        | none => r.drop
      (vals.map fun e => (e.1, clampField drop e.1 e.2)) ++
        (if given .drop vals ≠ none ∧ given .pick vals = none ∧ r.pick < drop + 16 then [(TcField.pick, drop + 16)] else [])
    let out := fun (c : Circuit) (vals : List (TcField × Nat)) => ((tuned c).map fun r => clamped r vals).getD []
    let range := fun (k : Nat) => [refusalWord W.RANGE, digits k]
    let form := fun (k : Nat) => [refusalWord W.FORM, digits k]
    (∀ (c : Circuit) (f : TcField) (v : Nat) (r : TcRecord), s.tuned c = some r → f ∉ [TcField.phase, .inv, .group] →
      s.asks .tuneTc [W.TUNE, W.TC, ordinal c, wordFor tcFieldTable f, digits v] →
      let drop := if f = .drop then max 16 (min 224 v) else r.drop
      let out := (f, clampField drop f v) ::
        (if f = .drop ∧ r.pick < drop + 16 then [(TcField.pick, drop + 16)] else [])
      ∃ t, exec .tuneTc s = .next t ∧ t.circuit c = { s.circuit c with stale := true, retuned := true } ∧
        (∀ d, d ≠ c → t.circuit d = s.circuit d) ∧ t.track.ops = s.track.ops ++ [.tune c out] ∧
        repliesWith (['=' :: W.TUNE, W.TC, ordinal c] ++ valueWords out ++
          (if out = [(f, v)] then [] else [W.CLAMPED])) s t) ∧
    (∀ (c : Circuit) (vals : List (TcField × Nat)) (r : TcRecord), tuned c = some r → vals ≠ [] →
      (vals.map (·.1)).Nodup → (∀ e ∈ vals, e.1 ∉ [TcField.phase, .inv, .group]) →
      s.asks .tuneTc ([W.TUNE, W.TC, ordinal c] ++ valueWords vals) →
      ∃ t, exec .tuneTc s = .next t ∧ t.circuit c = { s.circuit c with stale := true, retuned := true } ∧
        (∀ d, d ≠ c → t.circuit d = s.circuit d) ∧ t.track.ops = s.track.ops ++ [.tune c (clamped r vals)] ∧
        repliesWith (['=' :: W.TUNE, W.TC, ordinal c] ++ valueWords (clamped r vals) ++
          (if clamped r vals = vals then [] else [W.CLAMPED])) s t) ∧
    (∀ (g v : Nat) (f : TcField), 1 ≤ g → g ≤ 7 → f ∈ [TcField.coarse, .fine, .floor] →
      s.asks .tuneGroup [W.TUNE, W.GROUP, digits g, wordFor tcFieldTable f, digits v] →
      ∃ t more, exec .tuneGroup s = .next t ∧ s.track.ops <+: t.track.ops ∧
        repliesWith (['=' :: W.TUNE, W.GROUP, digits g, W.MEMBERS, digits (s.members g).length] ++ more) s t ∧
        ∀ c,
          (∀ r, (s.circuit c).stored = some r → r.group = g →
            t.circuit c = { s.circuit c with stale := true, retuned := true } ∧ .tune c [(f, clampField 0 f v)] ∈ t.track.ops) ∧
          ((∀ r, (s.circuit c).stored = some r → r.group ≠ g) → t.circuit c = s.circuit c)) ∧
    (∀ (g : Nat) (vals : List (TcField × Nat)), 1 ≤ g → g ≤ 7 → vals ≠ [] → (vals.map (·.1)).Nodup →
      (∀ e ∈ vals, e.1 ∈ [TcField.coarse, .fine, .drop, .pick, .floor]) →
      s.asks .tuneGroup ([W.TUNE, W.GROUP, digits g] ++ valueWords vals) →
      ∃ t, exec .tuneGroup s = .next t ∧
        t.track.ops = s.track.ops ++ (members g).map (fun c => .tune c (out c vals)) ∧
        (∀ c, (c ∈ members g → t.circuit c = { s.circuit c with stale := true, retuned := true }) ∧
          (c ∉ members g → t.circuit c = s.circuit c)) ∧
        repliesWith (['=' :: W.TUNE, W.GROUP, digits g, W.MEMBERS, digits (members g).length] ++
          (match members g with
            | [] => []
            | c :: _ => valueWords (out c vals)) ++
          (if ∃ c ∈ members g, out c vals ≠ vals then [W.CLAMPED] else [])) s t) ∧
    (∀ (c : Circuit), (s.circuit c).stored ≠ none → s.asks .clearTc [W.CLEAR, W.TC, ordinal c] →
      ∃ t, exec .clearTc s = .next t ∧ repliesWith ['=' :: W.CLEAR, W.TC, ordinal c] s t ∧
        t.track.ops = s.track.ops ++ [.clear c] ∧ ∀ d, t.circuit d = s.circuit d) ∧
    (∀ n : Lever, s.asks .clearLev [W.CLEAR, W.LEV, ordinal n] → ∃ t, exec .clearLev s = .next t ∧
      repliesWith ['=' :: W.CLEAR, W.LEV, ordinal n] s t ∧ t.lever n = { s.lever n with forced := false } ∧
      ∀ m, m ≠ n → t.lever m = s.lever m) ∧
    (∀ (k : Nat) (rest : List Text),
      (k < 1 ∨ 20 < k → s.asks .tuneTc (W.TUNE :: W.TC :: digits k :: rest) → answersOnly .tuneTc (range 3) s) ∧
      (k < 1 ∨ 20 < k → s.asks .clearTc (W.CLEAR :: W.TC :: digits k :: rest) → answersOnly .clearTc (range 3) s) ∧
      (k < 1 ∨ 48 < k → s.asks .clearLev (W.CLEAR :: W.LEV :: digits k :: rest) → answersOnly .clearLev (range 3) s) ∧
      (k < 1 ∨ 7 < k → s.asks .tuneGroup (W.TUNE :: W.GROUP :: digits k :: rest) →
        answersOnly .tuneGroup (range 3) s)) ∧
    (s.asks .tuneTc [W.TUNE, W.TC] → answersOnly .tuneTc (range 3) s) ∧
    (s.asks .tuneGroup [W.TUNE, W.GROUP] → answersOnly .tuneGroup (range 3) s) ∧
    (s.asks .clearTc [W.CLEAR, W.TC] → answersOnly .clearTc (range 3) s) ∧
    (s.asks .clearLev [W.CLEAR, W.LEV] → answersOnly .clearLev (range 3) s) ∧
    (∀ (c : Circuit) (rest : List Text), (s.circuit c).stored = none →
      (s.asks .tuneTc (W.TUNE :: W.TC :: ordinal c :: rest) → answersOnly .tuneTc (range 3) s) ∧
      (s.asks .clearTc (W.CLEAR :: W.TC :: ordinal c :: rest) → answersOnly .clearTc [refusalWord W.RANGE] s)) ∧
    (∀ (c : Circuit) (w v : Text) (f : TcField) (k m : Nat), (s.circuit c).stored ≠ none →
      (lookup tcFieldTable w ∈ [none, some .phase, some .inv, some .group] →
        s.asks .tuneTc [W.TUNE, W.TC, ordinal c, w, v] → answersOnly .tuneTc (form 4) s) ∧
      (f ∉ [TcField.phase, .inv, .group] →
        (s.asks .tuneTc [W.TUNE, W.TC, ordinal c, wordFor tcFieldTable f, digits k, wordFor tcFieldTable f, digits m] →
          answersOnly .tuneTc [refusalWord W.CONFLICT, digits 6] s) ∧
        (decimal? v = none → s.asks .tuneTc [W.TUNE, W.TC, ordinal c, wordFor tcFieldTable f, v] →
          answersOnly .tuneTc [refusalWord W.FORM] s))) ∧
    (∀ (g : Nat) (w v : Text), 1 ≤ g → g ≤ 7 → (∀ f ∈ [TcField.coarse, .fine, .drop, .pick, .floor],
        lookup tcFieldTable w ≠ some f) →
      s.asks .tuneGroup [W.TUNE, W.GROUP, digits g, w, v] → answersOnly .tuneGroup [refusalWord W.FORM] s) ∧
    ∀ (g k m : Nat), 1 ≤ g → g ≤ 7 → ∀ f ∈ [TcField.coarse, .fine, .drop, .pick, .floor],
      s.asks .tuneGroup [W.TUNE, W.GROUP, digits g, wordFor tcFieldTable f, digits k, wordFor tcFieldTable f, digits m] →
      answersOnly .tuneGroup [refusalWord W.CONFLICT, digits 6] s

/-- CLOCK, BRIGHT, DIM and PAINT, and their refusals (the order of CLOCK's checks, the data of refusals that no rule names and
what a decimal number is: logs 24, 36, 43). -/
def Obligations.ClockBrightnessAndPaint : Prop :=
  ∀ s : State, s.service.state ≠ .powerUp →
    let range := fun (k : Nat) => [refusalWord W.RANGE, digits k]
    let form := fun (k : Nat) => [refusalWord W.FORM, digits k]
    (∀ h m sec d : Nat, h ≤ 23 → m ≤ 59 → sec ≤ 59 → d ≤ 65535 →
      s.asks .clock [W.CLOCK, twoDigits h ++ ':' :: twoDigits m ++ ':' :: twoDigits sec, digits d] →
      let new : ClockTime := ⟨d, h * 36000 + m * 600 + sec * 10, false⟩
      ∃ t, exec .clock s = .next t ∧ t.register.clock = new ∧ t.register.next = s.register.next + 1 ∧
        t.register.ring.getLast? = some ⟨s.register.next, new, .clock s.register.clock new⟩ ∧
        repliesWith ['=' :: W.CLOCK, timeWord new] s t) ∧
    (∀ (h m sec d : Nat) (rest : List Text), h ≤ 99 → m ≤ 99 → sec ≤ 99 →
      s.asks .clock (W.CLOCK :: (twoDigits h ++ ':' :: twoDigits m ++ ':' :: twoDigits sec) :: rest) →
      (23 < h ∨ 59 < m ∨ 59 < sec → answersOnly .clock (range 2) s) ∧
      (h ≤ 23 → m ≤ 59 → sec ≤ 59 →
        (rest = [] → answersOnly .clock (form 3) s) ∧
        (∀ w ws, rest = w :: ws → decimal? w = none → answersOnly .clock (form 3) s) ∧
        (∀ ws, rest = digits d :: ws → 65535 < d → answersOnly .clock (range 3) s))) ∧
    (s.asks .clock [W.CLOCK] → answersOnly .clock (form 2) s) ∧
    (∀ (w : Text) (rest : List Text), ':' ∉ w → s.asks .clock (W.CLOCK :: w :: rest) → answersOnly .clock (form 2) s) ∧
    (∀ v : Nat, s.asks .bright [W.BRIGHT, digits v] → ∃ t, exec .bright s = .next t ∧
      t.diagram.bright = min v 255 ∧ t.diagram.dim = s.diagram.dim ∧
      repliesWith (['=' :: W.BRIGHT, digits (min v 255)] ++ if v ≤ 255 then [] else [W.CLAMPED]) s t) ∧
    (∀ v : Nat, s.asks .dim [W.DIM, digits v] → ∃ t, exec .dim s = .next t ∧
      t.diagram.dim = min v 255 ∧ t.diagram.bright = s.diagram.bright ∧
      repliesWith (['=' :: W.DIM, digits (min v 255)] ++ if v ≤ 255 then [] else [W.CLAMPED]) s t) ∧
    (∀ w : Text, decimal? w = none →
      (s.asks .bright [W.BRIGHT, w] → answersOnly .bright [refusalWord W.FORM] s) ∧
      (s.asks .dim [W.DIM, w] → answersOnly .dim [refusalWord W.FORM] s)) ∧
    (∀ (c : Cell) (v : Lamp),
      s.asks .paint [W.PAINT, digits (c.val / 32), digits (c.val % 32), wordFor lampTable v] →
      ∃ t, exec .paint s = .next t ∧ t.diagram.bound = s.diagram.bound ∧
        ((∃ b, mapGet s.diagram.bound c = some b ∧ b.source = .host) → mapGet t.diagram.host c = some v ∧
          (∀ d, d ≠ c → mapGet t.diagram.host d = mapGet s.diagram.host d) ∧
          repliesWith ['=' :: W.PAINT, digits 1] s t) ∧
        ((∀ b, mapGet s.diagram.bound c = some b → b.source ≠ .host) → t.diagram.host = s.diagram.host ∧
          repliesWith ['=' :: W.PAINT, digits 0] s t)) ∧
    (∀ (c : Cell) (vs : List Lamp), vs ≠ [] → vs.length ≤ 32 →
      s.asks .paint ([W.PAINT, digits (c.val / 32), digits (c.val % 32)] ++ vs.map (wordFor lampTable)) →
      let host := fun (d : Cell) => decide ((mapGet s.diagram.bound d).map (·.source) = some .host)
      let laid := fun (d : Cell) => if c ≤ d ∧ host d then vs[d.val - c.val]? else none
      ∃ t, exec .paint s = .next t ∧ t.diagram.bound = s.diagram.bound ∧
        (∀ d v, laid d = some v → mapGet t.diagram.host d = some v) ∧
        (∀ d, laid d = none → mapGet t.diagram.host d = mapGet s.diagram.host d) ∧
        repliesWith ['=' :: W.PAINT, digits ((List.finRange 512).filter fun d => (laid d).isSome).length] s t) ∧
    ∀ (r c : Nat) (ws : List Text),
      (15 < r → s.asks .paint (W.PAINT :: digits r :: digits c :: ws) → answersOnly .paint (range 2) s) ∧
      (r ≤ 15 → 31 < c → s.asks .paint (W.PAINT :: digits r :: digits c :: ws) → answersOnly .paint (range 3) s) ∧
      (r ≤ 15 → c ≤ 31 →
        (s.asks .paint [W.PAINT, digits r, digits c] → answersOnly .paint (range 4) s) ∧
        (∀ vs : List Lamp, vs.length = 32 →
          s.asks .paint ([W.PAINT, digits r, digits c] ++ vs.map (wordFor lampTable) ++ W.ON :: ws) →
          answersOnly .paint (range 36) s) ∧
        (∀ (vs : List Lamp) (w : Text), vs.length < 32 → lookup lampTable w = none →
          s.asks .paint ([W.PAINT, digits r, digits c] ++ vs.map (wordFor lampTable) ++ w :: ws) →
          answersOnly .paint (form (vs.length + 4)) s))

/-- The SHOW requests with their parts, RAW TC and REG: each is answered with the data its rule names, in the form of the line
table, and changes nothing but the line it was; and their refusals. The model's choices: figures of a record not yet in
effect (logs 16, 34), the sense IDLE until one is taken (log 17), the letters of the forms and the order of the mask causes (logs 25,
26), SHOW LAMP before the first published frame (log 29), the rounding of a travel limit (log 33), what is sent where the
rules name no field (logs 24, 36), what a decimal number is (log 43), and the host value, free, of a cell whose HOST binding has gone since the frame shown (log
41). -/
def Obligations.ReadsAnswerAndChangeNothing : Prop :=
  (∀ c : ClockTime, timeWord c = digits c.day ++ '/' :: twoDigits (c.tenths / 36000) ++ ':' ::
    twoDigits (c.tenths / 600 % 60) ++ ':' :: twoDigits (c.tenths / 10 % 60) ++ '.' :: digits (c.tenths % 10) ++
    (if c.unset then ['U'] else [])) ∧
  ∀ s : State, s.service.state ≠ .powerUp →
    let range := fun (k : Nat) => [refusalWord W.RANGE, digits k]
    let form := fun (k : Nat) => [refusalWord W.FORM, digits k]
    let has := fun (b : Bool) (w : Text) => if b then [w] else []
    let left := fun (d : Nat) => digits ((d - s.now + 999) / 1000)
    let ind := fun (i : Ind) =>
      match i with
      | .lb => W.LB
      | .lc => W.LC
      | .tol => W.TOL
    let sec := fun (st : SecState) =>
      match st with
      | .closed => W.CLOSED
      | .blocked => W.BLOCKED
      | .protected_ => W.PROTECTED
      | .offerOut => W.OFFER_OUT
      | .clearOut => W.CLEAR_OUT
      | .unofferedClear => W.UNOFFERED_CLEAR
      | .enteredOut => W.ENTERED_OUT
      | .offerIn => W.OFFER_IN
      | .clearIn => W.CLEAR_IN
      | .enteredIn => W.ENTERED_IN
      | .through => W.THROUGH
    let stage := fun (g : Stage) =>
      match g with
      | .offered => W.OFFERED
      | .accepted => W.ACCEPTED
      | .entered => W.ENTERED
      | .cleared => W.CLEARED
    let dir := fun (d : Dir) =>
      match d with
      | .incoming => W.IN
      | .outgoing => W.OUT
      | .thru => W.THRU
    let cause := fun (c : SpoilCause) =>
      match c with
      | .held => W.HELD
      | .interrupted => W.INTERRUPTED
      | .clashed => W.CLASHED
    let cls := fun (k : Classification) =>
      match k with
      | .meaning (.offer n) => [W.OFFER, digits n]
      | .meaning (.info n) => [W.INFO, digits n]
      | .meaning .attention => [W.ATTENTION]
      | .meaning .entering => [W.ENTERING]
      | .meaning .outOfSection => [W.OUT_OF_SECTION]
      | .meaning .cancel => [W.CANCEL]
      | .meaning .obstruction => [W.OBSTRUCTION]
      | .meaning .boxOut => [W.BOX_OUT]
      | .meaning .boxIn => [W.BOX_IN]
      | .meaning .test => [W.TEST]
      | .unknown => [W.UNKNOWN]
      | .erroneous none => [W.ERRONEOUS]
      | .erroneous (some c) => [W.ERRONEOUS, cause c]
    let fail := fun (f : FailCause) =>
      match f with
      | .joint => W.JOINT
      | .proof => W.PROOF
      | .lowRef => W.LOW_REF
    let track := fun (st : TrackState) =>
      match st with
      | .disabled => [W.DISABLED]
      | .occupied => [W.OCCUPIED]
      | .clear => [W.CLEAR]
      | .failed f => [W.FAILED, fail f]
    let polarity := fun (p : Polarity) =>
      match p with
      | .positive => W.POSITIVE
      | .negative => W.NEGATIVE
    let last := fun (waits : Prop) [Decidable waits] (mark : Option Mark) (code : Option CodeRecord) =>
      match code with
      | none => [W.NONE]
      | some r => [patternText r.pattern] ++ cls r.cls ++ [timeWord r.time] ++
        if waits then [] else
          match mark with
          | none => []
          | some .taken => [W.TAKEN]
          | some .outOfTurn => [W.OUT_OF_TURN]
    let mark := fun (p : Sec) (w : Text) (m : Option Nat) =>
      match m with
      | none => []
      | some τ => [sectionLetter p, w, left (τ + s.times.codewin * 1000)]
    let inOut := fun (inward : Bool) => if inward then W.IN else W.OUT
    let body := fun (b : RegBody) =>
      match b with
      | .bell p d pattern k => [W.BELL, sectionLetter p, dir d, patternText pattern] ++ cls k
      | .change x a b train auto => [W.SECTION, sectionLetter x, sec a, sec b] ++
        (train.map digits).toList ++ has auto W.AUTO
      | .train ident x inward k outcome offered entered =>
        [W.TRAIN, digits ident, sectionLetter x, inOut inward, digits k,
          match outcome with
          | .complete => W.COMPLETE
          | .cancelled => W.CANCELLED
          | .void => W.VOID
          | .released => W.RELEASED,
          timeWord offered] ++ (entered.map timeWord).toList
      | .release x count => [W.RELEASE, sectionLetter x, digits count]
      | .lever n .forced => [W.LEVER, ordinal n, W.FORCED]
      | .lever n .fault => [W.LEVER, ordinal n, W.FAULT]
      | .lever n .stalled => [W.LEVER, ordinal n, W.STALLED]
      | .track c (some f) => [W.TRACK, ordinal c, W.FAILED, fail f]
      | .track c none => [W.TRACK, ordinal c, W.RESTORED]
      | .box .inService => [W.BOX, W.IN_SERVICE]
      | .box .switchedOut => [W.BOX, W.SWITCHED_OUT]
      | .box .switchedIn => [W.BOX, W.SWITCHED_IN]
      | .box .withdrawn => [W.BOX, W.WITHDRAWN]
      | .disagree (some x) => [W.DISAGREE, sectionLetter x]
      | .disagree none => [W.DISAGREE, W.BOX]
      | .clash p => [W.CLASH, sectionLetter p]
      | .crossed x => [W.CROSSED, sectionLetter x]
      | .clock old new => [W.CLOCK, timeWord old, timeWord new]
    (∀ n : Lever, s.asks .showLev [W.SHOW, W.LEV, ordinal n] →
      let l := s.lever n
      let pos :=
        match l.pos with
        | .nLocked => W.N_LOCKED
        | .nFree => W.N_FREE
        | .travel => W.TRAVEL
        | .rLocked => W.R_LOCKED
        | .rFree => W.R_FREE
        | .backlocked => W.BACKLOCKED
        | .fault => W.FAULT
      (l.record = none → answersOnly .showLev ['=' :: W.SHOW, W.LEV, ordinal n, pos, W.UNLOADED] s) ∧
      (l.record ≠ none →
        answersOnly .showLev (['=' :: W.SHOW, W.LEV, ordinal n, pos, W.LOCK, if l.lock then W.ON else W.OFF] ++
          has l.refused W.REFUSED ++ has l.forced W.FORCED ++ has l.stalled W.STALLED ++
          (match l.limit with
            | some d => if l.pos = .travel ∧ l.lock = true then [W.TRAVEL, left d] else []
            | none => []) ++
          (match l.backlock with
            | .timing d => if l.pos = .backlocked then [W.BACKLOCK, left d] else []
            | .due => if l.pos = .backlocked then [W.BACKLOCK, digits 0] else []
            | .idle => [])) s)) ∧
    (∀ c : Circuit,
      let k := s.circuit c
      let waiting := s.track.ops.flatMap fun o =>
        match o with
        | .tune d vals => if d = c then vals else []
        | _ => []
      (s.asks .showTc [W.SHOW, W.TC, ordinal c] →
        (k.stored = none → answersOnly .showTc ['=' :: W.SHOW, W.TC, ordinal c, W.DISABLED, W.UNLOADED] s) ∧
        (∀ r v p, k.stored = some r → k.live = some v → k.applied = some p →
          let d : Nat := max (k.q / 16 * v.drop / 256) v.floor
          answersOnly .showTc (['=' :: W.SHOW, W.TC, ordinal c] ++ track k.state ++
            [W.Q, digits k.q, W.R, digits (k.q / 16), W.D, digits d, W.U,
              digits (max (k.q / 16 * v.pick / 256) (d + 20)), W.CNT, digits k.low, digits k.high, digits k.reverse,
              polarity p] ++ has k.stale W.STALE) s) ∧
        (k.stored ≠ none → k.live = none ∨ k.applied = none → ∃ figures,
          answersOnly .showTc (['=' :: W.SHOW, W.TC, ordinal c] ++ track k.state ++ figures ++ has k.stale W.STALE) s)) ∧
      (s.asks .showTc [W.SHOW, W.TC, ordinal c, W.SET] →
        (k.stored = none → answersOnly .showTc ['=' :: W.SHOW, W.TC, ordinal c, W.SET, W.DISABLED, W.UNLOADED] s) ∧
        (∀ r, k.stored = some r →
          answersOnly .showTc (['=' :: W.SHOW, W.TC, ordinal c, W.SET] ++ tcValueWords (k.live.getD r)) s)) ∧
      (s.asks .showTc [W.SHOW, W.TC, ordinal c, W.PENDING] →
        (k.stored = none → answersOnly .showTc ['=' :: W.SHOW, W.TC, ordinal c, W.PENDING, W.DISABLED, W.UNLOADED] s) ∧
        (k.stored ≠ none → answersOnly .showTc (['=' :: W.SHOW, W.TC, ordinal c, W.PENDING] ++
          ([TcField.coarse, .fine, .window, .ref, .drop, .pick, .floor, .low, .joint, .dropf, .pickf, .phase, .inv,
            .group].flatMap fun f =>
              match waiting.reverse.find? fun e => decide (e.1 = f) with
              | some e => [wordFor tcFieldTable f, digits e.2]
              | none => [])) s)) ∧
      (∀ w rest, w ∉ [W.SET, W.PENDING] → s.asks .showTc (W.SHOW :: W.TC :: ordinal c :: w :: rest) →
        answersOnly .showTc (form 4) s)) ∧
    (∀ x : Sec,
      let k := s.section_ x
      let p := s.port x
      (s.asks .showSec [W.SHOW, W.SEC, sectionLetter x] →
        answersOnly .showSec (['=' :: W.SHOW, W.SEC, sectionLetter x, sec k.state] ++ has k.record.isNone W.UNLOADED ++
          [W.DRIVE, ind k.drive, W.IN, (k.reading.map ind).getD W.INVALID, W.SW, ind k.position] ++
          has k.releaseUnused W.UNUSED ++ has k.cancelHeard W.CANCEL ++ has k.enteringHeard W.ENTERING ++
          has (decide (k.state ≠ .closed ∧ k.state ≠ .through ∧ k.position ≠ k.drive)) W.DISAGREE ++
          ((k.timer.map fun d => [W.EMREL, left d]).getD []) ++ has k.released W.RELEASED ++
          [W.COUNT, digits k.releases] ++
          ((k.train.map fun t => [W.TRAIN, digits t.ident, stage t.stage, digits t.progress]).getD [])) s) ∧
      (s.asks .showSec [W.SHOW, W.SEC, sectionLetter x, W.TRAIN] →
        (k.train = none → answersOnly .showSec ['=' :: W.SHOW, W.SEC, sectionLetter x, W.TRAIN, W.NONE] s) ∧
        ∀ t, k.train = some t → answersOnly .showSec (['=' :: W.SHOW, W.SEC, sectionLetter x, W.TRAIN, digits t.ident,
          if t.inward then W.IN else W.OUT, digits t.cls, stage t.stage, W.P, digits t.progress, W.OFF,
          timeWord t.offered] ++ ((t.accepted.map fun c => [W.ACC, timeWord c]).getD []) ++
          ((t.entered.map fun c => [W.ENT, timeWord c]).getD [])) s) ∧
      (s.asks .showSec [W.SHOW, W.SEC, sectionLetter x, W.BELL] →
        let rest := [if p.drive then W.ON else W.OFF,
            match p.owner with
            | .free => W.FREE
            | .incoming => W.IN
            | .outgoing => W.OUT] ++
          (match p.code with
            | none => []
            | some c => [dir c.dir, patternText c.groups,
              match c.spoil with
              | .absent => W.NONE
              | .present none => W.ERRONEOUS
              | .present (some e) => cause e] ++ has c.suppressed W.SUPPRESSED) ++
          has p.held W.HELD ++ [W.LOCAL, if p.sounder = .off then W.OFF else W.ON]
        answersOnly .showSec (['=' :: W.SHOW, W.SEC, sectionLetter x, W.BELL,
          match p.sense with
          | .idle => W.IDLE
          | .incoming => W.IN
          | .outgoing => W.OUT
          | .clash => W.CLASH] ++ rest) s) ∧
      (s.asks .showSec [W.SHOW, W.SEC, sectionLetter x, W.SENT] →
        answersOnly .showSec (['=' :: W.SHOW, W.SEC, sectionLetter x, W.SENT] ++
          last (∃ h ∈ s.inbox.codes, h.port = x ∧ h.dir = .outgoing) k.sentMark p.sent) s) ∧
      (s.asks .showSec [W.SHOW, W.SEC, sectionLetter x, W.RCVD] →
        answersOnly .showSec (['=' :: W.SHOW, W.SEC, sectionLetter x, W.RCVD] ++
          last (∃ h ∈ s.inbox.codes, h.port = x ∧ h.dir ≠ .outgoing) k.rcvdMark p.rcvd) s) ∧
      (∀ w rest, w ∉ [W.TRAIN, W.BELL, W.SENT, W.RCVD] → s.asks .showSec (W.SHOW :: W.SEC :: sectionLetter x :: w :: rest) →
        answersOnly .showSec (form 4) s)) ∧
    (s.asks .showBox [W.SHOW, W.BOX] →
      answersOnly .showBox (['=' :: W.SHOW, W.BOX,
        match s.service.state with
        | .powerUp => W.POWER_UP
        | .configure => W.CONFIGURE
        | .inService => W.IN_SERVICE
        | .switchedOut => W.SWITCHED_OUT] ++
        [W.SW, if s.service.position = .out then W.OUT else W.IN] ++
        (if (s.service.state = .inService ∧ s.service.position = .out) ∨
            (s.service.state = .switchedOut ∧ s.service.position = .inn) then [W.DISAGREE] else []) ++
        (match s.service.refusal with
          | none => []
          | some .noList => [W.REFUSED, W.NO_LIST]
          | some (.notBlocked x) => [W.REFUSED, W.NOT_BLOCKED, sectionLetter x]
          | some (.lever n) => [W.REFUSED, W.LEVER, ordinal n]
          | some (.term n) => [W.REFUSED, W.TERM, ordinal n]
          | some (.exchange x) => [W.REFUSED, W.EXCHANGE, sectionLetter x]
          | some (.indicator x) => [W.REFUSED, W.INDICATOR, sectionLetter x]) ++
        [W.FRAME, digits s.track.params.frame, W.ACTUAL, digits s.track.actual] ++
        (if s.track.extended then [W.FRAME, W.EXTENDED] else []) ++
        [W.PATH, (s.service.path.map sectionLetter).getD W.NONE]) s) ∧
    (s.asks .showBox [W.SHOW, W.BOX, W.CLOCK] →
      answersOnly .showBox (['=' :: W.SHOW, W.BOX, W.CLOCK, timeWord s.register.clock, W.REG,
        digits s.register.ring.length] ++
        (match s.register.ring.head?, s.register.ring.getLast? with
          | some a, some b => [digits a.seq.toNat, digits b.seq.toNat]
          | _, _ => [])) s) ∧
    (∀ p : Sec,
      let code := fun (m : Option MemCode) =>
        match m with
        | none => [W.NONE]
        | some c => [patternText c.pattern] ++ cls c.cls ++ [timeWord c.time]
      s.asks .showBox [W.SHOW, W.BOX, W.PORT, sectionLetter p] →
      answersOnly .showBox (['=' :: W.SHOW, W.BOX, W.PORT, sectionLetter p, W.SENT] ++ code (s.memory p).sent ++
        [W.RCVD] ++ code (s.memory p).rcvd) s) ∧
    (s.asks .showBox [W.SHOW, W.BOX, W.MARKS] →
      answersOnly .showBox (['=' :: W.SHOW, W.BOX, W.MARKS] ++
        mark .a W.BOX_OUT (s.memory .a).boxOut ++ mark .a W.BOX_IN (s.memory .a).boxIn ++
        mark .b W.BOX_OUT (s.memory .b).boxOut ++ mark .b W.BOX_IN (s.memory .b).boxIn ++
        mark .c W.BOX_OUT (s.memory .c).boxOut ++ mark .c W.BOX_IN (s.memory .c).boxIn) s) ∧
    (∀ w rest, w ∉ [W.CLOCK, W.PORT, W.MARKS] → s.asks .showBox (W.SHOW :: W.BOX :: w :: rest) →
      answersOnly .showBox (form 3) s) ∧
    (∀ g : Nat, 1 ≤ g → g ≤ 7 → s.asks .showGroup [W.SHOW, W.GROUP, digits g] →
      let members := allCircuits.filter fun c => decide ((s.circuit c).stored.map (·.group) = some g)
      (members = [] → answersOnly .showGroup ['=' :: W.SHOW, W.GROUP, digits g, W.MEMBERS, digits 0] s) ∧
      ∀ c rest r, members = c :: rest → (s.circuit c).stored = some r →
        let v := r.setAll (s.track.ops.flatMap fun o =>
          match o with
          | .tune d vals => if d = c then vals else []
          | _ => [])
        answersOnly .showGroup ['=' :: W.SHOW, W.GROUP, digits g, W.MEMBERS, digits members.length, W.COARSE,
          digits v.coarse, W.FINE, digits v.fine, W.DROP, digits v.drop, W.PICK, digits v.pick, W.FLOOR,
          digits v.floor] s) ∧
    (∀ c : Cell, s.asks .showLamp [W.SHOW, W.LAMP, digits (c.val / 32), digits (c.val % 32)] →
      let opening := ['=' :: W.SHOW, W.LAMP, digits (c.val / 32), digits (c.val % 32)]
      let lamp := fun (v : Lamp) =>
        match v with
        | .off => W.OFF
        | .on => W.ON
        | .flash => W.FLASH
      let level := fun (v : Light) =>
        match v with
        | .active => W.ACTIVE
        | .dimmed => W.DIMMED
        | .dark => W.DARK
      (∀ f, s.diagram.published = some f →
        let v := (mapGet f.cells c).getD .off
        let figures := opening ++
          [lamp v, if v = .on ∨ (v = .flash ∧ f.half = true) then W.LIT else W.UNLIT, W.TON, digits f.ton, W.PHYS,
            digits (if f.rowrev then 15 - c.val / 32 else c.val / 32),
            digits (if f.colrev then 31 - c.val % 32 else c.val % 32), W.LEVEL, level f.level, W.B, digits f.b, W.HALF,
            if f.half then W.ON else W.OFF]
        (mapGet f.bindings c = none → answersOnly .showLamp (figures ++ [W.UNBOUND]) s) ∧
        ∀ b, mapGet f.bindings c = some b →
          (b.source ≠ .host → answersOnly .showLamp (figures ++ bindingWords c b) s) ∧
          (∀ w, b.source = .host → mapGet s.diagram.host c = some w →
            answersOnly .showLamp (figures ++ [W.HOST, lamp w] ++ bindingWords c b) s) ∧
          (b.source = .host → mapGet s.diagram.host c = none → ∃ w,
            answersOnly .showLamp (figures ++ [W.HOST, lamp w] ++ bindingWords c b) s)) ∧
      (s.diagram.published = none → ∃ a b e,
        answersOnly .showLamp (opening ++ [W.OFF, W.UNLIT, W.TON, digits 0, W.PHYS, a, b, W.LEVEL, level s.diagram.level,
          W.B, e, W.HALF, if s.diagram.half then W.ON else W.OFF, W.UNBOUND]) s)) ∧
    (∀ c : Circuit, s.asks .rawTc [W.RAW, W.TC, ordinal c] →
      let k := s.circuit c
      (k.state = .disabled → answersOnly .rawTc [refusalWord W.RANGE] s) ∧
      (k.state ≠ .disabled → k.published = none →
        answersOnly .rawTc (['=' :: W.RAW, W.TC, ordinal c, W.NONE] ++ has k.stale W.STALE) s) ∧
      ∀ m, k.state ≠ .disabled → k.published = some m →
        answersOnly .rawTc (['=' :: W.RAW, W.TC, ordinal c, W.S, signedDigits m.sum, W.N, digits m.count, W.A,
          signedDigits m.average, W.L, signedDigits m.level, W.P, signedDigits m.signed, W.SIGN,
          (m.sign.map polarity).getD W.OFF] ++ has m.saturated W.SATURATED ++
          (if m.masks = [] then [] else W.MASKED :: m.masks.map fun c =>
            match c with
            | .reversal => W.REVERSAL
            | .proof => W.PROOF
            | .restore => W.RESTORE
            | .tune => W.TUNE) ++ has k.stale W.STALE) s) ∧
    (∀ q : Seq, s.asks .reg [W.REG, digits q.toNat] →
        (∀ e, e ∈ s.register.ring → e.seq = q → (∀ d ∈ s.register.ring, d.seq = q → d = e) →
          answersOnly .reg (['=' :: W.REG, digits q.toNat, timeWord e.time] ++ body e.body) s) ∧
        ((∀ e ∈ s.register.ring, e.seq ≠ q) →
          (s.register.ring = [] → answersOnly .reg [refusalWord W.GONE] s) ∧
          ∀ e rest, s.register.ring = e :: rest → answersOnly .reg [refusalWord W.GONE, digits e.seq.toNat] s)) ∧
    ∀ (k c : Nat) (w : Text) (rest : List Text),
      (k < 1 ∨ 48 < k → s.asks .showLev (W.SHOW :: W.LEV :: digits k :: rest) → answersOnly .showLev (range 3) s) ∧
      (k < 1 ∨ 20 < k → s.asks .showTc (W.SHOW :: W.TC :: digits k :: rest) → answersOnly .showTc (range 3) s) ∧
      (w ∉ [W.A, W.B, W.C] → s.asks .showSec (W.SHOW :: W.SEC :: w :: rest) → answersOnly .showSec (range 3) s) ∧
      (k < 1 ∨ 7 < k → s.asks .showGroup (W.SHOW :: W.GROUP :: digits k :: rest) → answersOnly .showGroup (range 3) s) ∧
      (s.asks .showLev [W.SHOW, W.LEV] → answersOnly .showLev (range 3) s) ∧
      (s.asks .showTc [W.SHOW, W.TC] → answersOnly .showTc (range 3) s) ∧
      (s.asks .showSec [W.SHOW, W.SEC] → answersOnly .showSec (range 3) s) ∧
      (s.asks .showGroup [W.SHOW, W.GROUP] → answersOnly .showGroup (range 3) s) ∧
      (∀ n : Lever, s.asks .showLev (W.SHOW :: W.LEV :: ordinal n :: w :: rest) → answersOnly .showLev (form 4) s) ∧
      (15 < k ∨ 31 < c → s.asks .showLamp (W.SHOW :: W.LAMP :: digits k :: digits c :: rest) →
        answersOnly .showLamp [refusalWord W.RANGE] s) ∧
      (k < 1 ∨ 20 < k → s.asks .rawTc (W.RAW :: W.TC :: digits k :: rest) →
        answersOnly .rawTc [refusalWord W.RANGE] s) ∧
      (decimal? w = none → s.asks .reg (W.REG :: w :: rest) → answersOnly .reg [refusalWord W.FORM] s) ∧
      (s.asks .reg [W.REG] → answersOnly .reg [refusalWord W.FORM] s) ∧
      (65535 < k → s.asks .reg (W.REG :: digits k :: rest) → answersOnly .reg [refusalWord W.RANGE] s)

/-! ### Invariants -/

/-- Every invariant below holds right after reset. -/
def Obligations.InvariantsHoldAtReset : Prop :=
  State.reset.leversOk ∧ State.reset.sectionsOk ∧ State.reset.portsOk ∧ State.reset.trackOk ∧ State.reset.registerOk

/-- Every step keeps each lever's lock and timers in agreement with its state: the lock is energised in the free states and
in granted travel only, only for a loaded lever and only in IN_SERVICE, and the travel limit and back-lock record run
exactly where the state says. -/
def Obligations.EveryStepKeepsLeversOk : Prop :=
  ∀ s t : State, s.leversOk → step s = .next t → t.leversOk

/-- Every step keeps each section in agreement with its state: LC is driven only in CLEAR_IN, a release is held only in
CLEAR_OUT, a train record stands exactly in the states that hold one, and the section is worked as the service state has
it. -/
def Obligations.EveryStepKeepsSectionsOk : Prop :=
  ∀ s t : State, s.sectionsOk → step s = .next t → t.sectionsOk

/-- Every step keeps each port's owner, code, drive and pulses in agreement, its code within 5 groups of 9 beats, and its
drive off outside IN_SERVICE and SWITCHED_OUT. -/
def Obligations.EveryStepKeepsPortsOk : Prop :=
  ∀ s t : State, s.portsOk → step s = .next t → t.portsOk

/-- Every step keeps the bounds of the track circuits, the register and the link: the generator never zero, references
within 0 to 40000, at most 256 entries with consecutive numbers, two lines waiting, each item once in the pending set. -/
def Obligations.EveryStepKeepsBounds : Prop :=
  ∀ s t : State, s.trackOk ∧ s.registerOk → step s = .next t → t.trackOk ∧ t.registerOk

end
end

