-- ==== Sys2Proof/Laws/State.lean ====
section
/-! SUPPORT. One lemma for each field of the state and each update of it, true by definition. -/

namespace Sys2Proof.Machine

variable (s t : State)

/-! ### setLever -/

@[simp] theorem State.setLever_pending (n : Lever) (y : LeverData) : (s.setLever n y).pending = s.pending := rfl
@[simp] theorem State.setLever_now (n : Lever) (y : LeverData) : (s.setLever n y).now = s.now := rfl
@[simp] theorem State.setLever_resetHeld (n : Lever) (y : LeverData) : (s.setLever n y).resetHeld = s.resetHeld := rfl
@[simp] theorem State.setLever_strap (n : Lever) (y : LeverData) : (s.setLever n y).strap = s.strap := rfl
@[simp] theorem State.setLever_contacts (n : Lever) (y : LeverData) : (s.setLever n y).contacts = s.contacts := rfl
@[simp] theorem State.setLever_locking (n : Lever) (y : LeverData) : (s.setLever n y).locking = s.locking := rfl
@[simp] theorem State.setLever_track (n : Lever) (y : LeverData) : (s.setLever n y).track = s.track := rfl
@[simp] theorem State.setLever_ports (n : Lever) (y : LeverData) : (s.setLever n y).ports = s.ports := rfl
@[simp] theorem State.setLever_codes (n : Lever) (y : LeverData) : (s.setLever n y).codes = s.codes := rfl
@[simp] theorem State.setLever_sections (n : Lever) (y : LeverData) : (s.setLever n y).sections = s.sections := rfl
@[simp] theorem State.setLever_lastTrain (n : Lever) (y : LeverData) : (s.setLever n y).lastTrain = s.lastTrain := rfl
@[simp] theorem State.setLever_service (n : Lever) (y : LeverData) : (s.setLever n y).service = s.service := rfl
@[simp] theorem State.setLever_times (n : Lever) (y : LeverData) : (s.setLever n y).times = s.times := rfl
@[simp] theorem State.setLever_timesLoaded (n : Lever) (y : LeverData) : (s.setLever n y).timesLoaded = s.timesLoaded := rfl
@[simp] theorem State.setLever_register (n : Lever) (y : LeverData) : (s.setLever n y).register = s.register := rfl
@[simp] theorem State.setLever_diagram (n : Lever) (y : LeverData) : (s.setLever n y).diagram = s.diagram := rfl
@[simp] theorem State.setLever_link (n : Lever) (y : LeverData) : (s.setLever n y).link = s.link := rfl
@[simp] theorem State.setLever_inbox (n : Lever) (y : LeverData) : (s.setLever n y).inbox = s.inbox := rfl

/-! ### setTrack -/

@[simp] theorem State.setTrack_pending (y : TrackUnit) : (s.setTrack y).pending = s.pending := rfl
@[simp] theorem State.setTrack_now (y : TrackUnit) : (s.setTrack y).now = s.now := rfl
@[simp] theorem State.setTrack_resetHeld (y : TrackUnit) : (s.setTrack y).resetHeld = s.resetHeld := rfl
@[simp] theorem State.setTrack_strap (y : TrackUnit) : (s.setTrack y).strap = s.strap := rfl
@[simp] theorem State.setTrack_contacts (y : TrackUnit) : (s.setTrack y).contacts = s.contacts := rfl
@[simp] theorem State.setTrack_levers (y : TrackUnit) : (s.setTrack y).levers = s.levers := rfl
@[simp] theorem State.setTrack_locking (y : TrackUnit) : (s.setTrack y).locking = s.locking := rfl
@[simp] theorem State.setTrack_track (y : TrackUnit) : (s.setTrack y).track = y := rfl
@[simp] theorem State.setTrack_ports (y : TrackUnit) : (s.setTrack y).ports = s.ports := rfl
@[simp] theorem State.setTrack_codes (y : TrackUnit) : (s.setTrack y).codes = s.codes := rfl
@[simp] theorem State.setTrack_sections (y : TrackUnit) : (s.setTrack y).sections = s.sections := rfl
@[simp] theorem State.setTrack_lastTrain (y : TrackUnit) : (s.setTrack y).lastTrain = s.lastTrain := rfl
@[simp] theorem State.setTrack_service (y : TrackUnit) : (s.setTrack y).service = s.service := rfl
@[simp] theorem State.setTrack_times (y : TrackUnit) : (s.setTrack y).times = s.times := rfl
@[simp] theorem State.setTrack_timesLoaded (y : TrackUnit) : (s.setTrack y).timesLoaded = s.timesLoaded := rfl
@[simp] theorem State.setTrack_register (y : TrackUnit) : (s.setTrack y).register = s.register := rfl
@[simp] theorem State.setTrack_diagram (y : TrackUnit) : (s.setTrack y).diagram = s.diagram := rfl
@[simp] theorem State.setTrack_link (y : TrackUnit) : (s.setTrack y).link = s.link := rfl
@[simp] theorem State.setTrack_inbox (y : TrackUnit) : (s.setTrack y).inbox = s.inbox := rfl

/-! ### setSection -/

@[simp] theorem State.setSection_pending (x : Sec) (y : SectionData) : (s.setSection x y).pending = s.pending := rfl
@[simp] theorem State.setSection_now (x : Sec) (y : SectionData) : (s.setSection x y).now = s.now := rfl
@[simp] theorem State.setSection_resetHeld (x : Sec) (y : SectionData) : (s.setSection x y).resetHeld = s.resetHeld := rfl
@[simp] theorem State.setSection_strap (x : Sec) (y : SectionData) : (s.setSection x y).strap = s.strap := rfl
@[simp] theorem State.setSection_contacts (x : Sec) (y : SectionData) : (s.setSection x y).contacts = s.contacts := rfl
@[simp] theorem State.setSection_levers (x : Sec) (y : SectionData) : (s.setSection x y).levers = s.levers := rfl
@[simp] theorem State.setSection_locking (x : Sec) (y : SectionData) : (s.setSection x y).locking = s.locking := rfl
@[simp] theorem State.setSection_track (x : Sec) (y : SectionData) : (s.setSection x y).track = s.track := rfl
@[simp] theorem State.setSection_ports (x : Sec) (y : SectionData) : (s.setSection x y).ports = s.ports := rfl
@[simp] theorem State.setSection_codes (x : Sec) (y : SectionData) : (s.setSection x y).codes = s.codes := rfl
@[simp] theorem State.setSection_lastTrain (x : Sec) (y : SectionData) : (s.setSection x y).lastTrain = s.lastTrain := rfl
@[simp] theorem State.setSection_service (x : Sec) (y : SectionData) : (s.setSection x y).service = s.service := rfl
@[simp] theorem State.setSection_times (x : Sec) (y : SectionData) : (s.setSection x y).times = s.times := rfl
@[simp] theorem State.setSection_timesLoaded (x : Sec) (y : SectionData) : (s.setSection x y).timesLoaded = s.timesLoaded := rfl
@[simp] theorem State.setSection_register (x : Sec) (y : SectionData) : (s.setSection x y).register = s.register := rfl
@[simp] theorem State.setSection_diagram (x : Sec) (y : SectionData) : (s.setSection x y).diagram = s.diagram := rfl
@[simp] theorem State.setSection_link (x : Sec) (y : SectionData) : (s.setSection x y).link = s.link := rfl
@[simp] theorem State.setSection_inbox (x : Sec) (y : SectionData) : (s.setSection x y).inbox = s.inbox := rfl

/-! ### setPort -/

@[simp] theorem State.setPort_pending (p : Sec) (y : PortData) : (s.setPort p y).pending = s.pending := rfl
@[simp] theorem State.setPort_now (p : Sec) (y : PortData) : (s.setPort p y).now = s.now := rfl
@[simp] theorem State.setPort_resetHeld (p : Sec) (y : PortData) : (s.setPort p y).resetHeld = s.resetHeld := rfl
@[simp] theorem State.setPort_strap (p : Sec) (y : PortData) : (s.setPort p y).strap = s.strap := rfl
@[simp] theorem State.setPort_contacts (p : Sec) (y : PortData) : (s.setPort p y).contacts = s.contacts := rfl
@[simp] theorem State.setPort_levers (p : Sec) (y : PortData) : (s.setPort p y).levers = s.levers := rfl
@[simp] theorem State.setPort_locking (p : Sec) (y : PortData) : (s.setPort p y).locking = s.locking := rfl
@[simp] theorem State.setPort_track (p : Sec) (y : PortData) : (s.setPort p y).track = s.track := rfl
@[simp] theorem State.setPort_codes (p : Sec) (y : PortData) : (s.setPort p y).codes = s.codes := rfl
@[simp] theorem State.setPort_sections (p : Sec) (y : PortData) : (s.setPort p y).sections = s.sections := rfl
@[simp] theorem State.setPort_lastTrain (p : Sec) (y : PortData) : (s.setPort p y).lastTrain = s.lastTrain := rfl
@[simp] theorem State.setPort_service (p : Sec) (y : PortData) : (s.setPort p y).service = s.service := rfl
@[simp] theorem State.setPort_times (p : Sec) (y : PortData) : (s.setPort p y).times = s.times := rfl
@[simp] theorem State.setPort_timesLoaded (p : Sec) (y : PortData) : (s.setPort p y).timesLoaded = s.timesLoaded := rfl
@[simp] theorem State.setPort_register (p : Sec) (y : PortData) : (s.setPort p y).register = s.register := rfl
@[simp] theorem State.setPort_diagram (p : Sec) (y : PortData) : (s.setPort p y).diagram = s.diagram := rfl
@[simp] theorem State.setPort_link (p : Sec) (y : PortData) : (s.setPort p y).link = s.link := rfl
@[simp] theorem State.setPort_inbox (p : Sec) (y : PortData) : (s.setPort p y).inbox = s.inbox := rfl

/-! ### setService -/

@[simp] theorem State.setService_pending (y : ServiceUnit) : (s.setService y).pending = s.pending := rfl
@[simp] theorem State.setService_now (y : ServiceUnit) : (s.setService y).now = s.now := rfl
@[simp] theorem State.setService_resetHeld (y : ServiceUnit) : (s.setService y).resetHeld = s.resetHeld := rfl
@[simp] theorem State.setService_strap (y : ServiceUnit) : (s.setService y).strap = s.strap := rfl
@[simp] theorem State.setService_contacts (y : ServiceUnit) : (s.setService y).contacts = s.contacts := rfl
@[simp] theorem State.setService_levers (y : ServiceUnit) : (s.setService y).levers = s.levers := rfl
@[simp] theorem State.setService_locking (y : ServiceUnit) : (s.setService y).locking = s.locking := rfl
@[simp] theorem State.setService_track (y : ServiceUnit) : (s.setService y).track = s.track := rfl
@[simp] theorem State.setService_ports (y : ServiceUnit) : (s.setService y).ports = s.ports := rfl
@[simp] theorem State.setService_codes (y : ServiceUnit) : (s.setService y).codes = s.codes := rfl
@[simp] theorem State.setService_sections (y : ServiceUnit) : (s.setService y).sections = s.sections := rfl
@[simp] theorem State.setService_lastTrain (y : ServiceUnit) : (s.setService y).lastTrain = s.lastTrain := rfl
@[simp] theorem State.setService_service (y : ServiceUnit) : (s.setService y).service = y := rfl
@[simp] theorem State.setService_times (y : ServiceUnit) : (s.setService y).times = s.times := rfl
@[simp] theorem State.setService_timesLoaded (y : ServiceUnit) : (s.setService y).timesLoaded = s.timesLoaded := rfl
@[simp] theorem State.setService_register (y : ServiceUnit) : (s.setService y).register = s.register := rfl
@[simp] theorem State.setService_diagram (y : ServiceUnit) : (s.setService y).diagram = s.diagram := rfl
@[simp] theorem State.setService_link (y : ServiceUnit) : (s.setService y).link = s.link := rfl
@[simp] theorem State.setService_inbox (y : ServiceUnit) : (s.setService y).inbox = s.inbox := rfl

/-! ### setLink -/

@[simp] theorem State.setLink_pending (y : Link) : (s.setLink y).pending = s.pending := rfl
@[simp] theorem State.setLink_now (y : Link) : (s.setLink y).now = s.now := rfl
@[simp] theorem State.setLink_resetHeld (y : Link) : (s.setLink y).resetHeld = s.resetHeld := rfl
@[simp] theorem State.setLink_strap (y : Link) : (s.setLink y).strap = s.strap := rfl
@[simp] theorem State.setLink_contacts (y : Link) : (s.setLink y).contacts = s.contacts := rfl
@[simp] theorem State.setLink_levers (y : Link) : (s.setLink y).levers = s.levers := rfl
@[simp] theorem State.setLink_locking (y : Link) : (s.setLink y).locking = s.locking := rfl
@[simp] theorem State.setLink_track (y : Link) : (s.setLink y).track = s.track := rfl
@[simp] theorem State.setLink_ports (y : Link) : (s.setLink y).ports = s.ports := rfl
@[simp] theorem State.setLink_codes (y : Link) : (s.setLink y).codes = s.codes := rfl
@[simp] theorem State.setLink_sections (y : Link) : (s.setLink y).sections = s.sections := rfl
@[simp] theorem State.setLink_lastTrain (y : Link) : (s.setLink y).lastTrain = s.lastTrain := rfl
@[simp] theorem State.setLink_service (y : Link) : (s.setLink y).service = s.service := rfl
@[simp] theorem State.setLink_times (y : Link) : (s.setLink y).times = s.times := rfl
@[simp] theorem State.setLink_timesLoaded (y : Link) : (s.setLink y).timesLoaded = s.timesLoaded := rfl
@[simp] theorem State.setLink_register (y : Link) : (s.setLink y).register = s.register := rfl
@[simp] theorem State.setLink_diagram (y : Link) : (s.setLink y).diagram = s.diagram := rfl
@[simp] theorem State.setLink_link (y : Link) : (s.setLink y).link = y := rfl
@[simp] theorem State.setLink_inbox (y : Link) : (s.setLink y).inbox = s.inbox := rfl

/-! ### setInbox -/

@[simp] theorem State.setInbox_pending (y : Inbox) : (s.setInbox y).pending = s.pending := rfl
@[simp] theorem State.setInbox_now (y : Inbox) : (s.setInbox y).now = s.now := rfl
@[simp] theorem State.setInbox_resetHeld (y : Inbox) : (s.setInbox y).resetHeld = s.resetHeld := rfl
@[simp] theorem State.setInbox_strap (y : Inbox) : (s.setInbox y).strap = s.strap := rfl
@[simp] theorem State.setInbox_contacts (y : Inbox) : (s.setInbox y).contacts = s.contacts := rfl
@[simp] theorem State.setInbox_levers (y : Inbox) : (s.setInbox y).levers = s.levers := rfl
@[simp] theorem State.setInbox_locking (y : Inbox) : (s.setInbox y).locking = s.locking := rfl
@[simp] theorem State.setInbox_track (y : Inbox) : (s.setInbox y).track = s.track := rfl
@[simp] theorem State.setInbox_ports (y : Inbox) : (s.setInbox y).ports = s.ports := rfl
@[simp] theorem State.setInbox_codes (y : Inbox) : (s.setInbox y).codes = s.codes := rfl
@[simp] theorem State.setInbox_sections (y : Inbox) : (s.setInbox y).sections = s.sections := rfl
@[simp] theorem State.setInbox_lastTrain (y : Inbox) : (s.setInbox y).lastTrain = s.lastTrain := rfl
@[simp] theorem State.setInbox_service (y : Inbox) : (s.setInbox y).service = s.service := rfl
@[simp] theorem State.setInbox_times (y : Inbox) : (s.setInbox y).times = s.times := rfl
@[simp] theorem State.setInbox_timesLoaded (y : Inbox) : (s.setInbox y).timesLoaded = s.timesLoaded := rfl
@[simp] theorem State.setInbox_register (y : Inbox) : (s.setInbox y).register = s.register := rfl
@[simp] theorem State.setInbox_diagram (y : Inbox) : (s.setInbox y).diagram = s.diagram := rfl
@[simp] theorem State.setInbox_link (y : Inbox) : (s.setInbox y).link = s.link := rfl
@[simp] theorem State.setInbox_inbox (y : Inbox) : (s.setInbox y).inbox = y := rfl

/-! ### setDiagram -/

@[simp] theorem State.setDiagram_pending (y : Diagram) : (s.setDiagram y).pending = s.pending := rfl
@[simp] theorem State.setDiagram_now (y : Diagram) : (s.setDiagram y).now = s.now := rfl
@[simp] theorem State.setDiagram_resetHeld (y : Diagram) : (s.setDiagram y).resetHeld = s.resetHeld := rfl
@[simp] theorem State.setDiagram_strap (y : Diagram) : (s.setDiagram y).strap = s.strap := rfl
@[simp] theorem State.setDiagram_contacts (y : Diagram) : (s.setDiagram y).contacts = s.contacts := rfl
@[simp] theorem State.setDiagram_levers (y : Diagram) : (s.setDiagram y).levers = s.levers := rfl
@[simp] theorem State.setDiagram_locking (y : Diagram) : (s.setDiagram y).locking = s.locking := rfl
@[simp] theorem State.setDiagram_track (y : Diagram) : (s.setDiagram y).track = s.track := rfl
@[simp] theorem State.setDiagram_ports (y : Diagram) : (s.setDiagram y).ports = s.ports := rfl
@[simp] theorem State.setDiagram_codes (y : Diagram) : (s.setDiagram y).codes = s.codes := rfl
@[simp] theorem State.setDiagram_sections (y : Diagram) : (s.setDiagram y).sections = s.sections := rfl
@[simp] theorem State.setDiagram_lastTrain (y : Diagram) : (s.setDiagram y).lastTrain = s.lastTrain := rfl
@[simp] theorem State.setDiagram_service (y : Diagram) : (s.setDiagram y).service = s.service := rfl
@[simp] theorem State.setDiagram_times (y : Diagram) : (s.setDiagram y).times = s.times := rfl
@[simp] theorem State.setDiagram_timesLoaded (y : Diagram) : (s.setDiagram y).timesLoaded = s.timesLoaded := rfl
@[simp] theorem State.setDiagram_register (y : Diagram) : (s.setDiagram y).register = s.register := rfl
@[simp] theorem State.setDiagram_diagram (y : Diagram) : (s.setDiagram y).diagram = y := rfl
@[simp] theorem State.setDiagram_link (y : Diagram) : (s.setDiagram y).link = s.link := rfl
@[simp] theorem State.setDiagram_inbox (y : Diagram) : (s.setDiagram y).inbox = s.inbox := rfl

/-! ### setRegister -/

@[simp] theorem State.setRegister_pending (y : Register) : (s.setRegister y).pending = s.pending := rfl
@[simp] theorem State.setRegister_now (y : Register) : (s.setRegister y).now = s.now := rfl
@[simp] theorem State.setRegister_resetHeld (y : Register) : (s.setRegister y).resetHeld = s.resetHeld := rfl
@[simp] theorem State.setRegister_strap (y : Register) : (s.setRegister y).strap = s.strap := rfl
@[simp] theorem State.setRegister_contacts (y : Register) : (s.setRegister y).contacts = s.contacts := rfl
@[simp] theorem State.setRegister_levers (y : Register) : (s.setRegister y).levers = s.levers := rfl
@[simp] theorem State.setRegister_locking (y : Register) : (s.setRegister y).locking = s.locking := rfl
@[simp] theorem State.setRegister_track (y : Register) : (s.setRegister y).track = s.track := rfl
@[simp] theorem State.setRegister_ports (y : Register) : (s.setRegister y).ports = s.ports := rfl
@[simp] theorem State.setRegister_codes (y : Register) : (s.setRegister y).codes = s.codes := rfl
@[simp] theorem State.setRegister_sections (y : Register) : (s.setRegister y).sections = s.sections := rfl
@[simp] theorem State.setRegister_lastTrain (y : Register) : (s.setRegister y).lastTrain = s.lastTrain := rfl
@[simp] theorem State.setRegister_service (y : Register) : (s.setRegister y).service = s.service := rfl
@[simp] theorem State.setRegister_times (y : Register) : (s.setRegister y).times = s.times := rfl
@[simp] theorem State.setRegister_timesLoaded (y : Register) : (s.setRegister y).timesLoaded = s.timesLoaded := rfl
@[simp] theorem State.setRegister_register (y : Register) : (s.setRegister y).register = y := rfl
@[simp] theorem State.setRegister_diagram (y : Register) : (s.setRegister y).diagram = s.diagram := rfl
@[simp] theorem State.setRegister_link (y : Register) : (s.setRegister y).link = s.link := rfl
@[simp] theorem State.setRegister_inbox (y : Register) : (s.setRegister y).inbox = s.inbox := rfl

/-! ### setContacts -/

@[simp] theorem State.setContacts_pending (y : Contacts) : (s.setContacts y).pending = s.pending := rfl
@[simp] theorem State.setContacts_now (y : Contacts) : (s.setContacts y).now = s.now := rfl
@[simp] theorem State.setContacts_resetHeld (y : Contacts) : (s.setContacts y).resetHeld = s.resetHeld := rfl
@[simp] theorem State.setContacts_strap (y : Contacts) : (s.setContacts y).strap = s.strap := rfl
@[simp] theorem State.setContacts_contacts (y : Contacts) : (s.setContacts y).contacts = y := rfl
@[simp] theorem State.setContacts_levers (y : Contacts) : (s.setContacts y).levers = s.levers := rfl
@[simp] theorem State.setContacts_locking (y : Contacts) : (s.setContacts y).locking = s.locking := rfl
@[simp] theorem State.setContacts_track (y : Contacts) : (s.setContacts y).track = s.track := rfl
@[simp] theorem State.setContacts_ports (y : Contacts) : (s.setContacts y).ports = s.ports := rfl
@[simp] theorem State.setContacts_codes (y : Contacts) : (s.setContacts y).codes = s.codes := rfl
@[simp] theorem State.setContacts_sections (y : Contacts) : (s.setContacts y).sections = s.sections := rfl
@[simp] theorem State.setContacts_lastTrain (y : Contacts) : (s.setContacts y).lastTrain = s.lastTrain := rfl
@[simp] theorem State.setContacts_service (y : Contacts) : (s.setContacts y).service = s.service := rfl
@[simp] theorem State.setContacts_times (y : Contacts) : (s.setContacts y).times = s.times := rfl
@[simp] theorem State.setContacts_timesLoaded (y : Contacts) : (s.setContacts y).timesLoaded = s.timesLoaded := rfl
@[simp] theorem State.setContacts_register (y : Contacts) : (s.setContacts y).register = s.register := rfl
@[simp] theorem State.setContacts_diagram (y : Contacts) : (s.setContacts y).diagram = s.diagram := rfl
@[simp] theorem State.setContacts_link (y : Contacts) : (s.setContacts y).link = s.link := rfl
@[simp] theorem State.setContacts_inbox (y : Contacts) : (s.setContacts y).inbox = s.inbox := rfl

/-! ### enter -/

@[simp] theorem State.enter_pending (u : RegUnit) (e : RegBody) : (s.enter u e).pending = s.pending := rfl
@[simp] theorem State.enter_now (u : RegUnit) (e : RegBody) : (s.enter u e).now = s.now := rfl
@[simp] theorem State.enter_resetHeld (u : RegUnit) (e : RegBody) : (s.enter u e).resetHeld = s.resetHeld := rfl
@[simp] theorem State.enter_strap (u : RegUnit) (e : RegBody) : (s.enter u e).strap = s.strap := rfl
@[simp] theorem State.enter_contacts (u : RegUnit) (e : RegBody) : (s.enter u e).contacts = s.contacts := rfl
@[simp] theorem State.enter_levers (u : RegUnit) (e : RegBody) : (s.enter u e).levers = s.levers := rfl
@[simp] theorem State.enter_locking (u : RegUnit) (e : RegBody) : (s.enter u e).locking = s.locking := rfl
@[simp] theorem State.enter_track (u : RegUnit) (e : RegBody) : (s.enter u e).track = s.track := rfl
@[simp] theorem State.enter_ports (u : RegUnit) (e : RegBody) : (s.enter u e).ports = s.ports := rfl
@[simp] theorem State.enter_codes (u : RegUnit) (e : RegBody) : (s.enter u e).codes = s.codes := rfl
@[simp] theorem State.enter_sections (u : RegUnit) (e : RegBody) : (s.enter u e).sections = s.sections := rfl
@[simp] theorem State.enter_lastTrain (u : RegUnit) (e : RegBody) : (s.enter u e).lastTrain = s.lastTrain := rfl
@[simp] theorem State.enter_service (u : RegUnit) (e : RegBody) : (s.enter u e).service = s.service := rfl
@[simp] theorem State.enter_times (u : RegUnit) (e : RegBody) : (s.enter u e).times = s.times := rfl
@[simp] theorem State.enter_timesLoaded (u : RegUnit) (e : RegBody) : (s.enter u e).timesLoaded = s.timesLoaded := rfl
@[simp] theorem State.enter_register (u : RegUnit) (e : RegBody) : (s.enter u e).register = s.register := rfl
@[simp] theorem State.enter_diagram (u : RegUnit) (e : RegBody) : (s.enter u e).diagram = s.diagram := rfl
@[simp] theorem State.enter_link (u : RegUnit) (e : RegBody) : (s.enter u e).link = s.link := rfl

/-! ### enterAll -/

@[simp] theorem State.enterAll_pending (u : RegUnit) (es : List RegBody) : (s.enterAll u es).pending = s.pending := rfl
@[simp] theorem State.enterAll_now (u : RegUnit) (es : List RegBody) : (s.enterAll u es).now = s.now := rfl
@[simp] theorem State.enterAll_resetHeld (u : RegUnit) (es : List RegBody) : (s.enterAll u es).resetHeld = s.resetHeld := rfl
@[simp] theorem State.enterAll_strap (u : RegUnit) (es : List RegBody) : (s.enterAll u es).strap = s.strap := rfl
@[simp] theorem State.enterAll_contacts (u : RegUnit) (es : List RegBody) : (s.enterAll u es).contacts = s.contacts := rfl
@[simp] theorem State.enterAll_levers (u : RegUnit) (es : List RegBody) : (s.enterAll u es).levers = s.levers := rfl
@[simp] theorem State.enterAll_locking (u : RegUnit) (es : List RegBody) : (s.enterAll u es).locking = s.locking := rfl
@[simp] theorem State.enterAll_track (u : RegUnit) (es : List RegBody) : (s.enterAll u es).track = s.track := rfl
@[simp] theorem State.enterAll_ports (u : RegUnit) (es : List RegBody) : (s.enterAll u es).ports = s.ports := rfl
@[simp] theorem State.enterAll_codes (u : RegUnit) (es : List RegBody) : (s.enterAll u es).codes = s.codes := rfl
@[simp] theorem State.enterAll_sections (u : RegUnit) (es : List RegBody) : (s.enterAll u es).sections = s.sections := rfl
@[simp] theorem State.enterAll_lastTrain (u : RegUnit) (es : List RegBody) : (s.enterAll u es).lastTrain = s.lastTrain := rfl
@[simp] theorem State.enterAll_service (u : RegUnit) (es : List RegBody) : (s.enterAll u es).service = s.service := rfl
@[simp] theorem State.enterAll_times (u : RegUnit) (es : List RegBody) : (s.enterAll u es).times = s.times := rfl
@[simp] theorem State.enterAll_timesLoaded (u : RegUnit) (es : List RegBody) : (s.enterAll u es).timesLoaded = s.timesLoaded := rfl
@[simp] theorem State.enterAll_register (u : RegUnit) (es : List RegBody) : (s.enterAll u es).register = s.register := rfl
@[simp] theorem State.enterAll_diagram (u : RegUnit) (es : List RegBody) : (s.enterAll u es).diagram = s.diagram := rfl
@[simp] theorem State.enterAll_link (u : RegUnit) (es : List RegBody) : (s.enterAll u es).link = s.link := rfl

@[simp] theorem State.enter_inbox_frame (u : RegUnit) (e : RegBody) : (s.enter u e).inbox.frame = s.inbox.frame := rfl
@[simp] theorem State.enter_inbox_inputs (u : RegUnit) (e : RegBody) : (s.enter u e).inbox.inputs = s.inbox.inputs := rfl
@[simp] theorem State.enter_inbox_switches (u : RegUnit) (e : RegBody) : (s.enter u e).inbox.switches = s.inbox.switches := rfl
@[simp] theorem State.enter_inbox_plungers (u : RegUnit) (e : RegBody) : (s.enter u e).inbox.plungers = s.inbox.plungers := rfl
@[simp] theorem State.enter_inbox_tappers (u : RegUnit) (e : RegBody) : (s.enter u e).inbox.tappers = s.inbox.tappers := rfl
@[simp] theorem State.enter_inbox_box (u : RegUnit) (e : RegBody) : (s.enter u e).inbox.box = s.inbox.box := rfl
@[simp] theorem State.enter_inbox_activity (u : RegUnit) (e : RegBody) : (s.enter u e).inbox.activity = s.inbox.activity := rfl
@[simp] theorem State.enter_inbox_demands (u : RegUnit) (e : RegBody) : (s.enter u e).inbox.demands = s.inbox.demands := rfl
@[simp] theorem State.enter_inbox_backReleases (u : RegUnit) (e : RegBody) : (s.enter u e).inbox.backReleases = s.inbox.backReleases := rfl
@[simp] theorem State.enter_inbox_changes (u : RegUnit) (e : RegBody) : (s.enter u e).inbox.changes = s.inbox.changes := rfl
@[simp] theorem State.enter_inbox_atR (u : RegUnit) (e : RegBody) : (s.enter u e).inbox.atR = s.inbox.atR := rfl
@[simp] theorem State.enter_inbox_autoTol (u : RegUnit) (e : RegBody) : (s.enter u e).inbox.autoTol = s.inbox.autoTol := rfl
@[simp] theorem State.enter_inbox_progress (u : RegUnit) (e : RegBody) : (s.enter u e).inbox.progress = s.inbox.progress := rfl
@[simp] theorem State.enter_inbox_codes (u : RegUnit) (e : RegBody) : (s.enter u e).inbox.codes = s.inbox.codes := rfl
@[simp] theorem State.enter_inbox_exchange (u : RegUnit) (e : RegBody) : (s.enter u e).inbox.exchange = s.inbox.exchange := rfl
@[simp] theorem State.enter_inbox_readings (u : RegUnit) (e : RegBody) : (s.enter u e).inbox.readings = s.inbox.readings := rfl
@[simp] theorem State.enter_inbox_service (u : RegUnit) (e : RegBody) : (s.enter u e).inbox.service = s.inbox.service := rfl
@[simp] theorem State.enterAll_inbox_frame (u : RegUnit) (es : List RegBody) : (s.enterAll u es).inbox.frame = s.inbox.frame := rfl
@[simp] theorem State.enterAll_inbox_inputs (u : RegUnit) (es : List RegBody) : (s.enterAll u es).inbox.inputs = s.inbox.inputs := rfl
@[simp] theorem State.enterAll_inbox_switches (u : RegUnit) (es : List RegBody) : (s.enterAll u es).inbox.switches = s.inbox.switches := rfl
@[simp] theorem State.enterAll_inbox_plungers (u : RegUnit) (es : List RegBody) : (s.enterAll u es).inbox.plungers = s.inbox.plungers := rfl
@[simp] theorem State.enterAll_inbox_tappers (u : RegUnit) (es : List RegBody) : (s.enterAll u es).inbox.tappers = s.inbox.tappers := rfl
@[simp] theorem State.enterAll_inbox_box (u : RegUnit) (es : List RegBody) : (s.enterAll u es).inbox.box = s.inbox.box := rfl
@[simp] theorem State.enterAll_inbox_activity (u : RegUnit) (es : List RegBody) : (s.enterAll u es).inbox.activity = s.inbox.activity := rfl
@[simp] theorem State.enterAll_inbox_demands (u : RegUnit) (es : List RegBody) : (s.enterAll u es).inbox.demands = s.inbox.demands := rfl
@[simp] theorem State.enterAll_inbox_backReleases (u : RegUnit) (es : List RegBody) : (s.enterAll u es).inbox.backReleases = s.inbox.backReleases := rfl
@[simp] theorem State.enterAll_inbox_changes (u : RegUnit) (es : List RegBody) : (s.enterAll u es).inbox.changes = s.inbox.changes := rfl
@[simp] theorem State.enterAll_inbox_atR (u : RegUnit) (es : List RegBody) : (s.enterAll u es).inbox.atR = s.inbox.atR := rfl
@[simp] theorem State.enterAll_inbox_autoTol (u : RegUnit) (es : List RegBody) : (s.enterAll u es).inbox.autoTol = s.inbox.autoTol := rfl
@[simp] theorem State.enterAll_inbox_progress (u : RegUnit) (es : List RegBody) : (s.enterAll u es).inbox.progress = s.inbox.progress := rfl
@[simp] theorem State.enterAll_inbox_codes (u : RegUnit) (es : List RegBody) : (s.enterAll u es).inbox.codes = s.inbox.codes := rfl
@[simp] theorem State.enterAll_inbox_exchange (u : RegUnit) (es : List RegBody) : (s.enterAll u es).inbox.exchange = s.inbox.exchange := rfl
@[simp] theorem State.enterAll_inbox_readings (u : RegUnit) (es : List RegBody) : (s.enterAll u es).inbox.readings = s.inbox.readings := rfl
@[simp] theorem State.enterAll_inbox_service (u : RegUnit) (es : List RegBody) : (s.enterAll u es).inbox.service = s.inbox.service := rfl
@[simp] theorem State.enter_entries (u : RegUnit) (e : RegBody) : (s.enter u e).inbox.entries = s.inbox.entries ++ [(u, e)] := rfl
@[simp] theorem State.enterAll_entries (u : RegUnit) (es : List RegBody) :
    (s.enterAll u es).inbox.entries = s.inbox.entries ++ es.map (u, ·) := rfl

/-! ### commit -/

@[simp] theorem commit_pending : (commit s t).pending = t.pending := rfl
@[simp] theorem commit_now : (commit s t).now = t.now := rfl
@[simp] theorem commit_resetHeld : (commit s t).resetHeld = t.resetHeld := rfl
@[simp] theorem commit_strap : (commit s t).strap = t.strap := rfl
@[simp] theorem commit_contacts : (commit s t).contacts = t.contacts := rfl
@[simp] theorem commit_levers : (commit s t).levers = t.levers := rfl
@[simp] theorem commit_locking : (commit s t).locking = t.locking := rfl
@[simp] theorem commit_track : (commit s t).track = t.track := rfl
@[simp] theorem commit_ports : (commit s t).ports = t.ports := rfl
@[simp] theorem commit_codes : (commit s t).codes = t.codes := rfl
@[simp] theorem commit_sections : (commit s t).sections = t.sections := rfl
@[simp] theorem commit_lastTrain : (commit s t).lastTrain = t.lastTrain := rfl
@[simp] theorem commit_service : (commit s t).service = t.service := rfl
@[simp] theorem commit_times : (commit s t).times = t.times := rfl
@[simp] theorem commit_timesLoaded : (commit s t).timesLoaded = t.timesLoaded := rfl
@[simp] theorem commit_register : (commit s t).register = t.register := rfl
@[simp] theorem commit_link_building : (commit s t).link.building = t.link.building := rfl
@[simp] theorem commit_link_count : (commit s t).link.count = t.link.count := rfl
@[simp] theorem commit_link_long : (commit s t).link.long = t.link.long := rfl
@[simp] theorem commit_link_framing : (commit s t).link.framing = t.link.framing := rfl
@[simp] theorem commit_link_queue : (commit s t).link.queue = t.link.queue := rfl
@[simp] theorem commit_link_owed : (commit s t).link.owed = t.link.owed := rfl
@[simp] theorem commit_link_slot : (commit s t).link.slot = t.link.slot := rfl
@[simp] theorem commit_link_sending : (commit s t).link.sending = t.link.sending := rfl
@[simp] theorem commit_link_restart : (commit s t).link.restart = t.link.restart := rfl
@[simp] theorem commit_link_classes : (commit s t).link.classes = t.link.classes := rfl
@[simp] theorem commit_link_mark : (commit s t).link.mark = t.link.mark := rfl
@[simp] theorem commit_link_heldWords : (commit s t).link.heldWords = t.link.heldWords := rfl
@[simp] theorem commit_link_keptWords : (commit s t).link.keptWords = t.link.keptWords := rfl
@[simp] theorem commit_diagram_stored : (commit s t).diagram.stored = t.diagram.stored := rfl
@[simp] theorem commit_diagram_bound : (commit s t).diagram.bound = t.diagram.bound := rfl
@[simp] theorem commit_diagram_ops : (commit s t).diagram.ops = t.diagram.ops := rfl
@[simp] theorem commit_diagram_host : (commit s t).diagram.host = t.diagram.host := rfl
@[simp] theorem commit_diagram_bright : (commit s t).diagram.bright = t.diagram.bright := rfl
@[simp] theorem commit_diagram_dim : (commit s t).diagram.dim = t.diagram.dim := rfl
@[simp] theorem commit_diagram_level : (commit s t).diagram.level = t.diagram.level := rfl
@[simp] theorem commit_diagram_idleFrom : (commit s t).diagram.idleFrom = t.diagram.idleFrom := rfl
@[simp] theorem commit_diagram_half : (commit s t).diagram.half = t.diagram.half := rfl
@[simp] theorem commit_diagram_flashCount : (commit s t).diagram.flashCount = t.diagram.flashCount := rfl
@[simp] theorem commit_diagram_period : (commit s t).diagram.period = t.diagram.period := rfl
@[simp] theorem commit_diagram_div : (commit s t).diagram.div = t.diagram.div := rfl
@[simp] theorem commit_diagram_current : (commit s t).diagram.current = t.diagram.current := rfl
@[simp] theorem commit_diagram_started : (commit s t).diagram.started = t.diagram.started := rfl
@[simp] theorem commit_diagram_published : (commit s t).diagram.published = t.diagram.published := rfl
@[simp] theorem commit_inbox_frame : (commit s t).inbox.frame = t.inbox.frame := rfl
@[simp] theorem commit_inbox_inputs : (commit s t).inbox.inputs = t.inbox.inputs := rfl
@[simp] theorem commit_inbox_switches : (commit s t).inbox.switches = t.inbox.switches := rfl
@[simp] theorem commit_inbox_plungers : (commit s t).inbox.plungers = t.inbox.plungers := rfl
@[simp] theorem commit_inbox_tappers : (commit s t).inbox.tappers = t.inbox.tappers := rfl
@[simp] theorem commit_inbox_box : (commit s t).inbox.box = t.inbox.box := rfl
@[simp] theorem commit_inbox_activity : (commit s t).inbox.activity = t.inbox.activity := rfl
@[simp] theorem commit_inbox_demands : (commit s t).inbox.demands = t.inbox.demands := rfl
@[simp] theorem commit_inbox_backReleases : (commit s t).inbox.backReleases = t.inbox.backReleases := rfl
@[simp] theorem commit_inbox_atR : (commit s t).inbox.atR = t.inbox.atR := rfl
@[simp] theorem commit_inbox_codes : (commit s t).inbox.codes = t.inbox.codes := rfl
@[simp] theorem commit_inbox_exchange : (commit s t).inbox.exchange = t.inbox.exchange := rfl
@[simp] theorem commit_inbox_readings : (commit s t).inbox.readings = t.inbox.readings := rfl

/-! ### One lever, circuit, section, port -/

@[simp] theorem commit_lever (n : Lever) : (commit s t).lever n = t.lever n := rfl
@[simp] theorem commit_circuit (c : Circuit) : (commit s t).circuit c = t.circuit c := rfl
@[simp] theorem commit_section (x : Sec) : (commit s t).section_ x = t.section_ x := rfl
@[simp] theorem commit_port (p : Sec) : (commit s t).port p = t.port p := rfl
@[simp] theorem State.setLever_circuit (n : Lever) (y : LeverData) (c : Circuit) : (s.setLever n y).circuit c = s.circuit c := rfl
@[simp] theorem State.setLever_section_ (n : Lever) (y : LeverData) (z : Sec) : (s.setLever n y).section_ z = s.section_ z := rfl
@[simp] theorem State.setLever_port (n : Lever) (y : LeverData) (q : Sec) : (s.setLever n y).port q = s.port q := rfl
@[simp] theorem State.setTrack_lever (y : TrackUnit) (m : Lever) : (s.setTrack y).lever m = s.lever m := rfl
@[simp] theorem State.setTrack_section_ (y : TrackUnit) (z : Sec) : (s.setTrack y).section_ z = s.section_ z := rfl
@[simp] theorem State.setTrack_port (y : TrackUnit) (q : Sec) : (s.setTrack y).port q = s.port q := rfl
@[simp] theorem State.setSection_lever (x : Sec) (y : SectionData) (m : Lever) : (s.setSection x y).lever m = s.lever m := rfl
@[simp] theorem State.setSection_circuit (x : Sec) (y : SectionData) (c : Circuit) : (s.setSection x y).circuit c = s.circuit c := rfl
@[simp] theorem State.setSection_port (x : Sec) (y : SectionData) (q : Sec) : (s.setSection x y).port q = s.port q := rfl
@[simp] theorem State.setPort_lever (p : Sec) (y : PortData) (m : Lever) : (s.setPort p y).lever m = s.lever m := rfl
@[simp] theorem State.setPort_circuit (p : Sec) (y : PortData) (c : Circuit) : (s.setPort p y).circuit c = s.circuit c := rfl
@[simp] theorem State.setPort_section_ (p : Sec) (y : PortData) (z : Sec) : (s.setPort p y).section_ z = s.section_ z := rfl
@[simp] theorem State.setService_lever (y : ServiceUnit) (m : Lever) : (s.setService y).lever m = s.lever m := rfl
@[simp] theorem State.setService_circuit (y : ServiceUnit) (c : Circuit) : (s.setService y).circuit c = s.circuit c := rfl
@[simp] theorem State.setService_section_ (y : ServiceUnit) (z : Sec) : (s.setService y).section_ z = s.section_ z := rfl
@[simp] theorem State.setService_port (y : ServiceUnit) (q : Sec) : (s.setService y).port q = s.port q := rfl
@[simp] theorem State.setLink_lever (y : Link) (m : Lever) : (s.setLink y).lever m = s.lever m := rfl
@[simp] theorem State.setLink_circuit (y : Link) (c : Circuit) : (s.setLink y).circuit c = s.circuit c := rfl
@[simp] theorem State.setLink_section_ (y : Link) (z : Sec) : (s.setLink y).section_ z = s.section_ z := rfl
@[simp] theorem State.setLink_port (y : Link) (q : Sec) : (s.setLink y).port q = s.port q := rfl
@[simp] theorem State.setInbox_lever (y : Inbox) (m : Lever) : (s.setInbox y).lever m = s.lever m := rfl
@[simp] theorem State.setInbox_circuit (y : Inbox) (c : Circuit) : (s.setInbox y).circuit c = s.circuit c := rfl
@[simp] theorem State.setInbox_section_ (y : Inbox) (z : Sec) : (s.setInbox y).section_ z = s.section_ z := rfl
@[simp] theorem State.setInbox_port (y : Inbox) (q : Sec) : (s.setInbox y).port q = s.port q := rfl
@[simp] theorem State.setDiagram_lever (y : Diagram) (m : Lever) : (s.setDiagram y).lever m = s.lever m := rfl
@[simp] theorem State.setDiagram_circuit (y : Diagram) (c : Circuit) : (s.setDiagram y).circuit c = s.circuit c := rfl
@[simp] theorem State.setDiagram_section_ (y : Diagram) (z : Sec) : (s.setDiagram y).section_ z = s.section_ z := rfl
@[simp] theorem State.setDiagram_port (y : Diagram) (q : Sec) : (s.setDiagram y).port q = s.port q := rfl
@[simp] theorem State.setRegister_lever (y : Register) (m : Lever) : (s.setRegister y).lever m = s.lever m := rfl
@[simp] theorem State.setRegister_circuit (y : Register) (c : Circuit) : (s.setRegister y).circuit c = s.circuit c := rfl
@[simp] theorem State.setRegister_section_ (y : Register) (z : Sec) : (s.setRegister y).section_ z = s.section_ z := rfl
@[simp] theorem State.setRegister_port (y : Register) (q : Sec) : (s.setRegister y).port q = s.port q := rfl
@[simp] theorem State.setContacts_lever (y : Contacts) (m : Lever) : (s.setContacts y).lever m = s.lever m := rfl
@[simp] theorem State.setContacts_circuit (y : Contacts) (c : Circuit) : (s.setContacts y).circuit c = s.circuit c := rfl
@[simp] theorem State.setContacts_section_ (y : Contacts) (z : Sec) : (s.setContacts y).section_ z = s.section_ z := rfl
@[simp] theorem State.setContacts_port (y : Contacts) (q : Sec) : (s.setContacts y).port q = s.port q := rfl
@[simp] theorem State.enter_lever (u : RegUnit) (e : RegBody) (m : Lever) : (s.enter u e).lever m = s.lever m := rfl
@[simp] theorem State.enter_circuit (u : RegUnit) (e : RegBody) (c : Circuit) : (s.enter u e).circuit c = s.circuit c := rfl
@[simp] theorem State.enter_section_ (u : RegUnit) (e : RegBody) (z : Sec) : (s.enter u e).section_ z = s.section_ z := rfl
@[simp] theorem State.enter_port (u : RegUnit) (e : RegBody) (q : Sec) : (s.enter u e).port q = s.port q := rfl
@[simp] theorem State.enterAll_lever (u : RegUnit) (es : List RegBody) (m : Lever) : (s.enterAll u es).lever m = s.lever m := rfl
@[simp] theorem State.enterAll_circuit (u : RegUnit) (es : List RegBody) (c : Circuit) : (s.enterAll u es).circuit c = s.circuit c := rfl
@[simp] theorem State.enterAll_section_ (u : RegUnit) (es : List RegBody) (z : Sec) : (s.enterAll u es).section_ z = s.section_ z := rfl
@[simp] theorem State.enterAll_port (u : RegUnit) (es : List RegBody) (q : Sec) : (s.enterAll u es).port q = s.port q := rfl

@[simp] theorem State.lever_setLever (n m : Lever) (y : LeverData) :
    (s.setLever n y).lever m = if m = n then y else s.lever m := by
  by_cases h : m = n
  · subst h
    simp [State.lever, State.setLever]
  · have h' : n.val ≠ m.val := fun e => h (Fin.ext e.symm)
    simp [State.lever, State.setLever, h, h']

theorem State.lever_setLever_same (n : Lever) (y : LeverData) : (s.setLever n y).lever n = y := by simp

theorem State.lever_setLever_ne {n m : Lever} (y : LeverData) (h : m ≠ n) : (s.setLever n y).lever m = s.lever m := by
  simp [h]

theorem PerSec.get_set {α : Type} (v : PerSec α) (x z : Sec) (y : α) :
    (v.set x y).get z = if z = x then y else v.get z := by
  cases x <;> cases z <;> rfl

@[simp] theorem State.section_setSection (x z : Sec) (y : SectionData) :
    (s.setSection x y).section_ z = if z = x then y else s.section_ z :=
  PerSec.get_set s.sections x z y

@[simp] theorem State.port_setPort (p q : Sec) (y : PortData) :
    (s.setPort p y).port q = if q = p then y else s.port q :=
  PerSec.get_set s.ports p q y

/-! ### report -/

@[simp] theorem State.report_pending (is : List Item) : (s.report is).pending = s.pending := rfl
@[simp] theorem State.report_now (is : List Item) : (s.report is).now = s.now := rfl
@[simp] theorem State.report_resetHeld (is : List Item) : (s.report is).resetHeld = s.resetHeld := rfl
@[simp] theorem State.report_strap (is : List Item) : (s.report is).strap = s.strap := rfl
@[simp] theorem State.report_contacts (is : List Item) : (s.report is).contacts = s.contacts := rfl
@[simp] theorem State.report_levers (is : List Item) : (s.report is).levers = s.levers := rfl
@[simp] theorem State.report_locking (is : List Item) : (s.report is).locking = s.locking := rfl
@[simp] theorem State.report_track (is : List Item) : (s.report is).track = s.track := rfl
@[simp] theorem State.report_ports (is : List Item) : (s.report is).ports = s.ports := rfl
@[simp] theorem State.report_codes (is : List Item) : (s.report is).codes = s.codes := rfl
@[simp] theorem State.report_sections (is : List Item) : (s.report is).sections = s.sections := rfl
@[simp] theorem State.report_lastTrain (is : List Item) : (s.report is).lastTrain = s.lastTrain := rfl
@[simp] theorem State.report_service (is : List Item) : (s.report is).service = s.service := rfl
@[simp] theorem State.report_times (is : List Item) : (s.report is).times = s.times := rfl
@[simp] theorem State.report_timesLoaded (is : List Item) : (s.report is).timesLoaded = s.timesLoaded := rfl
@[simp] theorem State.report_register (is : List Item) : (s.report is).register = s.register := rfl
@[simp] theorem State.report_diagram (is : List Item) : (s.report is).diagram = s.diagram := rfl
@[simp] theorem State.report_inbox (is : List Item) : (s.report is).inbox = s.inbox := rfl
@[simp] theorem State.report_link (is : List Item) :
    (s.report is).link = { s.link with reports := addItems s.link.classes s.link.reports is } := rfl

/-! ### What a unit has taken -/

@[simp] theorem State.setLever_lockTrack (n : Lever) (y : LeverData) (c : Circuit) : (s.setLever n y).lockTrack c = s.lockTrack c := rfl
@[simp] theorem State.setLever_lockSec (n : Lever) (y : LeverData) (x : Sec) : (s.setLever n y).lockSec x = s.lockSec x := rfl
@[simp] theorem State.setLever_blockTrack (n : Lever) (y : LeverData) (x : Sec) (c : Circuit) :
    (s.setLever n y).blockTrack x c = s.blockTrack x c := rfl
@[simp] theorem State.setSection_lockTrack (z : Sec) (y : SectionData) (c : Circuit) : (s.setSection z y).lockTrack c = s.lockTrack c := rfl
@[simp] theorem State.setSection_blockTrack (z : Sec) (y : SectionData) (x : Sec) (c : Circuit) :
    (s.setSection z y).blockTrack x c = s.blockTrack x c := rfl
@[simp] theorem State.setPort_lockTrack (z : Sec) (y : PortData) (c : Circuit) : (s.setPort z y).lockTrack c = s.lockTrack c := rfl
@[simp] theorem State.setPort_lockSec (z : Sec) (y : PortData) (x : Sec) : (s.setPort z y).lockSec x = s.lockSec x := rfl
@[simp] theorem State.setPort_blockTrack (z : Sec) (y : PortData) (x : Sec) (c : Circuit) :
    (s.setPort z y).blockTrack x c = s.blockTrack x c := rfl
@[simp] theorem State.setService_lockTrack (y : ServiceUnit) (c : Circuit) : (s.setService y).lockTrack c = s.lockTrack c := rfl
@[simp] theorem State.setService_lockSec (y : ServiceUnit) (x : Sec) : (s.setService y).lockSec x = s.lockSec x := rfl
@[simp] theorem State.setService_blockTrack (y : ServiceUnit) (x : Sec) (c : Circuit) :
    (s.setService y).blockTrack x c = s.blockTrack x c := rfl
@[simp] theorem State.setLink_lockTrack (y : Link) (c : Circuit) : (s.setLink y).lockTrack c = s.lockTrack c := rfl
@[simp] theorem State.setLink_lockSec (y : Link) (x : Sec) : (s.setLink y).lockSec x = s.lockSec x := rfl
@[simp] theorem State.setLink_blockTrack (y : Link) (x : Sec) (c : Circuit) :
    (s.setLink y).blockTrack x c = s.blockTrack x c := rfl
@[simp] theorem State.setDiagram_lockTrack (y : Diagram) (c : Circuit) : (s.setDiagram y).lockTrack c = s.lockTrack c := rfl
@[simp] theorem State.setDiagram_lockSec (y : Diagram) (x : Sec) : (s.setDiagram y).lockSec x = s.lockSec x := rfl
@[simp] theorem State.setDiagram_blockTrack (y : Diagram) (x : Sec) (c : Circuit) :
    (s.setDiagram y).blockTrack x c = s.blockTrack x c := rfl
@[simp] theorem State.setRegister_lockTrack (y : Register) (c : Circuit) : (s.setRegister y).lockTrack c = s.lockTrack c := rfl
@[simp] theorem State.setRegister_lockSec (y : Register) (x : Sec) : (s.setRegister y).lockSec x = s.lockSec x := rfl
@[simp] theorem State.setRegister_blockTrack (y : Register) (x : Sec) (c : Circuit) :
    (s.setRegister y).blockTrack x c = s.blockTrack x c := rfl
@[simp] theorem State.setContacts_lockTrack (y : Contacts) (c : Circuit) : (s.setContacts y).lockTrack c = s.lockTrack c := rfl
@[simp] theorem State.setContacts_lockSec (y : Contacts) (x : Sec) : (s.setContacts y).lockSec x = s.lockSec x := rfl
@[simp] theorem State.setContacts_blockTrack (y : Contacts) (x : Sec) (c : Circuit) :
    (s.setContacts y).blockTrack x c = s.blockTrack x c := rfl
@[simp] theorem State.setTrack_lockSec (y : TrackUnit) (x : Sec) : (s.setTrack y).lockSec x = s.lockSec x := rfl
@[simp] theorem State.enter_lockTrack (u : RegUnit) (e : RegBody) (c : Circuit) : (s.enter u e).lockTrack c = s.lockTrack c := rfl
@[simp] theorem State.enter_lockSec (u : RegUnit) (e : RegBody) (x : Sec) : (s.enter u e).lockSec x = s.lockSec x := rfl
@[simp] theorem State.enter_blockTrack (u : RegUnit) (e : RegBody) (x : Sec) (c : Circuit) :
    (s.enter u e).blockTrack x c = s.blockTrack x c := rfl
@[simp] theorem State.enterAll_lockTrack (u : RegUnit) (es : List RegBody) (c : Circuit) : (s.enterAll u es).lockTrack c = s.lockTrack c := rfl
@[simp] theorem State.enterAll_lockSec (u : RegUnit) (es : List RegBody) (x : Sec) : (s.enterAll u es).lockSec x = s.lockSec x := rfl
@[simp] theorem State.enterAll_blockTrack (u : RegUnit) (es : List RegBody) (x : Sec) (c : Circuit) :
    (s.enterAll u es).blockTrack x c = s.blockTrack x c := rfl
@[simp] theorem State.report_lockTrack (is : List Item) (c : Circuit) : (s.report is).lockTrack c = s.lockTrack c := rfl
@[simp] theorem State.report_lockSec (is : List Item) (x : Sec) : (s.report is).lockSec x = s.lockSec x := rfl
@[simp] theorem State.report_blockTrack (is : List Item) (x : Sec) (c : Circuit) :
    (s.report is).blockTrack x c = s.blockTrack x c := rfl

end Sys2Proof.Machine
end

