-- ==== Sys2Proof/Laws/Ops.lean ====
section
/-! SUPPORT. For each shared operation, what it can do: taking what has been handed on, the end of a step, the steps of the
levers and the sections, completion of a code, answering a line, and the words a request is read from. -/

namespace Sys2Proof.Machine

/-! ### Taking the first of a list -/

theorem takeFirst_find {α : Type} (p : α → Bool) (ys : List α) : (takeFirst p ys).map (·.1) = ys.find? p := by
  induction ys with
  | nil => rfl
  | cons y ys ih =>
    unfold takeFirst
    by_cases h : p y
    · simp [h]
    · simp only [h, List.find?_cons_of_neg (by simpa using h), ← ih]
      cases takeFirst p ys <;> simp

theorem takeFirst_none {α : Type} {p : α → Bool} {ys : List α} : takeFirst p ys = none ↔ ys.find? p = none := by
  rw [← takeFirst_find]
  simp

theorem takeFirst_some {α : Type} {p : α → Bool} {ys zs : List α} {z : α} (h : takeFirst p ys = some (z, zs)) :
    ∃ as bs, ys = as ++ z :: bs ∧ zs = as ++ bs ∧ p z = true ∧ ∀ a ∈ as, p a = false := by
  induction ys generalizing zs with
  | nil => cases h
  | cons y ys ih =>
    unfold takeFirst at h
    by_cases hp : p y
    · simp only [hp, if_true, Option.some.injEq, Prod.mk.injEq] at h
      obtain ⟨rfl, rfl⟩ := h
      exact ⟨[], ys, rfl, rfl, hp, by simp⟩
    · simp only [hp] at h
      cases ht : takeFirst p ys with
      | none => simp [ht] at h
      | some e =>
        obtain ⟨w, ws⟩ := e
        simp only [ht, Bool.false_eq_true, if_false, Option.some.injEq, Prod.mk.injEq] at h
        obtain ⟨rfl, rfl⟩ := h
        obtain ⟨as, bs, h₁, h₂, h₃, h₄⟩ := ih ht
        refine ⟨y :: as, bs, by simp [h₁], by simp [h₂], h₃, ?_⟩
        intro a ha
        rcases List.mem_cons.1 ha with rfl | ha
        · simpa using hp
        · exact h₄ a ha

theorem takeFirst_of_find {α : Type} {p : α → Bool} {ys : List α} {z : α} (h : ys.find? p = some z) :
    ∃ zs, takeFirst p ys = some (z, zs) := by
  have := takeFirst_find p ys
  rw [h] at this
  cases ht : takeFirst p ys with
  | none => simp [ht] at this
  | some e =>
    obtain ⟨w, ws⟩ := e
    simp [ht] at this
    exact ⟨ws, by rw [this]⟩

/-- Taking one value of a list that holds it. -/
theorem takeFirst_of_mem {α : Type} [DecidableEq α] {z : α} {ys : List α} (h : z ∈ ys) :
    ∃ zs, takeFirst (fun y => decide (y = z)) ys = some (z, zs) := by
  cases hf : ys.find? (fun y => decide (y = z)) with
  | none => simpa using List.find?_eq_none.1 hf z h
  | some w =>
    have : w = z := by simpa using List.find?_some hf
    subst this
    exact takeFirst_of_find hf

/-! ### Lists without repeats -/

theorem mem_addOnce {α : Type} [DecidableEq α] (x y : α) (ys : List α) : x ∈ addOnce y ys ↔ x ∈ ys ∨ x = y := by
  unfold addOnce
  split
  · constructor
    · exact .inl
    · rintro (h | rfl) <;> assumption
  · simp

theorem prefix_addOnce {α : Type} [DecidableEq α] (y : α) (ys : List α) : ys <+: addOnce y ys := by
  unfold addOnce
  split
  · exact List.prefix_rfl
  · exact List.prefix_append _ _

theorem nodup_addOnce {α : Type} [DecidableEq α] {y : α} {ys : List α} (h : ys.Nodup) : (addOnce y ys).Nodup := by
  unfold addOnce
  split
  · exact h
  · rename_i hy
    rw [List.nodup_append]
    refine ⟨h, by simp, ?_⟩
    intro a ha b hb hab
    rw [List.mem_singleton.1 hb] at hab
    exact hy (hab ▸ ha)

theorem prefix_addItems (k : Classes) (set is : List Item) : set <+: addItems k set is := by
  induction is generalizing set with
  | nil => exact List.prefix_rfl
  | cons i is ih =>
    unfold addItems
    refine List.IsPrefix.trans ?_ (ih _)
    split
    · exact prefix_addOnce _ _
    · exact List.prefix_rfl

theorem mem_addItems (k : Classes) (set is : List Item) (i : Item) :
    i ∈ addItems k set is ↔ i ∈ set ∨ (i ∈ is ∧ k.has i = true) := by
  induction is generalizing set with
  | nil => simp [addItems]
  | cons j is ih =>
    unfold addItems
    rw [ih]
    split
    · rename_i h
      rw [mem_addOnce]
      constructor
      · rintro ((h' | rfl) | ⟨h', h''⟩)
        · exact .inl h'
        · exact .inr ⟨by simp, h⟩
        · exact .inr ⟨by simp [h'], h''⟩
      · rintro (h' | ⟨h', h''⟩)
        · exact .inl (.inl h')
        · rcases List.mem_cons.1 h' with rfl | h'
          · exact .inl (.inr rfl)
          · exact .inr ⟨h', h''⟩
    · rename_i h
      constructor
      · rintro (h' | ⟨h', h''⟩)
        · exact .inl h'
        · exact .inr ⟨by simp [h'], h''⟩
      · rintro (h' | ⟨h', h''⟩)
        · exact .inl h'
        · rcases List.mem_cons.1 h' with rfl | h'
          · exact absurd h'' h
          · exact .inr ⟨h', h''⟩

theorem nodup_addItems (k : Classes) {set : List Item} (is : List Item) (h : set.Nodup) : (addItems k set is).Nodup := by
  induction is generalizing set with
  | nil => exact h
  | cons i is ih =>
    unfold addItems
    apply ih
    split
    · exact nodup_addOnce h
    · exact h

/-! ### The end of a step -/

section
variable (s t : State)

theorem commit_changes : (commit s t).inbox.changes = t.inbox.changes ++ changesFor s t := rfl
theorem commit_autoTol : (commit s t).inbox.autoTol = t.inbox.autoTol ++ autoTolFor s t := rfl
theorem commit_progress : (commit s t).inbox.progress = t.inbox.progress ++ progressFor s t := rfl
theorem commit_entries : (commit s t).inbox.entries =
    t.inbox.entries ++ (disagreeFor s t).map (.block, ·) ++ (boxDisagreeFor s t).map (.service, ·) := rfl
theorem commit_serviceChanges : (commit s t).inbox.service = t.inbox.service ++
    (if s.service.state = t.service.state then [] else [(s.service.state, t.service.state)]) := rfl
theorem commit_reports : (commit s t).link.reports = addItems t.link.classes t.link.reports (itemsFor s t) := rfl

theorem commit_latches (p : Sec) : (commit s t).diagram.latches.get p = latchAfter s t p := by
  cases p <;> rfl

/-- A step that changes no section, box switch or service state makes no DISAGREE entry. -/
theorem commit_entries_of_sections (hs : s.sections = t.sections) (hv : s.service = t.service) :
    (commit s t).inbox.entries = t.inbox.entries := by
  rw [commit_entries]
  have h₁ : disagreeFor s t = [] := by
    simp [disagreeFor, State.section_, hs]
  have h₂ : boxDisagreeFor s t = [] := by
    simp [boxDisagreeFor, hv]
  simp [h₁, h₂]

end

/-! ### What a unit has taken (R36, R75) -/

/-- The first value a list of kept elements gives, where only one element can give it. -/
theorem findSome_of_only {α β : Type} [DecidableEq α] {f : α → Option β} {a : α} {ys : List α} (h : ∀ y ∈ ys, y ≠ a → f y = none) :
    ys.findSome? f = if a ∈ ys then f a else none := by
  induction ys with
  | nil => rfl
  | cons y ys ih =>
    have ih := ih fun z hz => h z (List.mem_cons_of_mem _ hz)
    by_cases hy : y = a
    · subst hy
      rw [List.findSome?_cons, ih]
      cases f y <;> simp
    · rw [List.findSome?_cons, h y (List.mem_cons_self ..) hy, ih]
      simp [Ne.symm hy]

@[simp] theorem findSome_none {α β : Type} (ys : List α) : ys.findSome? (fun _ => (none : Option β)) = none := by
  simp [List.findSome?_eq_none_iff]

@[simp] theorem trackWas_track (c : Circuit) (was : TrackState) : (Change.track c was).trackWas c = some was := by
  simp [Change.trackWas]

@[simp] theorem secWas_sec (x : Sec) (was : SecState) : (Change.sec x was).secWas x = some was := by
  simp [Change.secWas]

/-- Of a circuit a step hands the Locking unit its state before the step, if the step changed it. -/
theorem changesFor_trackWas (s t : State) (c : Circuit) : (changesFor s t).findSome? (·.trackWas c) =
    if (s.circuit c).state ≠ (t.circuit c).state then some (s.circuit c).state else none := by
  have h := findSome_of_only (f := fun d => (Change.track d (s.circuit d).state).trackWas c) (a := c)
    (ys := changedCircuits s t) fun d _ hd => by simp [Change.trackWas, hd]
  have hm : c ∈ changedCircuits s t ↔ (s.circuit c).state ≠ (t.circuit c).state := by
    simp [changedCircuits, allCircuits]
  unfold changesFor
  simp only [List.findSome?_append, List.findSome?_map, Function.comp_def, h, hm, trackWas_track]
  simp [Change.trackWas]

/-- Of a section likewise. -/
theorem changesFor_secWas (s t : State) (x : Sec) : (changesFor s t).findSome? (·.secWas x) =
    if (s.section_ x).state ≠ (t.section_ x).state then some (s.section_ x).state else none := by
  have h := findSome_of_only (f := fun y => (Change.sec y (s.section_ y).state).secWas x) (a := x)
    (ys := changedSections s t) fun d _ hd => by simp [Change.secWas, hd]
  have hm : x ∈ changedSections s t ↔ (s.section_ x).state ≠ (t.section_ x).state := by
    cases x <;> simp [changedSections, allSections]
  unfold changesFor
  simp only [List.findSome?_append, List.findSome?_map, Function.comp_def, h, hm, secWas_sec]
  simp [Change.secWas]

/-- The end of a step that takes no change leaves what the Locking unit holds as it was. -/
theorem commit_lockTrack {s t : State} (h : t.inbox.changes = s.inbox.changes) (c : Circuit) :
    (commit s t).lockTrack c = s.lockTrack c := by
  unfold State.lockTrack
  rw [commit_changes, List.findSome?_append, changesFor_trackWas, h]
  show (_ : Option TrackState).getD (t.circuit c).state = _
  cases s.inbox.changes.findSome? (·.trackWas c) with
  | some _ => rfl
  | none =>
    by_cases hc : (s.circuit c).state = (t.circuit c).state <;> simp [hc]

theorem commit_lockSec {s t : State} (h : t.inbox.changes = s.inbox.changes) (x : Sec) :
    (commit s t).lockSec x = s.lockSec x := by
  unfold State.lockSec
  rw [commit_changes, List.findSome?_append, changesFor_secWas, h]
  show (_ : Option SecState).getD (t.section_ x).state = _
  cases s.inbox.changes.findSome? (·.secWas x) with
  | some _ => rfl
  | none =>
    by_cases hc : (s.section_ x).state = (t.section_ x).state <;> simp [hc]

/-- Of a track of its record a step hands section `x` its state before the step, if the step changed it. -/
theorem progressFor_trackWas (s t : State) (x : Sec) (c : Circuit)
    (hc : c ∈ (t.section_ x).arrivals ∨ c ∈ (t.section_ x).clearings) :
    (progressFor s t).findSome? (·.trackWas x c) =
      if (s.circuit c).state ≠ (t.circuit c).state then some (s.circuit c).state else none := by
  have hm : c ∈ changedCircuits s t ↔ (s.circuit c).state ≠ (t.circuit c).state := by
    simp [changedCircuits, allCircuits]
  have h : ∀ y, (progressOf s t y).findSome? (·.trackWas x c) =
      if y = x ∧ (s.circuit c).state ≠ (t.circuit c).state then some (s.circuit c).state else none := by
    intro y
    unfold progressOf
    rw [List.findSome?_map, Function.comp_def,
      findSome_of_only (a := c) fun d _ hd => by simp [TrackHanded.trackWas, hd]]
    by_cases hy : y = x
    · subst hy
      simp [TrackHanded.trackWas, hm, hc]
    · simp [TrackHanded.trackWas, hy]
  unfold progressFor
  simp only [List.findSome?_append, h]
  cases x <;> by_cases hc : (s.circuit c).state = (t.circuit c).state <;> simp [hc]

/-- The end of a step that takes no track's change leaves what a section holds of the tracks of its record as it was. -/
theorem commit_blockTrack {s t : State} (h : t.inbox.progress = s.inbox.progress) (x : Sec) (c : Circuit)
    (hc : c ∈ (t.section_ x).arrivals ∨ c ∈ (t.section_ x).clearings) :
    (commit s t).blockTrack x c = s.blockTrack x c := by
  unfold State.blockTrack
  rw [commit_progress, List.findSome?_append, progressFor_trackWas s t x c hc, h]
  show (_ : Option TrackState).getD (t.circuit c).state = _
  cases s.inbox.progress.findSome? (·.trackWas x c) with
  | some _ => rfl
  | none =>
    by_cases hc : (s.circuit c).state = (t.circuit c).state <;> simp [hc]

/-- Items reported are those of before and, of the changed ones, those whose class is on. -/
theorem mem_report (s : State) (is : List Item) (i : Item) :
    i ∈ (s.report is).link.reports ↔ i ∈ s.link.reports ∨ (i ∈ is ∧ s.link.classes.has i = true) :=
  mem_addItems _ _ _ _

/-! ### The requests of a frame start, each with its hand-offs -/

/-- What `handEach` keeps: whatever the laying of circuits and the end of a step keep. -/
theorem handEach_keeps (P : State → Prop) (hc : ∀ (s : State) (w : StartWork), P s → P (commit s (s.withCircuits w)))
    (w : StartWork) (os : List TrackOp) {s : State} (h : P s) : P (handEach w os s) := by
  induction os generalizing w s with
  | nil => exact h
  | cons o os ih => exact ih _ (hc _ _ h)

/-- The levers, sections, ports and the service state are as they were. -/
theorem handEach_others (w : StartWork) (os : List TrackOp) (s : State) :
    (handEach w os s).levers = s.levers ∧ (handEach w os s).sections = s.sections ∧ (handEach w os s).ports = s.ports ∧
      (handEach w os s).service = s.service :=
  handEach_keeps (fun t => t.levers = s.levers ∧ t.sections = s.sections ∧ t.ports = s.ports ∧ t.service = s.service)
    (fun _ _ h => h) w os ⟨rfl, rfl, rfl, rfl⟩

/-- What is handed on is only added to. -/
theorem handEach_changes (w : StartWork) (os : List TrackOp) (s : State) :
    s.inbox.changes <+: (handEach w os s).inbox.changes ∧ s.link.reports <+: (handEach w os s).link.reports :=
  handEach_keeps (fun t => s.inbox.changes <+: t.inbox.changes ∧ s.link.reports <+: t.link.reports)
    (fun t u h => ⟨h.1.trans (by rw [commit_changes]; exact List.prefix_append _ _),
      h.2.trans (by rw [commit_reports]; exact prefix_addItems _ _ _)⟩) w os ⟨List.prefix_rfl, List.prefix_rfl⟩

/-- What the Locking unit holds of a circuit is as it was: each change waits. -/
theorem handEach_lockTrack (w : StartWork) (os : List TrackOp) (s : State) (c : Circuit) :
    (handEach w os s).lockTrack c = s.lockTrack c :=
  handEach_keeps (fun t => t.lockTrack c = s.lockTrack c) (fun t u h => (commit_lockTrack (s := t) (t := t.withCircuits u) rfl c).trans h) w os rfl

/-- After the last request the circuits are those of all of them applied. -/
theorem handEach_circuits (w : StartWork) (os : List TrackOp) (s : State) (h : s.track.circuits = w.circuits) :
    (handEach w os s).track.circuits = (w.applyAll os).circuits := by
  induction os generalizing w s with
  | nil => exact h
  | cons o os ih => exact ih _ _ rfl

/-! ### Marking a code, and the positions of first readings -/

@[simp] theorem setMark_section (s : State) (x : Sec) (k : SectionData) (m : Option Mark) :
    (s.setMark x k m).section_ x = k := by
  cases x <;> rfl

theorem mem_setMark_reports (s : State) (x : Sec) (k : SectionData) (m : Mark) (h : s.link.classes.sec = true) :
    .sec x ∈ (s.setMark x k (some m)).link.reports := by
  refine (mem_report _ _ _).2 (.inr ⟨by simp, ?_⟩)
  cases x <;> exact h

/-- Of a section a scan sets only the position, and only at the scan that completes the first readings of its switch. -/
theorem takePosition_cases (a b : SwitchContacts) (k : SectionData) : takePosition a b k = k ∨
    a.known = false ∧ b.known = true ∧
      takePosition a b k = { k with position := positionOfContacts b.lc.made b.tol.made } := by
  unfold takePosition
  cases a.known <;> cases b.known <;> simp

/-! ### The step of a lever -/

theorem takeLeverEvent_of_waits {s : State} {n : Lever} {e : LeverEvent} (h : s.leverWaits n e) :
    ∃ rest, takeFirst (fun w => decide (w.1 = n)) s.inbox.frame = some ((n, e), rest) ∧
      takeLeverEvent n e s = some (s.setInbox { s.inbox with frame := rest }) := by
  obtain ⟨rest, hr⟩ := takeFirst_of_find h
  exact ⟨rest, hr, by simp [takeLeverEvent, hr]⟩

theorem leverStep_of_waits {s : State} {n : Lever} {e : LeverEvent} (f : State → State) (h : s.leverWaits n e)
    (hv : s.service.state ≠ .powerUp) :
    ∃ rest, leverStep n e f s = f (s.setInbox { s.inbox with frame := rest }) := by
  obtain ⟨rest, -, ht⟩ := takeLeverEvent_of_waits h
  exact ⟨rest, by simp [leverStep, ht, State.isIn, hv]⟩

/-- What the step of a lever can be: nothing, the event taken, or the event taken and the lever's own part. -/
theorem leverStep_cases (n : Lever) (e : LeverEvent) (f : State → State) (s : State) :
    leverStep n e f s = s ∨ ∃ rest, leverStep n e f s = s.setInbox { s.inbox with frame := rest } ∨
      leverStep n e f s = f (s.setInbox { s.inbox with frame := rest }) := by
  unfold leverStep
  cases h : takeLeverEvent n e s with
  | none => exact .inl rfl
  | some s' =>
    right
    have : ∃ rest, s' = s.setInbox { s.inbox with frame := rest } := by
      unfold takeLeverEvent at h
      split at h
      · split at h
        · exact ⟨_, (Option.some.inj h).symm⟩
        · cases h
      · cases h
    obtain ⟨rest, rfl⟩ := this
    refine ⟨rest, ?_⟩
    dsimp only
    split
    · exact .inl rfl
    · exact .inr rfl

/-! ### Sections -/

@[simp] theorem enterSec_section (x : Sec) (st : SecState) (train : Option Train) (o : TrainEnd) (auto : Bool) (s : State) :
    (enterSec x st train o auto s).section_ x = (s.section_ x).enter st train := by
  cases x <;> rfl

theorem enterSec_section_ne {x z : Sec} (h : z ≠ x) (st : SecState) (train : Option Train) (o : TrainEnd) (auto : Bool)
    (s : State) : (enterSec x st train o auto s).section_ z = s.section_ z := by
  cases x <;> cases z <;> first | rfl | exact absurd rfl h

theorem enterSec_entries (x : Sec) (st : SecState) (train : Option Train) (o : TrainEnd) (auto : Bool) (s : State) :
    (enterSec x st train o auto s).inbox.entries = s.inbox.entries ++
      (sectionEntries x (s.section_ x) ((s.section_ x).enter st train) o auto).map (.block, ·) := rfl

@[simp] theorem enterSec_lever (x : Sec) (st : SecState) (train : Option Train) (o : TrainEnd) (auto : Bool) (s : State)
    (n : Lever) : (enterSec x st train o auto s).lever n = s.lever n := rfl
@[simp] theorem enterSec_circuit (x : Sec) (st : SecState) (train : Option Train) (o : TrainEnd) (auto : Bool) (s : State)
    (c : Circuit) : (enterSec x st train o auto s).circuit c = s.circuit c := rfl
@[simp] theorem enterSec_port (x : Sec) (st : SecState) (train : Option Train) (o : TrainEnd) (auto : Bool) (s : State)
    (p : Sec) : (enterSec x st train o auto s).port p = s.port p := rfl
@[simp] theorem enterSec_service (x : Sec) (st : SecState) (train : Option Train) (o : TrainEnd) (auto : Bool) (s : State) :
    (enterSec x st train o auto s).service = s.service := rfl

/-- The progress check changes a section's train record only, and only a record of ENTERED_IN. -/
theorem progressCheck_section (x : Sec) (s : State) : ∃ r, (progressCheck x s).section_ x = { s.section_ x with train := r } ∧
    (r.isSome = (s.section_ x).train.isSome) := by
  unfold progressCheck
  dsimp only
  split
  · rename_i h
    exact ⟨none, by rw [← h], by simp [h]⟩
  · rename_i r h
    split
    · exact ⟨some (r.progressed s.clear (s.section_ x).arrivals), by cases x <;> rfl, by simp [h]⟩
    · exact ⟨some r, by rw [← h], by simp [h]⟩

theorem progressCheck_section_ne {x z : Sec} (h : z ≠ x) (s : State) : (progressCheck x s).section_ z = s.section_ z := by
  unfold progressCheck
  dsimp only
  split
  · rfl
  · split
    · cases x <;> cases z <;> first | rfl | exact absurd rfl h
    · rfl

theorem occupiedRun_le (clear : Circuit → Bool) (cs : List Circuit) : occupiedRun clear cs ≤ cs.length := by
  induction cs with
  | nil => exact Nat.le_refl _
  | cons c cs ih =>
    unfold occupiedRun
    split
    · exact Nat.zero_le _
    · simpa using ih

/-! ### Codes -/

@[simp] theorem completeCode_port (p : Sec) (c : Code) (s : State) : (completeCode p c s).port p =
    { s.port p with
      owner := .free
      code := none
      sent := if c.dir = .outgoing then some (s.recordOf c) else (s.port p).sent
      rcvd := if c.dir = .outgoing then (s.port p).rcvd else some (s.recordOf c) } := by
  cases p <;> rfl

theorem completeCode_port_ne {p q : Sec} (h : q ≠ p) (c : Code) (s : State) : (completeCode p c s).port q = s.port q := by
  cases p <;> cases q <;> first | rfl | exact absurd rfl h

@[simp] theorem completeCode_codes (p : Sec) (c : Code) (s : State) : (completeCode p c s).inbox.codes =
    s.inbox.codes ++ [⟨p, c.dir, s.recordOf c, c.unrepeated⟩] := rfl

@[simp] theorem completeCode_exchange (p : Sec) (c : Code) (s : State) : (completeCode p c s).inbox.exchange =
    s.inbox.exchange ++ [⟨p, c.dir, s.recordOf c, c.unrepeated⟩] := rfl

@[simp] theorem completeCode_entries (p : Sec) (c : Code) (s : State) : (completeCode p c s).inbox.entries =
    s.inbox.entries ++ [(.bell, .bell p c.dir c.groups (classify s.codes c))] := rfl

/-! ### Answering a line -/

theorem reply_replies (ws : List Text) (s : State) : repliesWith ws s (reply ws s) :=
  ⟨rfl, rfl, rfl, rfl, rfl⟩

/-- The end of a step leaves the answer of a line as it was. -/
theorem repliesWith_commit {ws : List Text} {s t u : State} (h : repliesWith ws s t) : repliesWith ws s (commit u t) := h

theorem requestStep_of_asks {s : State} {row : Instr} {ws : List Text} (h : s.asks row ws) (accept : ServiceState → Bool)
    (f : Handler) : requestStep row accept f s =
      if accept s.service.state then handle f ws s else reply Err.state.words s := by
  simp only [State.asks] at h
  simp [requestStep, h]

/-- What the step of a request can be: nothing, or the handling or refusal of the line it asks. -/
theorem requestStep_cases (row : Instr) (accept : ServiceState → Bool) (f : Handler) (s : State) :
    requestStep row accept f s = s ∨ ∃ ws, s.asks row ws ∧
      requestStep row accept f s = if accept s.service.state then handle f ws s else reply Err.state.words s := by
  unfold requestStep
  split
  · rename_i i ws h
    split
    · rename_i hi
      subst hi
      exact .inr ⟨ws, h, rfl⟩
    · exact .inl rfl
  · exact .inl rfl

theorem handle_ok {f : Handler} {ws : List Text} {s t : State} {r : List Text} (h : f ws s = .ok (t, r)) :
    handle f ws s = reply (success r) t := by
  simp [handle, h]

theorem handle_error {f : Handler} {ws : List Text} {s : State} {e : Err} (h : f ws s = .error e) :
    handle f ws s = reply e.words s := by
  simp [handle, h]

/-- A handler that only answers leaves the state to its reply. -/
theorem answering_handle (f : List Text → State → Parsed (List Text)) (ws : List Text) (s : State) :
    ∃ r, handle (answering f) ws s = reply r s := by
  unfold handle answering
  cases f ws s with
  | ok r => exact ⟨success r, rfl⟩
  | error e => exact ⟨e.words, rfl⟩

theorem cutWords_short {ws : List Text} {k : Nat} (h : (joinWords ws).length ≤ k) : cutWords ws k = (joinWords ws, []) := by
  simp [cutWords, h]

/-- An accepted START: the reply and the entry decisions. -/
theorem start_accepted {s : State} {w : Text} (hs : s.service.state = .configure) (ha : s.asks .start [W.START, w])
    (hv : hex? 8 w = some (crc32 (digestText s.storedItems)).toNat) (hc : s.configError = none) :
    exec .start s = .next
      (clearChangesAtStart s (commit s (reply (success [W.START, s.digestWord]) (enterService s)))) := by
  have hd : readDigest [W.START, w] = .ok (crc32 (digestText s.storedItems)).toNat := by
    show (match hex? 8 w with
      | none => (.error (.form (some 2)) : Parsed Nat)
      | some v => do
        only [W.START, w] 2
        return v) = _
    rw [hv]
    rfl
  have hh : handleStart [W.START, w] s = .ok (enterService s, [W.START, s.digestWord]) := by
    unfold handleStart
    rw [hd]
    show (match s.configError with
      | some why => (.error (.start why) : Parsed (State × List Text))
      | none => _) = _
    rw [hc]
    simp
    rfl
  show Host.Outcome.next _ = _
  rw [requestStep_of_asks ha, handle_ok hh, hs]
  rfl

theorem crc32From_append (c : BitVec 32) (xs ys : Text) : crc32From c (xs ++ ys) = crc32From (crc32From c xs) ys := by
  induction xs generalizing c with
  | nil => rfl
  | cons x xs ih => exact ih _

/-! ### Maps by cell -/

@[simp] theorem mapGet_mapSet {α : Type} (m : List (Cell × α)) (c : Cell) (v : α) : mapGet (mapSet m c v) c = some v := by
  induction m with
  | nil => simp [mapSet, mapGet]
  | cons e m ih =>
    obtain ⟨d, y⟩ := e
    unfold mapSet
    split
    · simp [mapGet]
    · split
      · simp [mapGet]
      · rename_i h
        simp [mapGet, Ne.symm h, ih]

theorem mapGet_mapSet_ne {α : Type} (m : List (Cell × α)) {c d : Cell} (h : d ≠ c) (v : α) :
    mapGet (mapSet m c v) d = mapGet m d := by
  induction m with
  | nil => simp [mapSet, mapGet, Ne.symm h]
  | cons e m ih =>
    obtain ⟨b, y⟩ := e
    unfold mapSet
    split
    · simp [mapGet, Ne.symm h]
    · split
      · rename_i hb
        subst hb
        simp [mapGet, Ne.symm h]
      · simp only [mapGet, ih]

/-! ### Words and numbers -/

theorem digitValue_digitChar {d : Nat} (h : d < 10) : digitValue? d.digitChar = some d := by
  interval_cases d <;> rfl

theorem decimalFrom_append (acc : Nat) (xs ys : Text) :
    decimalFrom acc (xs ++ ys) = (decimalFrom acc xs).bind fun k => decimalFrom k ys := by
  induction xs generalizing acc with
  | nil => rfl
  | cons x xs ih =>
    simp only [List.cons_append, decimalFrom]
    cases digitValue? x <;> simp [ih]

theorem digits_lt {n : Nat} (h : n < 10) : digits n = [n.digitChar] := by
  interval_cases n <;> rfl

theorem digits_step {n : Nat} (h : 10 ≤ n) : digits n = digits (n / 10) ++ [(n % 10).digitChar] :=
  Nat.toDigits_of_base_le (by decide) h

/-- A number written is read back. -/
theorem decimalFrom_digits (n : Nat) : decimalFrom 0 (digits n) = some n := by
  induction n using Nat.strong_induction_on with
  | _ n ih =>
    by_cases h : n < 10
    · rw [digits_lt h]
      simp [decimalFrom, digitValue_digitChar h]
    · rw [digits_step (by omega), decimalFrom_append, ih (n / 10) (by omega)]
      simp only [Option.bind_some, decimalFrom, digitValue_digitChar (Nat.mod_lt n (by decide))]
      congr 1
      omega

theorem digits_ne_nil (n : Nat) : digits n ≠ [] := by
  intro h
  have := decimalFrom_digits n
  by_cases hn : n < 10
  · simp [digits_lt hn] at h
  · simp [digits_step (show 10 ≤ n by omega)] at h

@[simp] theorem decimal_digits (n : Nat) : decimal? (digits n) = some n := by
  unfold decimal?
  split
  · rename_i h
    exact absurd h (digits_ne_nil n)
  · exact decimalFrom_digits n

@[simp] theorem number_digits (pos n : Nat) : number pos (digits n) = .ok n := by
  simp [number]

/-- Leaving the field out changes a refusal's datum only. -/
@[simp] theorem bareForm_ok {α : Type} (v : α) : bareForm (.ok v) = .ok v := rfl
@[simp] theorem bare_ok {α : Type} (v : α) : bare (.ok v) = .ok v := rfl

theorem bareForm_isOk {α : Type} (r : Parsed α) (v : α) : bareForm r = .ok v ↔ r = .ok v := by
  unfold bareForm
  split <;> simp_all

theorem bare_isOk {α : Type} (r : Parsed α) (v : α) : bare r = .ok v ↔ r = .ok v := by
  unfold bare
  split <;> simp_all

theorem only_ok {ws : List Text} {k : Nat} : only ws k = .ok () ↔ ws.length ≤ k := by
  unfold only
  split <;> simp_all

theorem index_ordinal {k : Nat} (pos : Nat) (n : Fin k) : index k pos (ordinal n) = .ok n := by
  have h : 1 ≤ n.val + 1 ∧ n.val + 1 ≤ k := ⟨by omega, n.isLt⟩
  simp [index, ordinal, h]

@[simp] theorem section_letter (x : Sec) : secOf? (sectionLetter x) = some x := by
  cases x <;> decide

@[simp] theorem position_word (p : LeverEnd) : position? (endWord p) = some p := by
  cases p <;> decide

/-- A value written by a table is read back by it, where the table holds each word and each value once. -/
theorem lookup_kind (k : LeverKind) : lookup kindTable (wordFor kindTable k) = some k := by
  cases k <;> decide

theorem lookup_applies (a : Applies) : lookup appliesTable (wordFor appliesTable a) = some a := by
  cases a <;> decide

theorem lookup_active (b : Bool) : lookup activeTable (wordFor activeTable b) = some b := by
  cases b <;> decide

theorem lookup_tcField (f : TcField) : lookup tcFieldTable (wordFor tcFieldTable f) = some f := by
  cases f <;> decide

theorem lookup_secState (st : SecState) : lookup secStateTable (wordFor secStateTable st) = some st := by
  cases st <;> decide

theorem lookup_lamp (v : Lamp) : lookup lampTable (wordFor lampTable v) = some v := by
  cases v <;> decide

/-! ### A circuit at the start and at the completion of a frame -/

/-- What a frame start does to a circuit after the waiting requests: feed, polarity, masks and the measurement to be taken
are set anew, the frame begins with all accepted tuning applied, and nothing else changes. -/
theorem setFeed_eq (w : StartWork) (g : BitVec 7) (proof : Option Circuit) (t : Circuit) :
    ∃ p f ms, setFeed w g proof t =
      { w.circuits[t] with applied := p, feed := f, masks := ms, taken := none, retuned := false } := by
  unfold setFeed
  dsimp only
  split
  · exact ⟨_, _, _, rfl⟩
  · split <;> exact ⟨_, _, _, rfl⟩

/-- A measurement taken in the frame replaces the published one; without one the last published stands. -/
theorem publish_published (k : TrackUnit) (t : Circuit) :
    (publish k t).published = k.circuits[t].taken.or k.circuits[t].published := by
  unfold publish
  dsimp only
  cases k.circuits[t].taken <;> rfl

/-- The lamp lines of a frame in progress outside POWER_UP. -/
theorem lampLines_of_frame {s : State} {f : LampFrame} (h : s.isIn .powerUp = false) (hf : s.diagram.current = some f)
    (tick : Nat) : s.lampLines tick = f.lines tick := by
  simp [State.lampLines, hf, h]

/-! ### What a command takes -/

/-- A list from which the first that `p` finds is taken, where it is due. -/
theorem tookFirst_of_takeFirst {α : Type} {p : α → Bool} {mine due : α → Prop} {before after : List α}
    (hm : ∀ a, p a = true ↔ mine a) (hn : takeFirst p before = none → after = before)
    (hs : ∀ h rest, takeFirst p before = some (h, rest) → (due h → after = rest) ∧ (¬due h → after = before)) :
    tookFirst mine due before after := by
  refine ⟨fun h => hn (takeFirst_none.2 (by simpa [hm] using h)), ?_⟩
  rintro pre h post rfl hpre hh
  cases ht : takeFirst p (pre ++ h :: post) with
  | none =>
    exact absurd (takeFirst_none.1 ht) (by simp [hm, hh])
  | some r =>
    obtain ⟨z, rest⟩ := r
    obtain ⟨as, bs, he, rfl, hz, has⟩ := takeFirst_some ht
    have hlen : as = pre ∧ z = h ∧ bs = post := by
      clear hs hn ht
      induction pre generalizing as with
      | nil =>
        cases as with
        | nil => simpa [eq_comm] using he
        | cons a as =>
          simp only [List.nil_append, List.cons_append, List.cons.injEq] at he
          have := has a (by simp)
          rw [← he.1] at this
          exact absurd ((hm h).2 hh) (by simp [this])
      | cons a pre ih =>
        cases as with
        | nil =>
          simp only [List.nil_append, List.cons_append, List.cons.injEq] at he
          exact absurd ((hm z).1 hz) (he.1 ▸ hpre a (by simp))
        | cons b as =>
          simp only [List.cons_append, List.cons.injEq] at he
          obtain ⟨h1, h2, h3⟩ := ih (fun g hg => hpre g (by simp [hg])) as he.2 (fun c hc => has c (by simp [hc]))
          exact ⟨by rw [he.1, h1], h2, h3⟩
    obtain ⟨rfl, rfl, rfl⟩ := hlen
    exact hs _ _ ht

/-- What dropping the first that `p` finds does to a list. -/
theorem tookFirst_dropFirst {α : Type} {p : α → Bool} {mine : α → Prop} (hm : ∀ a, p a = true ↔ mine a) (ys : List α) :
    tookFirst mine (fun _ => True) ys (dropFirst p ys) :=
  tookFirst_of_takeFirst hm (fun h => by simp [dropFirst, h]) fun _ _ h => ⟨fun _ => by simp [dropFirst, h], fun h' => absurd trivial h'⟩

/-- A change of the first arrival track of a section from CLEAR. -/
theorem isFall_iff (s : State) (x : Sec) (h : TrackHanded) : s.isFall x h = true ↔ h.sec = x ∧ h.was = .clear ∧
    ∃ r rest, (s.section_ x).record = some r ∧ r.arrival = h.circuit :: rest := by
  unfold State.isFall SectionData.arrivals
  cases (s.section_ x).record with
  | none => simp
  | some r => cases hr : r.arrival <;> simp [and_comm, hr]

/-- When auto-TOL acts on a change. -/
theorem autoTolActs_iff (k : SectionData) : k.autoTolActs = true ↔
    k.state = .clearIn ∧ ∃ r, k.record = some r ∧ r.autotol = true ∧ r.arrival ≠ [] := by
  unfold SectionData.autoTolActs SectionData.autoTols
  cases k.record <;> simp [and_comm]

/-! ### The checks of START: the first entry and the first lever that fail -/

theorem firstEntry_some {bad : LockEntry → Bool} {es : List LockEntry} {k : Nat} :
    firstEntry bad es = some k ↔ ∃ before e after, es = before ++ e :: after ∧ k = before.length + 1 ∧ bad e = true ∧
      ∀ d ∈ before, bad d = false := by
  induction es generalizing k with
  | nil => simp [firstEntry]
  | cons e es ih =>
    unfold firstEntry
    by_cases hb : bad e
    · simp only [hb, if_true, Option.some.injEq]
      constructor
      · rintro rfl
        exact ⟨[], e, es, rfl, rfl, hb, by simp⟩
      · rintro ⟨before, d, after, he, rfl, hd, hall⟩
        cases before with
        | nil => rfl
        | cons b bs =>
          simp only [List.cons_append, List.cons.injEq] at he
          have := hall b (by simp)
          rw [← he.1, hb] at this
          cases this
    · simp only [hb, Bool.false_eq_true, if_false, Option.map_eq_some_iff]
      constructor
      · rintro ⟨j, hj, rfl⟩
        obtain ⟨before, d, after, rfl, rfl, hd, hall⟩ := ih.1 hj
        exact ⟨e :: before, d, after, rfl, rfl, hd, by simpa [hb] using hall⟩
      · rintro ⟨before, d, after, he, rfl, hd, hall⟩
        cases before with
        | nil =>
          simp only [List.nil_append, List.cons.injEq] at he
          rw [he.1] at hb
          exact absurd hd hb
        | cons b bs =>
          simp only [List.cons_append, List.cons.injEq] at he
          exact ⟨bs.length + 1, ih.2 ⟨bs, d, after, he.2, rfl, hd, fun c hc => hall c (by simp [hc])⟩, rfl⟩

theorem firstEntry_none {bad : LockEntry → Bool} {es : List LockEntry} :
    firstEntry bad es = none ↔ ∀ e ∈ es, bad e = false := by
  induction es with
  | nil => simp [firstEntry]
  | cons e es ih => unfold firstEntry; by_cases hb : bad e <;> simp [hb, ih]

theorem State.firstLever_some {s : State} {bad : LevRecord → Bool} {n : Lever} :
    s.firstLever bad = some n ↔ (∃ r, (s.lever n).record = some r ∧ bad r = true) ∧
      ∀ m < n, ∀ r, (s.lever m).record = some r → bad r = false := by
  unfold State.firstLever allLevers
  rw [List.find?_eq_some_iff_getElem]
  constructor
  · rintro ⟨hp, i, hi, hn, hall⟩
    simp only [List.getElem_finRange] at hn hall
    have hin : i = n.val := by rw [← hn]; rfl
    refine ⟨?_, fun m hm r hr => ?_⟩
    · cases hr : (s.lever n).record with
      | none => simp [hr] at hp
      | some r => exact ⟨r, rfl, by simpa [hr] using hp⟩
    · have := hall m.val (by rw [hin]; exact hm)
      simpa [hr] using this
  · rintro ⟨⟨r, hr, hb⟩, hall⟩
    refine ⟨by simp [hr, hb], n.val, by simp, by simp, fun j hj => ?_⟩
    have hj' : (⟨j, by omega⟩ : Lever) < n := hj
    cases hr : (s.lever ⟨j, by omega⟩).record with
    | none => simp [hr]
    | some r => simpa [hr] using hall _ hj' r hr

theorem State.firstLever_none {s : State} {bad : LevRecord → Bool} :
    s.firstLever bad = none ↔ ∀ n r, (s.lever n).record = some r → bad r = false := by
  unfold State.firstLever allLevers
  simp only [List.find?_eq_none, List.mem_finRange, true_implies]
  refine forall_congr' fun n => ?_
  cases (s.lever n).record <;> simp

end Sys2Proof.Machine
end

