-- ==== Sys2Proof/Tests/Slice0.lean ====
section
/-! SUPPORT. Tests on small states: the WellFormed smoke tests, worked figures of the manual, and for each statement with
hypotheses a state that meets them, clause by clause, with what the command does there. -/

namespace Sys2Proof.Tests

set_option Elab.async false

open Sys2Proof Sys2Proof.Machine

/-! ### States to test on -/

/-- The state a command leaves. -/
def after (c : Instr) (s : State) : State :=
  match exec c s with
  | .next t => t
  | _ => s

/-- The part in a service state, a thousand seconds on, with the reset pin released. -/
def base (v : ServiceState) : State :=
  { State.reset with resetHeld := false, now := 1000000, service := { State.reset.service with state := v } }

/-- A record of kind POINTS without terms. -/
def points : LevRecord := ⟨.points, [], [], none, none⟩

/-- A lever with a record in a state, its lock as that state has it. -/
def leverAt (pos : LeverPos) : LeverData :=
  { LeverData.reset with record := some points, pos := pos, lock := pos.isFree, lastEnd := pos.freshEnd }

/-- An event waits for lever 1, which is as given. -/
def leverEvent (v : ServiceState) (l : LeverData) (e : LeverEvent) : State :=
  let s := (base v).setLever 0 l
  s.setInbox { s.inbox with frame := [(1, .grip), (0, e)] }

/-- The front line is a request of these words. -/
def asking (ws : List Text) (s : State) : State :=
  { s with link := { s.link with queue := [⟨.request (joinWords ws), 3⟩] } }

def withSection (x : Sec) (k : SectionData) (s : State) : State := s.setSection x k

/-- A section with a record, in a state, driven as that state has it. -/
def secAt (st : SecState) : SectionData :=
  { SectionData.reset with record := some ⟨[], [], [], false⟩, state := st, drive := driveOf st, reading := some .lb }

def trainOf (inward : Bool) (stage : Stage) : Train := ⟨7, inward, 3, stage, ⟨0, 0, true⟩, none, none, 0⟩

def withCircuit (c : Circuit) (k : CircuitData) (s : State) : State :=
  s.setTrack { s.track with circuits := s.track.circuits.set c.val k }

/-- A circuit with the default record but for a window of 8, in a state. -/
def circuitAt (st : TrackState) : CircuitData :=
  { CircuitData.reset with
    stored := some { TcRecord.default with window := 8 }
    live := some { TcRecord.default with window := 8 }
    state := st
    q := 8000
    applied := some .positive
    feed := some .positive }

/-! ### WellFormed: each check refuses an ill-formed command -/

theorem test_wellFormed_few_samples :
    (Instr.measurementComplete (List.replicate 7 0#12)).wellFormed = false ∧
      (Instr.measurementComplete (List.replicate 8 0#12)).wellFormed = true := by decide

theorem test_wellFormed_many_samples :
    (Instr.measurementComplete (List.replicate 65 0#12)).wellFormed = false ∧
      (Instr.measurementComplete (List.replicate 64 0#12)).wellFormed = true := by decide +kernel

theorem test_wellFormed_contact_twice :
    (Instr.contactScan [.box, .leverN 0, .box]).wellFormed = false ∧
      (Instr.contactScan [.box, .leverN 0]).wellFormed = true := by decide

/-! ### No word spells a command; the queue -/

/-- No row of the table gives bits. -/
theorem test_no_word_decodes : decodeTableWord 0 0 = none ∧ State.reset.withFetchWord 0 0 = State.reset := ⟨rfl, rfl⟩

/-- An empty queue passes one millisecond (log 1). -/
theorem test_empty_queue_ticks : step State.reset = .next { State.reset with now := 1 } := rfl

theorem test_queue_first_in_first_out :
    (match step { base .inService with pending := [.clockTick, .reTest] } with
      | .next t => decide (t.pending = [.reTest] ∧ t.register.clock.tenths = 1)
      | _ => false) = true := by decide +kernel

/-- The frame statements' hypotheses: each command is of its family and answers a next state. -/
theorem test_frames_witness (s : State) :
    (∀ c ∈ [Instr.contactScan [], .grip 0, .reTest, .scanFrameStart, .startOfBeat .a, .autoTol .b, .arrivalAtOut],
      Instr.family c ∈ [Family.contacts, .levers, .locking, .track, .bell, .block, .service] ∧
        exec c s = .next (after c s)) ∧
    exec .resetRelease s = .next (after .resetRelease s) ∧
    exec .initialisationComplete s = .next (after .initialisationComplete s) ∧
    ∀ c ∈ [Instr.registerAppend .bell, .diagramFrameStart, .characterReceived .framingError, .lev],
      Instr.family c ∈ [Family.register, .diagram, .link, .requests] ∧ exec c s = .next (after c s) := by
  refine ⟨?_, rfl, rfl, ?_⟩ <;> intro c hc <;> fin_cases hc <;> exact ⟨by decide, rfl⟩

/-! ### Reset and initialisation -/

/-- RESTART's reply of 144 characters takes 25 ms at 5,760 characters a second. -/
def restarting (elapsed : Nat) : State :=
  let s := base .configure
  { s with link := { s.link with restart := .replySending, sending := some ⟨List.replicate 144 'A', s.now - elapsed⟩ } }

theorem test_restart_at_its_time :
    (restarting 25).link.restart = .replySending ∧ 144 * 1000 ≤ 25 * 5760 ∧
      (after (.restartPowerUp 2) (restarting 25)).service.state = .powerUp ∧
      (after (.restartPowerUp 2) (restarting 25)).strap = 2 ∧
      24 * 5760 < 144 * 1000 ∧ after (.restartPowerUp 2) (restarting 24) = restarting 24 := by decide +kernel

theorem test_reset_any_state : (after (.reset 3) (base .inService)).service.state = .powerUp ∧
    (after (.reset 3) (base .inService)).strap = 3 ∧ (after (.reset 3) (base .inService)).resetHeld = true := by decide

/-- Contacts with a first reading each: levers 1 to 4 at N, at R, at both and at neither, and the block switches at LC, at
TOL and at both. -/
def read : Contacts :=
  let c := fun b => (⟨some b, b, 0⟩ : ContactState)
  let off : LeverContacts := ⟨c false, c false, c false⟩
  { levers := ((Vector.replicate 48 off).set 0 ⟨c true, c false, c false⟩).set 1 ⟨c false, c true, c false⟩ |>.set 2
      ⟨c true, c true, c false⟩
    proving := Vector.replicate 16 (c false)
    switches := ⟨⟨c true, c false⟩, ⟨c false, c true⟩, ⟨c true, c true⟩⟩
    tappers := ⟨c false, c false, c false⟩
    plungers := ⟨c false, c false, c false⟩
    box := c true }

theorem test_initialisation_waits :
    (base .powerUp).service.state = .powerUp ∧ ((base .powerUp).contacts.contact .box).reading = none ∧
      (after .initialisationComplete (base .powerUp)).service.state = .powerUp ∧
      State.reset.resetHeld = true := by decide +kernel

/-- The first readings, and an arrival after them, have set the box switch and the switch of section A. -/
def initialising : State :=
  let s := base .powerUp
  { withSection .a { SectionData.reset with position := .lc } s with
    contacts := read, service := { s.service with position := .out } }

theorem read_every_contact (c : Contact) : (read.contact c).reading ≠ none := by
  cases c with
  | leverN n => revert n; decide +kernel
  | leverR n => revert n; decide +kernel
  | leverH n => revert n; decide +kernel
  | proving g => revert g; decide +kernel
  | switchLC x => cases x <;> decide
  | switchTOL x => cases x <;> decide
  | tapper p => cases p <;> decide
  | plunger x => cases x <;> decide
  | box => decide

theorem test_initialisation :
    initialising.service.state = .powerUp ∧ initialising.resetHeld = false ∧
      (∀ c, (initialising.contacts.contact c).reading ≠ none) ∧
      (let t := after .initialisationComplete initialising
       t.service.state = .configure ∧ t.service.position = .out ∧ (t.lever 0).pos = .nLocked ∧
         (t.lever 1).pos = .rLocked ∧ (t.lever 2).pos = .fault ∧ (t.lever 3).pos = .travel ∧
         (t.section_ .a).position = .lc ∧ (t.section_ .b).position = .lb) := by
  refine ⟨rfl, rfl, read_every_contact, ?_⟩
  decide +kernel

/-! ### Contacts -/

/-- Debouncing: a reading made is broken at the third scan in a row; a first reading needs three scans that agree. -/
theorem test_debounce :
    (⟨some true, true, 2⟩ : ContactState).scan true = ⟨some true, true, 0⟩ ∧
      (⟨some true, true, 0⟩ : ContactState).scan false = ⟨some true, false, 1⟩ ∧
      (⟨some true, false, 1⟩ : ContactState).scan false = ⟨some true, false, 2⟩ ∧
      (⟨some true, false, 2⟩ : ContactState).scan false = ⟨some false, false, 0⟩ ∧
      (⟨none, false, 0⟩ : ContactState).scan true = ⟨none, true, 1⟩ ∧
      (⟨none, true, 1⟩ : ContactState).scan true = ⟨none, true, 2⟩ ∧
      (⟨none, true, 2⟩ : ContactState).scan false = ⟨none, false, 1⟩ ∧
      (⟨none, true, 2⟩ : ContactState).scan true = ⟨some true, true, 0⟩ := by decide

/-- The statements on scans ask only that the pin is not held; here a contact stands in each case of the debouncing. -/
theorem test_debounce_witness :
    let s := { base .configure with contacts := { read with
      tappers := ⟨⟨none, false, 0⟩, ⟨none, true, 1⟩, ⟨none, true, 2⟩⟩
      plungers := ⟨⟨some false, false, 0⟩, ⟨some false, true, 1⟩, ⟨some false, true, 2⟩⟩ } }
    s.resetHeld = false ∧
      (let t := after (.contactScan [.tapper .a, .tapper .b, .tapper .c, .plunger .a, .plunger .b, .plunger .c]) s
       t.contacts.tappers = ⟨⟨none, true, 1⟩, ⟨none, true, 2⟩, ⟨some true, true, 0⟩⟩ ∧
         t.contacts.plungers = ⟨⟨some false, true, 1⟩, ⟨some false, true, 2⟩, ⟨some true, true, 0⟩⟩ ∧
         t.inbox.plungers = [.c]) := by decide +kernel

/-- Each change of a lever's two readings at once, on levers 1 to 7; a grip on lever 8 and a grip end on lever 9. -/
def changing : State :=
  let on : ContactState := ⟨some false, true, 2⟩
  let off : ContactState := ⟨some true, false, 2⟩
  let lo : ContactState := ⟨some false, false, 0⟩
  let hi : ContactState := ⟨some true, true, 0⟩
  let levers := (((((((((Vector.replicate 48 (⟨lo, lo, lo⟩ : LeverContacts)).set 0 ⟨off, lo, lo⟩).set 1 ⟨off, on, lo⟩).set 2
    ⟨off, hi, lo⟩).set 3 ⟨off, off, lo⟩).set 4 ⟨on, lo, lo⟩).set 5 ⟨on, hi, lo⟩).set 6 ⟨on, off, lo⟩).set 7
    ⟨lo, lo, on⟩).set 8 ⟨lo, lo, off⟩
  { base .inService with contacts := { read with levers := levers, box := off } }

theorem test_scan_events :
    changing.resetHeld = false ∧ changing.service.state ≠ .powerUp ∧
      (let t := after (.contactScan [.leverR 1, .leverR 2, .leverN 4, .leverN 5, .leverR 5, .leverN 6, .leverH 7]) changing
       t.inbox.frame = [(0, .leavingN), (1, .leavingN), (1, .arrivalR), (2, .arrivalR), (3, .bothBreak), (4, .arrivalN),
           (5, .bothMade), (6, .leavingR), (6, .arrivalN), (7, .grip), (8, .gripEnd)] ∧
         t.inbox.box = [.inn]) := by decide +kernel

/-- In POWER_UP: the box switch and switch B with readings that change now, switch A and the rest with first readings now. -/
def poweringUp : State :=
  let first : ContactState := ⟨none, true, 2⟩
  let none_ : ContactState := ⟨none, false, 2⟩
  let made : ContactState := ⟨some false, true, 2⟩
  let open_ : ContactState := ⟨some false, false, 0⟩
  { base .powerUp with contacts := { read with
    switches := ⟨⟨first, none_⟩, ⟨open_, made⟩, ⟨first, ⟨none, true, 1⟩⟩⟩
    box := made } }

/-- A change is handed on in POWER_UP too, and first readings are a position and no arrival (R1, R116). -/
theorem test_scan_in_power_up :
    (let t := after (.contactScan [.switchLC .a, .switchTOL .b, .switchLC .c, .switchTOL .c, .box]) poweringUp
     t.inbox.box = [.out] ∧ t.inbox.switches = [(.b, .tol)] ∧ (t.section_ .a).position = .lc ∧
       (t.section_ .b).position = .lb ∧ (t.section_ .c).position = .lb ∧ t.service.position = .inn) ∧
    (let t := after (.contactScan [.box]) { poweringUp with contacts := { poweringUp.contacts with box := ⟨none, true, 2⟩ } }
     t.service.position = .out ∧ t.inbox.box = []) := by decide +kernel

/-- Contacts of every other kind that change at one scan: switch A from LC to TOL, B leaves TOL, tappers, a plunger and two
proving inputs, and the catch handle of lever 1. -/
def working : State :=
  let lo : ContactState := ⟨some false, false, 0⟩
  let on : ContactState := ⟨some false, true, 2⟩
  let off : ContactState := ⟨some true, false, 2⟩
  { base .inService with contacts :=
    { levers := (Vector.replicate 48 (⟨lo, lo, lo⟩ : LeverContacts)).set 0 ⟨lo, lo, on⟩
      proving := ((Vector.replicate 16 lo).set 3 on).set 9 off
      switches := ⟨⟨off, on⟩, ⟨lo, off⟩, ⟨lo, lo⟩⟩
      tappers := ⟨on, off, lo⟩
      plungers := ⟨lo, lo, on⟩
      box := off } }

theorem test_scan_hands_on :
    working.resetHeld = false ∧
      (let t := after (.contactScan [.switchTOL .a, .tapper .a, .plunger .c, .proving 3, .leverH 0]) working
       t.inbox.switches = [(.a, .lb), (.a, .tol), (.b, .lb)] ∧ t.inbox.tappers = [(.a, true), (.b, false)] ∧
         t.inbox.plungers = [.c] ∧ t.inbox.inputs = [3, 9] ∧ t.inbox.box = [.inn] ∧ t.inbox.frame = [(0, .grip)] ∧
         t.inbox.activity.count .grip = 1 ∧ .other ∈ t.inbox.activity) ∧
      (let t := after (.contactScan []) { working with contacts := read }
       t.inbox.activity = []) := by decide +kernel

/-! ### Levers -/

theorem test_grip_frees : ∀ pos ∈ [LeverPos.nLocked, .rLocked, .travel],
    let s := leverEvent .inService (leverAt pos) .grip
    s.leverWaits 0 .grip ∧ s.service.state ≠ .powerUp ∧ (s.lever 0).loaded = true ∧ (s.lever 0).lock = false ∧
      (s.lever 0).isSpare = false ∧ s.freedomTest 0 = true ∧ ((after (.grip 0) s).lever 0).lock = true ∧
      ((after (.grip 0) s).lever 0).limit = (if pos = .travel then some 1015000 else none) := by decide +kernel

/-- Lever 2 is to be at R while lever 1 is at R, and it is away. -/
def held : List LockEntry := [⟨⟨0, .r⟩, ⟨1, .r⟩, []⟩]

theorem test_grip_refused :
    (∀ pos ∈ [LeverPos.nLocked, .rLocked, .travel],
      let s := { leverEvent .inService (leverAt pos) .grip with locking := held }
      s.leverWaits 0 .grip ∧ (s.lever 0).loaded = true ∧ (s.lever 0).lock = false ∧ s.freedomTest 0 = false ∧
        (after (.grip 0) s).lever 0 = { leverAt pos with refused := true }) ∧
    (∀ pos ∈ [LeverPos.nLocked, .rLocked, .travel],
      let s := leverEvent .inService { leverAt pos with record := some ⟨.spare, [], [], none, none⟩ } .grip
      s.leverWaits 0 .grip ∧ (s.lever 0).isSpare = true ∧ ((after (.grip 0) s).lever 0).refused = true) ∧
    ((after (.grip 0) (leverEvent .switchedOut (leverAt .nLocked) .grip)).lever 0).refused = true ∧
    ((after (.grip 0) (leverEvent .inService (leverAt .fault) .grip)).lever 0).refused = true := by decide +kernel

theorem test_grip_ignored :
    (let s := leverEvent .inService { leverAt .nLocked with record := none } .grip
     s.leverWaits 0 .grip ∧ (s.lever 0).loaded = false ∧ (after (.grip 0) s).lever 0 = s.lever 0) ∧
    (let s := leverEvent .configure (leverAt .nLocked) .grip
     s.leverWaits 0 .grip ∧ (s.lever 0).loaded = true ∧ (after (.grip 0) s).lever 0 = s.lever 0) ∧
    ∀ l ∈ [{ leverAt .travel with lock := true }, leverAt .backlocked, leverAt .nFree, leverAt .rFree],
      let s := leverEvent .inService l .grip
      s.leverWaits 0 .grip ∧ (after (.grip 0) s).lever 0 = l := by decide +kernel

theorem test_grip_end : ∀ pos ∈ [LeverPos.nFree, .rFree, .travel, .backlocked, .nLocked],
    let s := leverEvent .switchedOut { leverAt pos with refused := true } .gripEnd
    s.leverWaits 0 .gripEnd ∧ s.service.state ≠ .powerUp ∧
      (after (.gripEnd 0) s).lever 0 = leverAt (match pos with
        | .nFree => .nLocked
        | .rFree => .rLocked
        | p => p) := by decide +kernel

/-- A signal whose approach is circuit 1 and section A, with a time release of 10 s. -/
def signal (pos : LeverPos) : LeverData :=
  { leverAt pos with record := some ⟨.signal, [], [], none, some ⟨[0], some .a, 10⟩⟩ }

theorem test_leaving_N :
    (let s := leverEvent .inService (leverAt .nFree) .leavingN
     s.leverWaits 0 .leavingN ∧ ((after (.leavingN 0) s).lever 0).limit = some 1015000 ∧
       ((after (.leavingN 0) s).lever 0).lock = true ∧ (after (.leavingN 0) s).inbox.entries = []) ∧
    (∀ v ∈ [ServiceState.inService, .switchedOut],
      let s := leverEvent v (leverAt .nLocked) .leavingN
      s.leverWaits 0 .leavingN ∧ (s.lever 0).loaded = true ∧ ((after (.leavingN 0) s).lever 0).forced = true ∧
        (after (.leavingN 0) s).inbox.entries = [(.leverFrame, .lever 0 .forced)]) ∧
    (∀ s ∈ [leverEvent .configure (leverAt .nLocked) .leavingN,
        leverEvent .inService { leverAt .nLocked with record := none } .leavingN],
      s.leverWaits 0 .leavingN ∧ ((after (.leavingN 0) s).lever 0).forced = false ∧
        ((after (.leavingN 0) s).lever 0).pos = .travel ∧ (after (.leavingN 0) s).inbox.entries = []) := by decide +kernel

theorem test_leaving_R :
    (let s := leverEvent .inService (leverAt .rFree) .leavingR
     s.leverWaits 0 .leavingR ∧ (s.lever 0).approach = none ∧ ((after (.leavingR 0) s).lever 0).pos = .travel ∧
       ((after (.leavingR 0) s).lever 0).lock = true) ∧
    (let s := withCircuit 0 (circuitAt .clear) (leverEvent .inService (signal .rFree) .leavingR)
     s.leverWaits 0 .leavingR ∧ (s.lever 0).approach = some ⟨[0], some .a, 10⟩ ∧ (s.circuit 0).state = .clear ∧
       (s.section_ .a).state ≠ .enteredIn ∧ ((after (.leavingR 0) s).lever 0).lock = true) ∧
    (let s := withCircuit 0 (circuitAt .occupied) (leverEvent .inService (signal .rFree) .leavingR)
     s.leverWaits 0 .leavingR ∧ (s.circuit 0).state ≠ .clear ∧
       ((after (.leavingR 0) s).lever 0).backlock = .timing 1010000 ∧
       ((after (.leavingR 0) s).lever 0).pos = .backlocked) ∧
    (let s := withSection .a (secAt .enteredIn) (withCircuit 0 (circuitAt .clear)
       (leverEvent .inService (signal .rFree) .leavingR))
     s.leverWaits 0 .leavingR ∧ (s.section_ .a).state = .enteredIn ∧
       ((after (.leavingR 0) s).lever 0).pos = .backlocked) ∧
    (let s := withSection .a (secAt .enteredIn) (withCircuit 0 (circuitAt .occupied)
       (leverEvent .inService (signal .rFree) .leavingR))
     let t := s.setInbox { s.inbox with changes := [.track 0 .clear, .sec .a .clearIn, .sec .a .enteredIn] }
     t.leverWaits 0 .leavingR ∧ t.lockTrack 0 = .clear ∧ t.lockSec .a = .clearIn ∧
       ((after (.leavingR 0) t).lever 0).lock = true ∧
       ((after (.leavingR 0) (after .reTest t)).lever 0).pos = .backlocked) ∧
    (let s := leverEvent .switchedOut (leverAt .rLocked) .leavingR
     s.leverWaits 0 .leavingR ∧ ((after (.leavingR 0) s).lever 0).forced = true) ∧
    (let s := leverEvent .configure (leverAt .rLocked) .leavingR
     s.leverWaits 0 .leavingR ∧ ((after (.leavingR 0) s).lever 0).forced = false) := by decide +kernel

theorem test_arrival_N :
    (let s := leverEvent .inService { leverAt .travel with stalled := true, lock := true, limit := some 5 } .arrivalN
     s.leverWaits 0 .arrivalN ∧ s.service.state ≠ .powerUp ∧
       (after (.arrivalAtN 0) s).lever 0 = leverAt .nLocked) ∧
    (let s := leverEvent .inService { leverAt .backlocked with stalled := true, backlock := .timing 5 } .arrivalN
     s.leverWaits 0 .arrivalN ∧ (after (.arrivalAtN 0) s).lever 0 = { leverAt .nLocked with forced := true } ∧
       (after (.arrivalAtN 0) s).inbox.entries = [(.leverFrame, .lever 0 .forced)]) ∧
    (let s := leverEvent .inService { leverAt .fault with stalled := true } .arrivalN
     s.leverWaits 0 .arrivalN ∧ (after (.arrivalAtN 0) s).lever 0 = { leverAt .nLocked with stalled := true }) := by
  decide +kernel

theorem test_arrival_R : ∀ pos ∈ [LeverPos.travel, .backlocked, .fault],
    (let s := leverEvent .inService (leverAt pos) .arrivalR
     s.leverWaits 0 .arrivalR ∧ (s.lever 0).blockControl = none ∧ ((after (.arrivalAtR 0) s).lever 0).pos = .rLocked ∧
       (after (.arrivalAtR 0) s).inbox.atR = []) ∧
    (let s := leverEvent .inService { leverAt pos with record := some ⟨.signal, [], [], some .b, none⟩ } .arrivalR
     s.leverWaits 0 .arrivalR ∧ (s.lever 0).blockControl = some .b ∧ (after (.arrivalAtR 0) s).inbox.atR = [0]) := by
  decide +kernel

/-- A lever in travel under section A's control arrives at R and the Block unit takes it: the release is spent at once, and
stays spent. -/
theorem test_release_spent :
    let s := withSection .a { secAt .clearOut with releaseUnused := true } (leverEvent .inService
      { leverAt .travel with record := some ⟨.signal, [], [], some .a, none⟩ } .arrivalR)
    let t := after (.arrivalAtR 0) s
    let u := after (.blockControlArrival 0) t
    exec (.arrivalAtR 0) s = .next t ∧ exec (.blockControlArrival 0) t = .next u ∧
      (s.lever 0).blockControl = some .a ∧ (s.lever 0).pos = .travel ∧ (t.lever 0).pos = .rLocked ∧
      (t.section_ .a).releaseUnused = true ∧ t.blockMet 0 .a = false ∧ t.blockMet 1 .a = false ∧ t.inbox.atR = [0] ∧
      (u.section_ .a).releaseUnused = false ∧ u.inbox.atR = [] :=
  ⟨rfl, rfl, by decide +kernel⟩

theorem test_faults :
    (let s := leverEvent .inService { leverAt .backlocked with backlock := .due } .bothMade
     s.leverWaits 0 .bothMade ∧ (s.lever 0).loaded = true ∧ (after (.bothMade 0) s).lever 0 = leverAt .fault ∧
       (after (.bothMade 0) s).inbox.entries = [(.leverFrame, .lever 0 .fault)]) ∧
    (let s := leverEvent .configure { leverAt .nLocked with record := none } .bothMade
     s.leverWaits 0 .bothMade ∧ (s.lever 0).loaded = false ∧ ((after (.bothMade 0) s).lever 0).pos = .fault ∧
       (after (.bothMade 0) s).inbox.entries = []) ∧
    (let s := leverEvent .inService (leverAt .fault) .bothBreak
     s.leverWaits 0 .bothBreak ∧ (s.lever 0).pos = .fault ∧
       ((after (.bothContactsBreak 0) s).lever 0).pos = .travel) := by decide +kernel

/-- Lever 1 as given, in service, with a demand and a back-lock release waiting for it. -/
def demanded (l : LeverData) : State :=
  let s := (base .inService).setLever 0 l
  s.setInbox { s.inbox with demands := [3, 0], backReleases := [3, 0] }

theorem test_freedom_withdrawn : ∀ pos ∈ [LeverPos.nFree, .rFree, .travel],
    0 ∈ (demanded (leverAt pos)).inbox.demands ∧
      ((after (.freedomWithdrawn 0) (demanded (leverAt pos))).lever 0).pos = (match pos with
        | .nFree => .nLocked
        | .rFree => .rLocked
        | p => p) ∧
      (after (.freedomWithdrawn 0) (demanded (leverAt pos))).inbox.demands = [3] := by decide +kernel

/-- The travel limit has run out at its moment and not a millisecond before. -/
theorem test_travel_limit :
    (let s := demanded { leverAt .travel with lock := true, limit := some 1000000 }
     (s.lever 0).limit = some 1000000 ∧ ((after (.travelLimitExpiry 0) s).lever 0).stalled = true ∧
       (after (.travelLimitExpiry 0) s).inbox.entries = [(.leverFrame, .lever 0 .stalled)]) ∧
    (let s := demanded { leverAt .travel with lock := true, limit := some 1000001 }
     (s.lever 0).limit = some 1000001 ∧ after (.travelLimitExpiry 0) s = s) := by decide +kernel

theorem test_time_release :
    (let s := demanded { signal .backlocked with backlock := .timing 1000000 }
     s.tableTest 0 = true ∧ ((after (.timeReleaseExpiry 0) s).lever 0).backlock = .due) ∧
    (let s := demanded { signal .backlocked with backlock := .timing 1000001 }
     after (.timeReleaseExpiry 0) s = s) := by decide +kernel

theorem test_back_lock_release :
    (let s := demanded { signal .backlocked with backlock := .due }
     0 ∈ s.inbox.backReleases ∧ s.tableTest 0 = true ∧
       (after (.backLockRelease 0) s).lever 0 = { signal .backlocked with
         pos := .travel, lock := true, limit := some 1015000, backlock := .idle }) ∧
    (∀ s ∈ [demanded { signal .nLocked with backlock := .due }, demanded (signal .backlocked),
        { demanded { signal .backlocked with backlock := .due } with locking := held }],
      0 ∈ s.inbox.backReleases ∧ (after (.backLockRelease 0) s).lever 0 = s.lever 0) := by decide +kernel

/-! ### Locking -/

/-- A condition holds at its position and away from both; an entry is violated with X off its opposite and Y off its own. -/
theorem test_entry :
    let e : LockEntry := ⟨⟨0, .r⟩, ⟨1, .n⟩, [⟨2, .r⟩]⟩
    let at_ := fun (x y c : Option LeverEnd) (n : Lever) => if n = 0 then x else if n = 1 then y else c
    e.violated (at_ (some .r) (some .r) (some .r)) = true ∧ e.violated (at_ none none none) = true ∧
      e.violated (at_ (some .r) (some .r) (some .n)) = false ∧ e.violated (at_ (some .n) (some .r) none) = false ∧
      e.violated (at_ (some .r) (some .n) none) = false := by decide

/-- A signal with a track term, a proving term and block control, its section giving a release. -/
def controlled (pos : LeverPos) (end_ : LeverEnd) : State :=
  let l : LeverData := { leverAt pos with
    record := some ⟨.signal, [⟨0, .leaveN⟩], [⟨3, true, .leaveN⟩], some .a, none⟩, lastEnd := some end_ }
  let made : ContactState := ⟨some true, true, 0⟩
  let s := withSection .a { secAt .clearOut with releaseUnused := true } (withCircuit 0 (circuitAt .clear)
    ((base .inService).setLever 0 l))
  { s with contacts := { read with proving := (Vector.replicate 16 ⟨some false, false, 0⟩).set 3 made } }

theorem test_freedom_test :
    ((controlled .nLocked .n).lever 0).record = some ⟨.signal, [⟨0, .leaveN⟩], [⟨3, true, .leaveN⟩], some .a, none⟩ ∧
      (controlled .nLocked .n).freedomTest 0 = true ∧
      (withCircuit 0 (circuitAt .occupied) (controlled .nLocked .n)).freedomTest 0 = false ∧
      { controlled .nLocked .n with contacts := read }.freedomTest 0 = false ∧
      (withSection .a (secAt .clearOut) (controlled .nLocked .n)).freedomTest 0 = false ∧
      ((controlled .nLocked .n).setLever 5 { leverAt .nFree with
        record := some ⟨.signal, [], [], some .a, none⟩ }).freedomTest 0 = false ∧
      { controlled .nLocked .n with locking := held }.freedomTest 0 = false ∧
      ((controlled .nLocked .n).setInbox { Inbox.reset with atR := [0] }).freedomTest 0 = false ∧
      (((controlled .nLocked .n).setLever 5 { leverAt .rLocked with record := some ⟨.signal, [], [], some .a, none⟩ }).setInbox
        { Inbox.reset with atR := [4, 5] }).freedomTest 0 = false ∧
      (((controlled .nLocked .n).setLever 5 { leverAt .rLocked with record := some ⟨.signal, [], [], some .a, none⟩ }).setInbox
        { Inbox.reset with atR := [4] }).freedomTest 0 = true ∧
      (withSection .a (secAt .blocked) (withCircuit 0 (circuitAt .occupied) (controlled .rLocked .r))).freedomTest 0 =
        true := by decide +kernel

/-! A change on its way (R36, R75): its reader answers from the state before it until the change is taken. -/

/-- Circuit 1 has become OCCUPIED, then CLEAR again, and neither change is taken. -/
theorem test_freedom_test_before_the_change :
    let hand := fun (cs : List Change) (s : State) => s.setInbox { s.inbox with changes := cs }
    let s := hand [.track 1 .occupied, .track 0 .clear] (withCircuit 0 (circuitAt .occupied) (controlled .nLocked .n))
    s.lockTrack 0 = .clear ∧ s.freedomTest 0 = true ∧
      (let t := after .reTest (after .reTest s)
       t.inbox.changes = [] ∧ t.lockTrack 0 = .occupied ∧ t.freedomTest 0 = false) ∧
      (let u := hand [.track 0 .occupied, .track 0 .clear] (controlled .nLocked .n)
       u.lockTrack 0 = .occupied ∧ u.freedomTest 0 = false ∧ (after .reTest u).lockTrack 0 = .clear) := by decide +kernel

theorem test_lock_energised :
    (let s := leverEvent .inService (leverAt .nLocked) .grip
     s.leversOk ∧ exec (.grip 0) s = .next (after (.grip 0) s) ∧ (s.lever 0).lock = false ∧
       ((after (.grip 0) s).lever 0).lock = true) ∧
    (let s := demanded { signal .backlocked with backlock := .due }
     s.leversOk ∧ exec (.backLockRelease 0) s = .next (after (.backLockRelease 0) s) ∧ (s.lever 0).lock = false ∧
       ((after (.backLockRelease 0) s).lever 0).lock = true) :=
  ⟨⟨by unfold State.leversOk State.leverOk; decide +kernel, rfl, by decide +kernel⟩,
    by unfold State.leversOk State.leverOk; decide +kernel, rfl, by decide +kernel⟩

/-- Levers 1 and 2 conflict: while 1 is at R, 2 is held at N. Lever 1 is as given, and lever 2 is gripped. -/
def conflict (v : ServiceState) (first second : LeverPos) : State :=
  let s := ((base v).setLever 0 (leverAt first)).setLever 1 (leverAt second)
  { s.setInbox { s.inbox with frame := [(0, .grip), (1, .grip)] } with locking := [⟨⟨0, .r⟩, ⟨1, .n⟩, []⟩] }

theorem test_conflict :
    (∀ first ∈ [LeverPos.nFree, .rFree, .travel, .backlocked, .fault], ∀ second ∈ [LeverPos.nLocked, .rLocked, .travel],
      ∀ v ∈ [ServiceState.inService, .switchedOut],
        let s := conflict v first second
        let t := after (.grip 1) s
        (s.lever 0).pos = first ∧ (s.lever 1).lock = false ∧ s.leverWaits 1 .grip ∧ (s.lever 1).loaded = true ∧
          (t.lever 1).refused = true ∧ (t.lever 1).lock = false) ∧
    ((after (.grip 1) (after (.grip 0) (conflict .inService .nLocked .nLocked))).lever 1).refused = true ∧
    ((after (.grip 1) (conflict .inService .nLocked .nLocked)).lever 1).lock = true := by decide +kernel

/-- Lever 1 free, lever 2 back-locked with a change of its approach circuit, lever 3 due. -/
def changed (c : Change) : State :=
  let s := withCircuit 0 (circuitAt .clear) ((((base .inService).setLever 0 (leverAt .nFree)).setLever 1
    { signal .backlocked with backlock := .timing 1000009 }).setLever 2 { signal .backlocked with backlock := .due })
  s.setInbox { s.inbox with changes := [c, .input 0], inputs := [4, 3] }

theorem test_re_test :
    (let t := after .reTest (changed (.track 0 .clear))
     (changed (.track 0 .clear)).inbox.changes = [.track 0 .clear, .input 0] ∧ (t.lever 1).backlock = .due ∧
       t.inbox.backReleases = [1] ∧
       t.inbox.demands = [] ∧ t.inbox.changes = [.input 0]) ∧
    (let t := after .reTest (changed (.sec .a .enteredIn))
     (t.lever 1).backlock = .due ∧ t.inbox.backReleases = [1]) ∧
    (let t := after .reTest (changed (.lever 7))
     (t.lever 1).backlock = .timing 1000009 ∧ t.inbox.backReleases = [2]) ∧
    (let t := after .reTest { changed (.lever 7) with locking := held }
     t.inbox.demands = [0] ∧ t.inbox.backReleases = []) := by decide +kernel

theorem test_proving_input_change : (3 : Input) ∈ (changed (.lever 0)).inbox.inputs ∧
    (after (.provingInputChange 3) (changed (.lever 0))).inbox.changes = [.lever 0, .input 0, .input 3] ∧
    (after (.provingInputChange 3) (changed (.lever 0))).inbox.inputs = [4] := by decide +kernel

/-! ### Track circuits -/

/-- The generator's first steps (R51). -/
theorem test_generator : stepGenerator 1#7 = 2#7 ∧ stepGenerator 64#7 = 1#7 ∧ stepGenerator 32#7 = 65#7 := by decide

/-- The worked case of chapter 4: S 7840 over 16 samples, gain 2 × 40, reference 250 mV. -/
theorem test_worked_measurement : (7840 : Int).tdiv 16 = 490 ∧ levelOf 490 2 40 false = 239 ∧
    (let r := { TcRecord.default with drop := 96, pick := 160, floor := 30 }
     dropThreshold 250 r = 93 ∧ pickThreshold 250 r = 156) ∧ verdictOf 239 40 93 156 = .high := by decide

/-- The frame lengths of R50's text and of the Stelbury example, in tenths of a millisecond and in ms. -/
theorem test_frame_lengths : actualLength 380 50 = (50, false) ∧ actualLength 1340 50 = (134, true) ∧
    actualLength 198 20 = (20, false) ∧ actualLength 206 20 = (21, true) := by decide

/-- Between frames, with circuit 1 in a state. -/
def between (k : CircuitData) : State := withCircuit 0 k (base .inService)

/-- Nothing waits at the frame start: the counts go on, or the generator steps and a proof frame is chosen. -/
theorem test_frame_start :
    (let s := between (circuitAt .occupied)
     s.service.state ≠ .powerUp ∧ s.track.scanning = false ∧ s.track.ops = [] ∧ s.track.reversals + 1 < s.times.reverse ∧
       s.track.proofs + 1 < s.times.proof ∧ (s.circuit 1).live = none ∧
       (let t := after .scanFrameStart s
        t.track.gen = 1 ∧ t.track.reversals = 1 ∧ t.track.proofs = 1 ∧ t.track.toMeasure = [0] ∧
          (t.circuit 0).feed = some .positive ∧ (t.circuit 0).masks = [])) ∧
    (let s₀ := between (circuitAt .clear)
     let s := { s₀ with track := { s₀.track with reversals := 7, proofs := 19, proofNow := some 0, cursor := some 5 } }
     s.times.reverse ≤ s.track.reversals + 1 ∧ s.times.proof ≤ s.track.proofs + 1 ∧ 0 < s.times.proof ∧
       (let t := after .scanFrameStart s
        t.track.gen = 2 ∧ t.track.reversals = 0 ∧ t.track.proofs = 0 ∧ t.track.proofNow = some 0 ∧
          t.track.cursor = some 0 ∧ (t.circuit 0).feed = none ∧ (t.circuit 0).applied = some .positive ∧
          (t.circuit 0).masks = [.proof, .restore])) ∧
    (let s := { between (circuitAt .clear) with times := { Times.reset with proof := 0 } }
     let t := after .scanFrameStart { s with track := { s.track with gen := 2, proofNow := some 1 } }
     t.track.proofNow = none ∧ t.track.cursor = none ∧ (t.circuit 0).feed = some .negative ∧
       (t.circuit 0).masks = [.reversal]) := by decide +kernel

/-- Eight circuits of a window fill a frame of 50 ms: 8 × (0.2 ms + 5.8 ms) and 2 ms; one sample more extends it (R50). -/
def eight (last : Nat) : State :=
  let k := fun w => { circuitAt .clear with live := some { TcRecord.default with window := w } }
  let s := base .inService
  { s with track := { s.track with
    circuits := Vector.ofFn fun c => if c.val < 7 then k 58 else if c.val = 7 then k last else CircuitData.reset } }

theorem test_frame_length :
    (let t := after .scanFrameStart (eight 58)
     t.track.actual = 50 ∧ t.track.extended = false) ∧
    (let t := after .scanFrameStart (eight 59)
     t.track.actual = 51 ∧ t.track.extended = true) := by decide +kernel

/-- One request waits at a frame start. -/
def waiting (k : CircuitData) (o : TrackOp) : State :=
  let s := between k
  { s with track := { s.track with ops := [o] } }

theorem test_load_taken :
    (let t := after .scanFrameStart (waiting (circuitAt (.failed .proof)) (.load 0 TcRecord.default))
     (t.circuit 0).state = .occupied ∧ (t.circuit 0).q = 8000 ∧ (t.circuit 0).live = some TcRecord.default ∧
       t.inbox.entries = [(.track, .track 0 none)]) ∧
    (let t := after .scanFrameStart (waiting CircuitData.reset (.load 0 TcRecord.default))
     (waiting CircuitData.reset (.load 0 TcRecord.default)).track.ops = [.load 0 TcRecord.default] ∧
       (t.circuit 0).state = .occupied ∧ (t.circuit 0).masks = [] ∧ t.inbox.entries = []) ∧
    (let t := after .scanFrameStart (waiting (circuitAt .clear) .erase)
     (t.circuit 0).state = .disabled ∧ t.track.toMeasure = []) := by decide +kernel

theorem test_tune_taken :
    (let s := waiting (circuitAt .clear) (.tune 0 [(.ref, 600)])
     (s.circuit 0).live = some { TcRecord.default with window := 8 } ∧
       (let t := after .scanFrameStart s
        (t.circuit 0).q = 9600 ∧ (t.circuit 0).masks = [.tune] ∧ (t.circuit 0).stale = true ∧
          (t.circuit 0).state = .clear)) ∧
    (let t := after .scanFrameStart (waiting { circuitAt .clear with high := 4 } (.tune 0 [(.pick, 170)]))
     (t.circuit 0).q = 8000 ∧ (t.circuit 0).masks = [] ∧ (t.circuit 0).high = 4 ∧
       (t.circuit 0).stored = some { TcRecord.default with window := 8, pick := 170 }) := by decide +kernel

theorem test_clear_taken :
    (∀ f ∈ [FailCause.joint, .proof],
      let t := after .scanFrameStart (waiting (circuitAt (.failed f)) (.clear 0))
      (t.circuit 0).state = .occupied ∧ t.inbox.entries = [(.track, .track 0 none)]) ∧
    (∀ st ∈ [TrackState.failed .lowRef, .clear],
      let t := after .scanFrameStart (waiting (circuitAt st) (.clear 0))
      (t.circuit 0).state = st ∧ t.inbox.entries = []) := by decide +kernel

/-- Circuits 1 and 2 are to be measured; eight samples of a value. -/
def measuring (k : CircuitData) : State :=
  let s := withCircuit 1 (circuitAt .clear) (between k)
  { s with track := { s.track with scanning := true, started := 999950, toMeasure := [0, 1] } }

def eightOf (v : Int) : List Sample := List.replicate 8 (BitVec.ofInt 12 v)

theorem test_measurement :
    (measuring (circuitAt .clear)).track.toMeasure = [0, 1] ∧
      ((measuring (circuitAt .clear)).circuit 0).live = some { TcRecord.default with window := 8 } ∧
      (eightOf 256).length = 8 ∧
      ((after (.measurementComplete (eightOf 256)) (measuring (circuitAt .clear))).circuit 0).taken =
        some ⟨2048, 8, 256, 312, 312, some .positive, false, []⟩ ∧
      ((after (.measurementComplete (eightOf (-256)))
        (measuring { circuitAt .clear with applied := some .negative })).circuit 0).taken =
        some ⟨-2048, 8, -256, -312, 312, some .negative, false, []⟩ ∧
      ((after (.measurementComplete (eightOf 2047)) (measuring (circuitAt .clear))).circuit 0).taken =
        some ⟨16376, 8, 2047, 2500, 2500, some .positive, true, []⟩ ∧
      ((after (.measurementComplete (eightOf (-2048))) (measuring { circuitAt .clear with masks := [.proof] })).circuit
        0).taken = some ⟨-16384, 8, -2048, -2500, -2500, none, true, [.proof]⟩ := by decide +kernel

/-- The frame is complete at 50 ms with every circuit measured, and not before. -/
theorem test_frame_complete :
    (let s₀ := measuring { circuitAt .clear with taken := some ⟨8, 8, 1, 1, 1, none, false, []⟩, stale := true }
     let s := { s₀ with track := { s₀.track with toMeasure := [], ops := [.tune 1 []] } }
     let t := after .scanFrameComplete s
     s.track.scanning = true ∧ s.track.started + s.track.actual = s.now ∧ t.track.scanning = false ∧
       (t.circuit 0).published = some ⟨8, 8, 1, 1, 1, none, false, []⟩ ∧ (t.circuit 0).stale = false ∧
       (t.circuit 1).published = none) ∧
    (let s₀ := measuring { circuitAt .clear with stale := true, retuned := true }
     let s := { s₀ with track := { s₀.track with toMeasure := [] } }
     ((after .scanFrameComplete s).circuit 0).stale = true) ∧
    (let s := measuring (circuitAt .clear)
     s.track.toMeasure ≠ [] ∧ after .scanFrameComplete s = s) ∧
    (let s₀ := measuring (circuitAt .clear)
     let s := { s₀ with track := { s₀.track with toMeasure := [], started := 999951 } }
     s.now < s.track.started + s.track.actual ∧ after .scanFrameComplete s = s) := by decide +kernel

/-- The circuit after eight equal samples. -/
def judged (k : CircuitData) (v : Int) : CircuitData :=
  (after (.measurementComplete (eightOf v)) (measuring k)).circuit 0

/-- With R 500 mV the thresholds are D 187 and U 312 (R64); samples of 153 give 186 mV, 154 give 187, 255 give 311,
256 give 312, −33 give −40 and −34 give −41. -/
theorem test_verdicts :
    (circuitAt .clear).masks = [] ∧
      (judged (circuitAt .clear) 153).state = .occupied ∧ (judged (circuitAt .clear) 154).state = .clear ∧
      (judged { circuitAt .occupied with high := 9 } 256).state = .clear ∧
      (judged { circuitAt .occupied with high := 9 } 255).high = 0 ∧
      (judged { circuitAt .occupied with high := 8 } 256).high = 9 ∧
      (judged { circuitAt .occupied with reverse := 1 } (-34)).state = .failed .joint ∧
      (judged { circuitAt .occupied with reverse := 1 } (-33)).reverse = 0 ∧
      (judged (circuitAt .occupied) (-34)).reverse = 1 ∧
      (judged { circuitAt .occupied with low := 255 } 0).low = 255 ∧
      (after (.measurementComplete (eightOf (-34))) (measuring { circuitAt .clear with reverse := 1 })).inbox.entries =
        [(.track, .track 0 (some .joint))] := by decide +kernel

/-- Q moves by a thirty-second of its distance (R68); the low reference is 60 mV and its recovery 67 mV (R69, R70). -/
theorem test_tracking :
    (judged (circuitAt .clear) 256).q = 7906 ∧ (judged (circuitAt .clear) 256).state = .clear ∧
      (judged { circuitAt .clear with q := 960 } 41).state = .failed .lowRef ∧
      (judged { circuitAt .clear with q := 976 } 42).state = .clear ∧
      (judged (circuitAt .clear) 2047).q = 8000 ∧
      (judged { circuitAt (.failed .lowRef) with q := 1071 } 82).state = .occupied ∧
      (judged { circuitAt (.failed .lowRef) with q := 1040 } 82).state = .failed .lowRef ∧
      (judged (circuitAt (.failed .lowRef)) 2047).q = 8000 := by decide +kernel

/-- In a proof frame 30 mV fails the circuit and 29 does not (R55); other masks, and latched failures, change nothing. -/
theorem test_proof_and_masked :
    (judged { circuitAt .clear with masks := [.proof] } 25).state = .failed .proof ∧
      (judged { circuitAt .occupied with masks := [.proof] } (-25)).state = .failed .proof ∧
      (judged { circuitAt .clear with masks := [.proof] } 24).state = .clear ∧
      (judged { circuitAt .clear with masks := [.reversal] } 0).state = .clear ∧
      (judged (circuitAt (.failed .joint)) 256).state = .failed .joint ∧
      (judged (circuitAt (.failed .proof)) 256).q = 8000 := by decide +kernel

/-! ### Bells. BEATMIN is 30 ms, BEATMAX 400, JOIN 450, END 1800. -/

/-- Port A as given. -/
def onPort (v : ServiceState) (k : PortData) : State := (base v).setPort .a k

/-- The second sample of a sense that the first, 20 ms ago, saw too. -/
def sampled (k : PortData) (v : Sense) (current : Bool) : PortData :=
  (after (.bellSenseSample .a current) (onPort .inService { k with lastSample := some (v, 999980) })).port .a

/-- A port on which a sense has been taken. -/
def sensedAt (v : Sense) : PortData := { PortData.reset with sense := v, sensed := true }

theorem test_sense :
    (base .inService).service.state ≠ .powerUp ∧
      (sampled PortData.reset .idle true).sensed = false ∧ (sampled PortData.reset .idle true).lastSample =
        some (.incoming, 1000000) ∧
      ((after (.bellSenseSample .a true) (onPort .inService PortData.reset)).port .a).lastSample =
        some (.incoming, 1000000) ∧
      (sampled PortData.reset .incoming true).sense = .incoming ∧
      (sampled PortData.reset .incoming true).pulses = [] ∧
      (sampled (sensedAt .idle) .incoming true).pulses = [⟨999980, none, false, false⟩] ∧
      (sampled (sensedAt .incoming) .incoming true).pulses = [] ∧
      (sampled (sensedAt .clash) .idle false).pulses = [] ∧
      (sampled (sensedAt .outgoing) .incoming true).pulses = [] ∧
      (sampled { sensedAt .idle with drive := true } .clash false).pulses = [] ∧
      (sampled { PortData.reset with drive := true } .clash false).clash = true ∧
      (sampled { PortData.reset with drive := true } .idle false).clash = false ∧
      (sampled { sensedAt .clash with drive := true } .idle false).clash = true := by decide +kernel

/-- A pulse that ends after 30 ms is kept, one that ends after 29 is noise, and a beat is kept; so too behind others that
wait. -/
theorem test_pulse_end :
    (let ended : Pulse := ⟨999900, some 999940, true, false⟩
     (sampled { sensedAt .incoming with pulses := [ended, ⟨999950, none, false, false⟩] } .idle
       false).pulses = [ended, ⟨999950, some 999980, false, false⟩] ∧
     (sampled { sensedAt .incoming with pulses := [ended, ⟨999951, none, false, false⟩] } .idle
       false).pulses = [ended] ∧
     (sampled { sensedAt .incoming with pulses := [ended] } .idle false).pulses = [ended]) ∧
    (sampled { sensedAt .incoming with pulses := [⟨999950, none, false, false⟩] } .idle false).pulses =
      [⟨999950, some 999980, false, false⟩] ∧
    (sampled { sensedAt .incoming with pulses := [⟨999951, none, false, false⟩] } .idle false).pulses =
      [] ∧
    (sampled { sensedAt .incoming with pulses := [⟨999970, none, true, false⟩] } .idle false).pulses =
      [⟨999970, some 999980, true, false⟩] := by decide +kernel

/-- A pulse that has lasted BEATMIN now. -/
def pulse : Pulse := ⟨999970, none, false, false⟩

def codeOf (d : Dir) (groups : List Nat) (lastEnd : Option Nat) : Code :=
  { newCode d with groups := groups, lastEnd := lastEnd }

/-- The port after the start of a beat on it, under an owner with a code. -/
def beaten (o : Owner) (c : Option Code) : PortData :=
  (after (.startOfBeat .a) (onPort .inService { PortData.reset with pulses := [pulse], owner := o, code := c })).port .a

/-- The next beat starts 450 ms after the end of the last one and joins its group, 451 ms after and begins another. -/
theorem test_start_of_beat :
    pulse.beat = false ∧ pulse.start + 30 = (base .inService).now ∧
      (beaten .free none).code = some (newCode .incoming) ∧ (beaten .free none).owner = .incoming ∧
      (beaten .free none).sounder = .stroke 1000060 ∧
      (beaten .incoming (some (codeOf .incoming [1, 8] (some 999520)))).code = some (codeOf .incoming [1, 9] none) ∧
      (beaten .incoming (some (codeOf .incoming [1, 9] (some 999520)))).code =
        some { codeOf .incoming [1, 9] none with spoil := .present none } ∧
      (beaten .incoming (some (codeOf .incoming [1, 1, 1, 1] (some 999519)))).code =
        some (codeOf .incoming [1, 1, 1, 1, 1] none) ∧
      (beaten .incoming (some (codeOf .incoming [1, 1, 1, 1, 1] (some 999519)))).code =
        some { codeOf .incoming [1, 1, 1, 1, 1] none with spoil := .present none, overflow := true } ∧
      (beaten .incoming (some { codeOf .incoming [1, 9] (some 999520) with spoil := .present (some .held) })).code =
        some { codeOf .incoming [1, 9] none with spoil := .present (some .held) } := by decide +kernel

/-- A pulse that ended after 30 ms waits, and BEATMIN is raised to 100 ms: it becomes a beat. One in progress does not. -/
theorem test_start_of_beat_after_times :
    let s := fun (u : Pulse) =>
      { onPort .inService { PortData.reset with pulses := [u] } with times := { Times.reset with beatmin := 100 } }
    let owner := fun (u : Pulse) => ((after (.startOfBeat .a) (s u)).port .a).owner
    owner { pulse with ended := some 1000000 } = .incoming ∧ owner pulse = .free := by decide +kernel

theorem test_start_of_beat_interrupts :
    let s := onPort .inService { PortData.reset with
      pulses := [pulse], owner := .outgoing, code := some (codeOf .outgoing [2] (some 999520)) }
    let k := beaten .outgoing (some (codeOf .outgoing [2] (some 999520)))
    (after (.startOfBeat .a) s).inbox.exchange = (after (.startOfBeat .a) s).inbox.codes ∧
    k.sent = some ⟨[2], .erroneous (some .interrupted), ⟨0, 0, true⟩, 1000000⟩ ∧ k.code = some (newCode .incoming) ∧
      k.owner = .incoming ∧
      (beaten .outgoing (some { codeOf .outgoing [2] (some 999520) with spoil := .present none })).sent =
        some ⟨[2], .erroneous none, ⟨0, 0, true⟩, 1000000⟩ := by decide +kernel

/-- FOLLOW rings with the beat; port C takes its beats as incoming while the box is switched out. -/
theorem test_start_of_beat_follow :
    (let s := { onPort .inService { PortData.reset with pulses := [pulse] } with
       times := { Times.reset with localmode := .follow } }
     ((after (.startOfBeat .a) s).port .a).sounder = .follow) ∧
    (let s := (base .switchedOut).setPort .c { PortData.reset with pulses := [pulse] }
     ((after (.startOfBeat .c) s).port .c).code = some (newCode .incoming)) := by decide +kernel

theorem test_end_of_beat :
    let u : Pulse := ⟨999900, some 999990, true, false⟩
    let k : PortData := { PortData.reset with
      pulses := [u, pulse], owner := .incoming, code := some (newCode .incoming), sounder := .follow }
    let t := after (.endOfBeat .a) (onPort .inService k)
    (t.port .a).pulses = [pulse] ∧ (t.port .a).code = some { newCode .incoming with lastEnd := some 999990 } ∧
      (t.port .a).sounder = .off ∧
      ((after (.endOfBeat .a) (onPort .inService { k with sounder := .stroke 7 })).port .a).sounder = .stroke 7 := by
  decide +kernel

/-- A beat is held when it has lasted 400 ms and goes on; one that ended at 400 ms was not. -/
theorem test_beat_held :
    let k := fun (u : Pulse) (sp : Spoil) => ({ PortData.reset with
      pulses := [u], owner := .incoming, code := some { newCode .incoming with spoil := sp },
      sounder := .follow } : PortData)
    let held := fun u sp => (after (.beatHeld .a) (onPort .inService (k u sp))).port .a
    (held ⟨999600, none, true, false⟩ .absent).code = some { newCode .incoming with spoil := .present (some .held) } ∧
      (held ⟨999600, none, true, false⟩ .absent).sounder = .off ∧
      (held ⟨999600, none, true, false⟩ (.present none)).code = some { newCode .incoming with spoil := .present none } ∧
      (held ⟨999000, some 999401, true, false⟩ .absent).pulses = [⟨999000, some 999401, true, true⟩] ∧
      (held ⟨999000, some 999400, true, false⟩ .absent).pulses = [⟨999000, some 999400, true, false⟩] := by decide +kernel

theorem test_stroke_end :
    ((after (.strokeEnd .a) (onPort .inService { PortData.reset with sounder := .stroke 1000000 })).port .a).sounder = .off ∧
      ((after (.strokeEnd .a) (onPort .inService { PortData.reset with sounder := .stroke 1000001 })).port .a).sounder =
        .stroke 1000001 := by decide +kernel

/-- A code 1-2 whose last beat ended `wait` ago; the table gives 1-2 as OFFER 3. -/
def completing (wait : Nat) (o : Owner) (d : Dir) (groups : List Nat) (sp : Spoil) : State :=
  let s := onPort .inService { PortData.reset with
    owner := o
    code := some { codeOf d groups (some (1000000 - wait)) with spoil := sp }
    clash := true
    drive := true
    out := if o = .outgoing then some ⟨999900, true⟩ else none }
  { s with codes := [⟨[1, 2], .offer 3⟩] }

theorem test_code_complete :
    (let t := after (.codeComplete .a) (completing 1800 .incoming .incoming [1, 2] .absent)
     (t.port .a).rcvd = some ⟨[1, 2], .meaning (.offer 3), ⟨0, 0, true⟩, 1000000⟩ ∧ (t.port .a).owner = .free ∧
       t.inbox.codes.length = 1 ∧ t.inbox.exchange = t.inbox.codes ∧
       t.inbox.entries = [(.bell, .bell .a .incoming [1, 2] (.meaning (.offer 3)))]) ∧
    (let s := completing 1799 .incoming .incoming [1, 2] .absent
     after (.codeComplete .a) s = s) ∧
    ((after (.codeComplete .a) (completing 1800 .incoming .incoming [2, 1] .absent)).port .a).rcvd =
      some ⟨[2, 1], .unknown, ⟨0, 0, true⟩, 1000000⟩ ∧
    ((after (.codeComplete .a) (completing 1800 .outgoing .outgoing [1, 2] (.present none))).port .a).sent =
      some ⟨[1, 2], .erroneous none, ⟨0, 0, true⟩, 1000000⟩ := by decide +kernel

theorem test_collision :
    let s := completing 0 .outgoing .outgoing [1, 2] .absent
    let t := after (.collision .a) s
    (s.port .a).clash = true ∧ (s.port .a).out ≠ none ∧ (t.port .a).drive = false ∧
      t.inbox.entries = [(.bell, .clash .a), (.bell, .bell .a .outgoing [1, 2] (.erroneous (some .clashed)))] ∧
      ((after (.collision .a) (completing 0 .outgoing .outgoing [1, 2] (.present (some .held)))).port .a).sent =
        some ⟨[1, 2], .erroneous (some .held), ⟨0, 0, true⟩, 1000000⟩ := by decide +kernel

/-- A press or a release waits for port A. -/
def tapping (v : ServiceState) (press : Bool) (k : PortData) : State :=
  let s := onPort v k
  s.setInbox { s.inbox with tappers := [(.b, true), (.a, press)] }

def pressed (v : ServiceState) (k : PortData) : PortData :=
  (after (.tapperPress .a) (tapping v true k)).port .a

theorem test_tapper_press :
    (tapping .inService true PortData.reset).tapperWaits .a true ∧
      (pressed .inService PortData.reset).drive = true ∧ (pressed .inService PortData.reset).owner = .outgoing ∧
      (pressed .configure PortData.reset).drive = false ∧ (pressed .switchedOut PortData.reset).drive = false ∧
      (pressed .inService { PortData.reset with held := true }).drive = false ∧
      (pressed .inService { PortData.reset with out := some ⟨999990, false⟩ }).out = some ⟨999990, true⟩ ∧
      (pressed .inService { PortData.reset with owner := .outgoing, code := some (codeOf .outgoing [8] (some 999550)) }).code =
        some (codeOf .outgoing [9] none) ∧
      (pressed .inService { PortData.reset with
        owner := .outgoing, code := some (codeOf .outgoing [1, 1, 1, 1] (some 999549)) }).code =
        some (codeOf .outgoing [1, 1, 1, 1, 1] none) ∧
      (pressed .inService { PortData.reset with owner := .outgoing, code := some (codeOf .outgoing [9] (some 999550)) }).code =
        some { codeOf .outgoing [9] none with spoil := .present none } ∧
      (pressed .inService { PortData.reset with
        owner := .outgoing, code := some (codeOf .outgoing [1, 1, 1, 1, 1] (some 999549)) }).code =
        some { codeOf .outgoing [1, 1, 1, 1, 1] none with spoil := .present none, overflow := true } ∧
      (pressed .inService { PortData.reset with owner := .incoming, code := some (newCode .incoming) }).code =
        some { newCode .incoming with suppressed := true } := by decide +kernel

theorem test_tapper_release :
    let k := fun start => ({ PortData.reset with
      out := some ⟨start, true⟩, drive := true, owner := .outgoing, code := some (newCode .outgoing) } : PortData)
    let t := fun start => (after (.tapperRelease .a) (tapping .inService false (k start))).port .a
    (tapping .inService false (k 999970)).tapperWaits .a false ∧ (t 999970).drive = false ∧
      (t 999970).code = some { newCode .outgoing with lastEnd := some 1000000 } ∧ (t 999971).drive = true ∧
      (t 999971).out = some ⟨999971, false⟩ ∧
      ((after (.tapperRelease .a) (tapping .inService false { PortData.reset with held := true })).port .a).held = false := by
  decide +kernel

theorem test_stretch_and_cut :
    let k := fun start made => ({ PortData.reset with
      out := some ⟨start, made⟩, drive := true, owner := .outgoing, code := some (newCode .outgoing) } : PortData)
    ((after (.stretchEnd .a) (onPort .inService (k 999970 false))).port .a).drive = false ∧
      ((after (.stretchEnd .a) (onPort .inService (k 999971 false))).port .a).drive = true ∧
      ((after (.tapperHeldCut .a) (onPort .inService (k 999600 true))).port .a).held = true ∧
      ((after (.tapperHeldCut .a) (onPort .inService (k 999600 true))).port .a).code =
        some { newCode .outgoing with lastEnd := some 1000000, spoil := .present (some .held) } ∧
      ((after (.tapperHeldCut .a) (onPort .inService (k 999601 true))).port .a).held = false ∧
      ((after (.tapperHeldCut .a) (onPort .inService { k 999600 true with
        code := some { newCode .outgoing with spoil := .present none } })).port .a).code =
        some { newCode .outgoing with lastEnd := some 1000000, spoil := .present none } := by decide +kernel

/-- A through port with a pulse that becomes a beat, the path owned as given and the other port as given. -/
def through (path : Option Sec) (k k' : PortData) : State :=
  let s := ((base .switchedOut).setPort .a k).setPort .b k'
  s.setService { s.service with path := path }

theorem test_through_beat :
    Sec.a.throughPair = some .b ∧
    (let t := after (.startOfBeat .a) (through none { PortData.reset with pulses := [pulse] } PortData.reset)
     t.service.path = some .a ∧ (t.port .b).drive = true ∧ (t.port .b).rpt = some ⟨1000000, none⟩ ∧
       (t.port .a).code = some (newCode .thru)) ∧
    (let t := after (.startOfBeat .a) (through none { PortData.reset with pulses := [pulse] }
       { PortData.reset with owner := .outgoing })
     t.service.path = some .a ∧ (t.port .b).drive = false ∧
       (t.port .a).code = some { newCode .thru with unrepeated := true }) ∧
    (let t := after (.startOfBeat .a) (through (some .b) { PortData.reset with pulses := [pulse] } PortData.reset)
     t.service.path = some .b ∧ (t.port .b).drive = false ∧ t.inbox.entries = [(.service, .clash .a)]) := by decide +kernel

theorem test_through_beat_ends :
    let k : PortData := { PortData.reset with
      pulses := [⟨999900, some 999990, true, false⟩], owner := .incoming, code := some (newCode .thru) }
    (let t := after (.endOfBeat .a) (through (some .a) k { PortData.reset with rpt := some ⟨999930, none⟩, drive := true })
     (t.port .b).rpt = some ⟨999930, some 1000020⟩ ∧ t.service.path = some .a) ∧
    (let t := after (.endOfBeat .a) (through (some .a) k PortData.reset)
     t.service.path = none) := by decide +kernel

theorem test_repeat_end :
    let k := fun r => ({ PortData.reset with rpt := some r, drive := true } : PortData)
    (let t := after (.repeatEnd .b) (through (some .a) PortData.reset (k ⟨999900, some 1000000⟩))
     (t.port .b).drive = false ∧ t.service.path = none) ∧
    (let s := through (some .a) PortData.reset (k ⟨999900, some 1000001⟩)
     after (.repeatEnd .b) s = s) ∧
    (let t := after (.repeatEnd .b) (through (some .a) { PortData.reset with pulses := [⟨999570, none, true, false⟩] }
       (k ⟨999600, none⟩))
     (t.port .b).drive = false ∧ t.service.path = some .a) ∧
    (let s := through (some .a) PortData.reset (k ⟨999601, none⟩)
     after (.repeatEnd .b) s = s) := by decide +kernel

theorem test_repeat_clash :
    let k : PortData := { PortData.reset with rpt := some ⟨999900, none⟩, drive := true, clash := true }
    let beat := fun d => ({ PortData.reset with
      pulses := [⟨999870, none, true, false⟩], owner := .incoming, code := some (newCode d) } : PortData)
    (let t := after (.repeatClash .b) (through (some .a) (beat .thru) k)
     (t.port .b).drive = false ∧ (t.port .a).code = some { newCode .thru with unrepeated := true } ∧
       t.service.path = some .a ∧ t.inbox.entries = [(.service, .clash .b)]) ∧
    (let t := after (.repeatClash .b) (through (some .a) (beat .incoming) k)
     (t.port .a).code = some (newCode .incoming)) := by decide +kernel

theorem test_drive_starts :
    let s := tapping .inService true PortData.reset
    exec (.tapperPress .a) s = .next (after (.tapperPress .a) s) ∧ (s.port .a).drive = false ∧
      ((after (.tapperPress .a) s).port .a).drive = true :=
  ⟨rfl, by decide +kernel⟩

/-! ### Block sections -/

/-- Section A as given, its switch about to arrive. -/
def switching (k : SectionData) (i : Ind) : State :=
  let s := withSection .a k (base .inService)
  s.setInbox { s.inbox with switches := [(.b, .lc), (.a, i)] }

/-- A section whose offer asks circuit 1 CLEAR and lever 1 at N. -/
def offered : SectionData :=
  { secAt .offerIn with record := some ⟨[0], [0], [], false⟩, train := some (trainOf true .offered) }

theorem test_switch_LC :
    (let s := (withCircuit 0 (circuitAt .clear) (switching offered .lc)).setLever 0 (leverAt .nFree)
     s.switchWaits .a .lc ∧ (s.circuit 0).state = .clear ∧ (s.lever 0).pos = .nFree ∧
       (let t := after (.arrivalAtLC .a) s
        (t.section_ .a).state = .clearIn ∧ (t.section_ .a).drive = .lc ∧
          (t.section_ .a).train = some { trainOf true .accepted with accepted := some ⟨0, 0, true⟩ })) ∧
    (let s := (withCircuit 0 (circuitAt .occupied) (switching offered .lc)).setLever 0 (leverAt .nFree)
     (after (.arrivalAtLC .a) s).section_ .a = { offered with position := .lc }) ∧
    (let s := (withCircuit 0 (circuitAt .clear) (switching offered .lc)).setLever 0 (leverAt .rLocked)
     (after (.arrivalAtLC .a) s).section_ .a = { offered with position := .lc }) ∧
    (let s₀ := (withCircuit 0 (circuitAt .occupied) (switching offered .lc)).setLever 0 (leverAt .nFree)
     let s := s₀.setInbox { s₀.inbox with progress := [⟨.b, 0, .occupied⟩, ⟨.a, 0, .clear⟩, ⟨.a, 0, .occupied⟩] }
     ((after (.arrivalAtLC .a) s).section_ .a).state = .clearIn ∧
       ((after (.arrivalAtLC .a) (after (.progressCheck .a) s)).section_ .a).state = .offerIn) ∧
    (let s := switching (secAt .blocked) .lc
     (after (.arrivalAtLC .a) s).section_ .a = { secAt .blocked with position := .lc }) := by decide +kernel

theorem test_switch_TOL :
    (let s := switching { secAt .clearIn with train := some (trainOf true .accepted) } .tol
     s.switchWaits .a .tol ∧
       (let t := after (.arrivalAtTOL .a) s
        (t.section_ .a).state = .enteredIn ∧ (t.section_ .a).drive = .tol ∧
          (t.section_ .a).train = some { trainOf true .entered with entered := some ⟨0, 0, true⟩ })) ∧
    (∀ st ∈ [SecState.blocked, .unofferedClear],
      ((after (.arrivalAtTOL .a) (switching (secAt st) .tol)).section_ .a).state = .protected_) ∧
    (∀ st ∈ [SecState.offerIn, .offerOut, .clearOut, .enteredOut],
      let t := after (.arrivalAtTOL .a) (switching { secAt st with train := some (trainOf false .offered) } .tol)
      (t.section_ .a).state = .protected_ ∧ (t.section_ .a).train = none ∧
        (t.inbox.entries.take 2 = [(.block, .change .a st .protected_ (some 7) false),
          (.block, .train 7 .a false 3 .cancelled ⟨0, 0, true⟩ none)])) ∧
    ∀ st ∈ [SecState.enteredIn, .protected_, .closed, .through],
      (after (.arrivalAtTOL .a) (switching (secAt st) .tol)).section_ .a = { secAt st with position := .tol } := by
  decide +kernel

theorem test_switch_LB :
    (let k := { secAt .clearIn with train := some (trainOf true .accepted) }
     (switching k .lb).switchWaits .a .lb ∧
       ((after (.arrivalAtLB .a) (switching { k with enteringHeard := true } .lb)).section_ .a).state = .enteredIn ∧
       ((after (.arrivalAtLB .a) (switching { k with cancelHeard := true } .lb)).section_ .a).state = .blocked ∧
       (after (.arrivalAtLB .a) (switching k .lb)).section_ .a = { k with position := .lb }) ∧
    (let k := { secAt .enteredIn with train := some (trainOf true .cleared) }
     ((after (.arrivalAtLB .a) (switching k .lb)).section_ .a).state = .blocked ∧
       (after (.arrivalAtLB .a) (switching k .lb)).inbox.entries.getLast? =
         some (.block, .train 7 .a true 3 .complete ⟨0, 0, true⟩ none)) ∧
    (let k := { secAt .enteredIn with train := some (trainOf true .entered) }
     ((after (.arrivalAtLB .a) (switching { k with released := true } .lb)).section_ .a).state = .blocked ∧
       (after (.arrivalAtLB .a) (switching k .lb)).section_ .a = { k with position := .lb }) ∧
    ((after (.arrivalAtLB .a) (switching (secAt .protected_) .lb)).section_ .a).state = .blocked ∧
    ∀ st ∈ [SecState.closed, .blocked, .offerOut, .clearOut, .unofferedClear, .enteredOut, .offerIn, .through],
      (after (.arrivalAtLB .a) (switching (secAt st) .lb)).section_ .a = { secAt st with position := .lb } := by
  decide +kernel

/-- A code with a meaning is delivered to section A, as given. -/
def delivered (k : SectionData) (d : Dir) (m : Meaning) : State :=
  let h := fun p => (⟨p, d, ⟨[1], .meaning m, ⟨0, 0, true⟩, 999999⟩, false⟩ : CodeHanded)
  let s := withSection .a k { base .inService with lastTrain := 999 }
  s.setInbox { s.inbox with codes := [h .b, h .a] }

def took (k : SectionData) (d : Dir) (m : Meaning) : SectionData :=
  (after (if d = .outgoing then .outCodeTaken .a else .inCodeTaken .a) (delivered k d m)).section_ .a

theorem test_out_code :
    (delivered (secAt .blocked) .outgoing (.offer 5)).codeWaits .a
        ⟨.a, .outgoing, ⟨[1], .meaning (.offer 5), ⟨0, 0, true⟩, 999999⟩, false⟩ ∧
      took (secAt .blocked) .outgoing (.offer 5) = { secAt .offerOut with
        train := some ⟨1, false, 5, .offered, ⟨0, 0, true⟩, none, none, 0⟩, sentMark := some .taken } ∧
      took { secAt .offerIn with train := some (trainOf true .offered) } .outgoing (.offer 5) =
        { secAt .blocked with sentMark := some .taken } ∧
      took { secAt .offerOut with train := some (trainOf false .offered) } .outgoing .cancel =
        { secAt .blocked with sentMark := some .taken } ∧
      took (secAt .blocked) .outgoing .cancel = { secAt .blocked with sentMark := some .outOfTurn } ∧
      took (secAt .protected_) .outgoing (.offer 5) = { secAt .protected_ with sentMark := some .outOfTurn } ∧
      took (secAt .closed) .outgoing (.offer 5) = secAt .closed ∧
      took (secAt .through) .outgoing .attention = secAt .through := by decide +kernel

theorem test_crossed_offers :
    ((after (.outCodeTaken .a) (delivered { secAt .offerIn with train := some (trainOf true .offered) } .outgoing
      (.offer 5))).inbox.entries = [(.block, .crossed .a), (.block, .change .a .offerIn .blocked (some 7) false),
        (.block, .train 7 .a true 3 .void ⟨0, 0, true⟩ none)]) := by decide +kernel

theorem test_in_code :
    (took (secAt .blocked) .incoming (.offer 1)).state = .offerIn ∧
      took { secAt .offerOut with train := some (trainOf false .offered) } .incoming (.offer 1) =
        { secAt .blocked with rcvdMark := some .taken } ∧
      took { secAt .offerIn with train := some (trainOf true .offered) } .incoming .cancel =
        { secAt .blocked with rcvdMark := some .taken } ∧
      took (secAt .clearIn) .incoming .cancel = { secAt .clearIn with cancelHeard := true, rcvdMark := some .taken } ∧
      took { secAt .clearIn with cancelHeard := true } .incoming .entering =
        { secAt .clearIn with enteringHeard := true, rcvdMark := some .taken } ∧
      took { secAt .clearIn with enteringHeard := true } .incoming .cancel =
        { secAt .clearIn with enteringHeard := true, rcvdMark := some .outOfTurn } ∧
      took { secAt .clearIn with enteringHeard := true } .incoming .entering =
        { secAt .clearIn with enteringHeard := true, rcvdMark := some .outOfTurn } ∧
      took (secAt .enteredIn) .incoming .outOfSection = { secAt .enteredIn with rcvdMark := some .outOfTurn } ∧
      took (secAt .through) .thru (.offer 1) = secAt .through ∧
      took (secAt .blocked) .thru (.offer 1) = { secAt .blocked with rcvdMark := some .outOfTurn } := by decide +kernel

/-- A sample of the indicator of section A. -/
def shown (k : SectionData) (c : IndClass) : SectionData :=
  (after (.indicatorSample .a c) (withSection .a k (base .inService))).section_ .a

theorem test_indicator_sample :
    shown (secAt .blocked) .outside = { secAt .blocked with unsettled := some 1000000 } ∧
      shown (secAt .blocked) (.valid .lb) = { secAt .blocked with showing := some (.lb, 1000000) } ∧
      shown { secAt .blocked with showing := some (.lc, 5), unsettled := some 5 } (.valid .lc) =
        { secAt .blocked with showing := some (.lc, 5), unsettled := some 5 } ∧
      shown { secAt .blocked with showing := some (.lc, 5) } (.valid .tol) =
        { secAt .blocked with showing := some (.tol, 1000000), unsettled := some 1000000 } := by decide +kernel

/-- A class shown for INDSTABLE, 200 ms, settles. -/
def settled (k : SectionData) (c : Ind) : SectionData :=
  (after (.indicatorSettled .a) (withSection .a { k with showing := some (c, 999800) } (base .inService))).section_ .a

theorem test_indicator_settled :
    (settled { secAt .offerOut with train := some (trainOf false .offered) } .lc).state = .clearOut ∧
      (settled { secAt .offerOut with train := some (trainOf false .offered) } .lc).releaseUnused = true ∧
      (settled { secAt .clearOut with train := some (trainOf false .accepted), reading := some .lc } .tol).train =
        some { trainOf false .entered with entered := some ⟨0, 0, true⟩ } ∧
      (settled { secAt .clearOut with train := some (trainOf false .accepted), reading := some .lc } .lb).state = .blocked ∧
      (settled { secAt .enteredOut with train := some (trainOf false .entered), reading := some .tol } .lb).state = .blocked ∧
      (settled { secAt .unofferedClear with reading := some .lc } .lb).state = .blocked ∧
      (settled (secAt .blocked) .lc).state = .unofferedClear ∧ (settled (secAt .blocked) .tol).reading = some .tol ∧
      (settled (secAt .protected_) .tol).state = .protected_ ∧
      (settled { secAt .blocked with unsettled := some 5 } .lb).unsettled = none ∧
      (after (.indicatorSettled .a) (withSection .a { secAt .blocked with showing := some (.lc, 999801) }
        (base .inService))).section_ .a = { secAt .blocked with showing := some (.lc, 999801) } := by decide +kernel

theorem test_reading_completes :
    (after (.indicatorSettled .a) (withSection .a { secAt .enteredOut with
      train := some (trainOf false .entered), reading := some .tol, showing := some (.lb, 999800) } (base .inService))).inbox.entries
      = [(.block, .change .a .enteredOut .blocked (some 7) false), (.block, .train 7 .a false 3 .complete ⟨0, 0, true⟩ none)] :=
  by decide +kernel

/-- The reading becomes INVALID when the unsettled time reaches 2 s. -/
theorem test_unsettled_timeout :
    (let k := { secAt .clearOut with train := some (trainOf false .accepted), releaseUnused := true }
     let t := after (.unsettledTimeout .a) (withSection .a { k with unsettled := some 998000 } (base .inService))
     t.section_ .a = { k with reading := none, releaseUnused := false } ∧
       t.inbox.entries = [(.block, .change .a .clearOut .clearOut (some 7) false)] ∧ t.inbox.readings = [.a]) ∧
    (let s := withSection .a { secAt .blocked with unsettled := some 998001 } (base .inService)
     after (.unsettledTimeout .a) s = s) ∧
    (let s := withSection .a { secAt .blocked with unsettled := some 998000, reading := none } (base .inService)
     (after (.unsettledTimeout .a) s).inbox.readings = []) := by decide +kernel

/-- An entered train in section A with arrival tracks 1 and 2 in given states, and everything waiting for the section. -/
def arriving (progress : Nat) (t₁ t₂ : TrackState) (st : SecState) (timer : Option Nat) : State :=
  let k := { secAt st with
    record := some ⟨[], [], [0, 1], true⟩, train := some { trainOf true .entered with progress := progress }, timer := timer }
  let s := withCircuit 0 (circuitAt t₁) (withCircuit 1 (circuitAt t₂) (withSection .a k ((base .inService).setLever 0
    { leverAt .rLocked with record := some ⟨.signal, [], [], some .a, none⟩ })))
  s.setInbox { s.inbox with autoTol := [.b, .a], progress := [⟨.b, 1, .clear⟩, ⟨.a, 0, .clear⟩], plungers := [.a], atR := [0] }

theorem test_block_control_arrival :
    let s := withSection .a { secAt .clearOut with releaseUnused := true } (arriving 0 .clear .clear .clearOut none)
    0 ∈ s.inbox.atR ∧ (s.lever 0).blockControl = some .a ∧
      ((after (.blockControlArrival 0) s).section_ .a).releaseUnused = false := by decide +kernel

theorem test_auto_TOL :
    (let t := after (.autoTol .a) (arriving 0 .occupied .clear .clearIn none)
     (t.section_ .a).state = .enteredIn ∧ t.inbox.autoTol = [.b] ∧
       t.inbox.entries.head? = some (.block, .change .a .clearIn .enteredIn (some 7) true)) ∧
    (let s := arriving 0 .occupied .clear .offerIn none
     .a ∈ s.inbox.autoTol ∧ (after (.autoTol .a) s).section_ .a = s.section_ .a) ∧
    (let t := after (.autoTol .a) (arriving 0 .occupied .clear .enteredIn none)
     (t.section_ .a).train.map (·.progress) = some 1 ∧ t.inbox.progress = [⟨.b, 1, .clear⟩]) := by decide +kernel

/-- Circuit 1 is a clearing track and the first arrival track of section A, under an offer, and its change to OCCUPIED waits;
the switch arrives at LC. -/
def offeredOnChange : State :=
  let k := { secAt .offerIn with record := some ⟨[], [0], [0, 1], true⟩, train := some (trainOf true .offered) }
  let s := withSection .a k (arriving 0 .occupied .clear .offerIn none)
  s.setInbox { s.inbox with switches := [(.a, .lc)] }

/-- Taken by AUTO_TOL or PROGRESS_CHECK before the arrival, the change is seen by it (R100); taken after it, it turns the
section to ENTERED_IN by auto-TOL (R109), for which PROGRESS_CHECK leaves it. -/
theorem test_one_change_taken_once :
    (∀ c ∈ [Instr.autoTol .a, .progressCheck .a],
      let t := after c offeredOnChange
      t.inbox.autoTol = [.b] ∧ t.inbox.progress = [⟨.b, 1, .clear⟩] ∧ t.blockTrack .a 0 = .occupied ∧
        ((after (.arrivalAtLC .a) t).section_ .a).state = .offerIn) ∧
    (let t := after (.arrivalAtLC .a) offeredOnChange
     (t.section_ .a).state = .clearIn ∧ (after (.progressCheck .a) t).inbox.progress = t.inbox.progress ∧
       ((after (.autoTol .a) (after (.progressCheck .a) t)).section_ .a).state = .enteredIn) := by decide +kernel

theorem test_progress :
    let r := fun p a b => ((after (.progressCheck .a) (arriving p a b .enteredIn none)).section_ .a).train.map
      fun t => (t.progress, t.stage)
    r 0 .occupied .clear = some (1, .entered) ∧ r 1 .occupied .occupied = some (2, .entered) ∧
      r 1 .clear .occupied = some (2, .cleared) ∧ r 2 .clear .clear = some (2, .cleared) ∧
      r 0 .clear .clear = some (0, .entered) ∧
      (after (.progressCheck .a) (arriving 0 .occupied .clear .enteredIn none)).inbox.progress = [⟨.b, 1, .clear⟩] := by
  decide +kernel

/-- The hand-off of a track that is a clearing track only is taken, and brings no progress check. -/
theorem test_progress_of_a_clearing_track :
    let s₀ := arriving 0 .occupied .clear .enteredIn none
    let s := s₀.setInbox { s₀.inbox with progress := [⟨.a, 2, .occupied⟩, ⟨.a, 0, .clear⟩] }
    s.blockTrack .a 0 = .clear ∧ s.blockTrack .a 1 = .clear ∧ s.blockTrack .a 2 = .occupied ∧
      (let t := after (.progressCheck .a) s
       t.section_ .a = s.section_ .a ∧ t.inbox.progress = [⟨.a, 0, .clear⟩] ∧ t.blockTrack .a 2 = .disabled ∧
         ((after (.progressCheck .a) t).section_ .a).train.map (·.progress) = some 1) := by decide +kernel

theorem test_release_plunger :
    (let t := after (.releasePlungerPress .a) (arriving 0 .occupied .clear .enteredIn none)
     (t.section_ .a).timer = some 1120000 ∧ (t.section_ .a).releases = 1 ∧
       t.inbox.entries.head? = some (.block, .release .a 1)) ∧
    (let s := arriving 0 .occupied .clear .enteredIn (some 5)
     .a ∈ s.inbox.plungers ∧ (after (.releasePlungerPress .a) s).section_ .a = s.section_ .a) ∧
    (let s := withSection .a { secAt .enteredIn with train := some (trainOf true .entered), releases := 9999 }
       (arriving 0 .clear .clear .enteredIn none)
     ((after (.releasePlungerPress .a) s).section_ .a).releases = 9999) := by decide +kernel

theorem test_emergency_timer :
    ((after (.emergencyTimerExpiry .a) (arriving 0 .clear .clear .enteredIn (some 1000000))).section_ .a).released = true ∧
      ((after (.emergencyTimerExpiry .a) (arriving 0 .clear .clear .enteredIn (some 1000001))).section_ .a).released =
        false := by decide +kernel

theorem test_acceptance_and_release :
    (let s := switching { secAt .offerIn with train := some (trainOf true .offered) } .lc
     exec (.arrivalAtLC .a) s = .next (after (.arrivalAtLC .a) s) ∧ (s.section_ .a).state ≠ .clearIn ∧
       ((after (.arrivalAtLC .a) s).section_ .a).state = .clearIn) ∧
    (let s := withSection .a { secAt .offerOut with showing := some (.lc, 0) } (base .inService)
     exec (.indicatorSettled .a) s = .next (after (.indicatorSettled .a) s) ∧ (s.section_ .a).releaseUnused = false ∧
       ((after (.indicatorSettled .a) s).section_ .a).releaseUnused = true ∧
       ((after (.indicatorSettled .a) s).section_ .a).state = .clearOut) :=
  ⟨⟨rfl, by decide +kernel⟩, rfl, by decide +kernel⟩

/-! ### The code exchange and the box switch. CODEWIN is 180 s. -/

/-- A code 2-2 completes on port A, one second ago, with the last sent code there as given. -/
def exchanging (d : Dir) (m : Meaning) (unrepeated : Bool) (sent : Option MemCode) : State :=
  let s := (base .switchedOut).setMemory .a ⟨sent, none, none, some 7⟩
  s.setInbox { s.inbox with exchange := [⟨.a, d, ⟨[2, 2], .meaning m, ⟨0, 0, true⟩, 999000⟩, unrepeated⟩] }

def sentAt (stamp : Nat) (m : Meaning) : Option MemCode := some ⟨[2, 2], .meaning m, ⟨0, 0, true⟩, stamp⟩

theorem test_code_exchange :
    (exchanging .outgoing .boxOut false none).exchangeWaits .a
        ⟨.a, .outgoing, ⟨[2, 2], .meaning .boxOut, ⟨0, 0, true⟩, 999000⟩, false⟩ ∧
      ((after (.codeExchangeUpdate .a) (exchanging .outgoing .boxOut false none)).memory .a).sent = sentAt 999000 .boxOut ∧
      ((after (.codeExchangeUpdate .a) (exchanging .incoming .boxOut false (sentAt 819000 .boxOut))).memory .a).boxOut =
        some 819000 ∧
      ((after (.codeExchangeUpdate .a) (exchanging .incoming .boxOut false (sentAt 819000 .boxOut))).memory .a).boxIn = none ∧
      ((after (.codeExchangeUpdate .a) (exchanging .incoming .boxOut false (sentAt 818999 .boxOut))).memory .a).boxOut =
        none ∧
      ((after (.codeExchangeUpdate .a) (exchanging .incoming .boxOut false (sentAt 999000 .boxOut))).memory .a).boxOut =
        none ∧
      ((after (.codeExchangeUpdate .a) (exchanging .thru .boxIn false (sentAt 998999 .boxIn))).memory .a).boxIn =
        some 998999 ∧
      ((after (.codeExchangeUpdate .a) (exchanging .thru .boxIn false none)).memory .b).sent = sentAt 999000 .boxIn ∧
      ((after (.codeExchangeUpdate .a) (exchanging .thru .boxIn true none)).memory .b).sent =
        some ⟨[2, 2], .erroneous none, ⟨0, 0, true⟩, 999000⟩ := by decide +kernel

theorem test_through_indicator :
    let s := fun v r => (withSection .a { secAt .through with reading := r } (base v)).setInbox
      { Inbox.reset with readings := [.a] }
    .a ∈ (s .switchedOut (some .tol)).inbox.readings ∧
      ((after (.throughIndicatorRepeat .a) (s .switchedOut (some .tol))).section_ .b).drive = .tol ∧
      ((after (.throughIndicatorRepeat .a) (s .switchedOut none)).section_ .b).drive = .lb ∧
      ((after (.throughIndicatorRepeat .a) (s .inService (some .tol))).section_ .b).drive = .lb := by decide +kernel

/-- The box switch arrives. In service every section is BLOCKED, lever 1 is locked at R as the list asks, and both
exchanges were 180 s ago; out of it both readings are LB. -/
def boxing (v : ServiceState) (b : BoxPos) : State :=
  let sec := secAt (if v = .inService then .blocked else .through)
  let m : Memory := ⟨none, none, some 820000, some 820000⟩
  let s := (withSection .c (secAt (if v = .inService then .blocked else .closed)) (withSection .b sec (withSection .a
    { sec with reading := some .lb } ((base v).setLever 0 (leverAt .rLocked)))))
  let s := (s.setMemory .a m).setMemory .b m
  (s.setService { s.service with boxout := some [⟨0, .r⟩], path := some .a }).setInbox { s.inbox with box := [b] }

theorem test_switching_out :
    (boxing .inService .out).boxWaits .out ∧
      (let t := after .arrivalAtOut (boxing .inService .out)
       t.service.state = .switchedOut ∧ t.service.path = none ∧ (t.section_ .a).state = .through ∧
         (t.section_ .c).state = .closed ∧ (t.memory .a).boxOut = none ∧ (t.section_ .b).drive = .lb) := by decide +kernel

/-- Each condition of R120 refuses in its turn. -/
theorem test_switching_out_refused :
    let s := boxing .inService .out
    let why := fun s => (after .arrivalAtOut s).service.refusal
    why { s with service := { s.service with boxout := none } } = some .noList ∧
      why (withSection .b (secAt .protected_) s) = some (.notBlocked .b) ∧
      why (s.setLever 5 (leverAt .travel)) = some (.lever 5) ∧
      why (s.setLever 0 (leverAt .nLocked)) = some (.term 0) ∧
      why (s.setMemory .b ⟨none, none, some 819999, none⟩) = some (.exchange .b) ∧
      (after .arrivalAtOut (boxing .configure .out)).service.state = .configure := by decide +kernel

theorem test_switching_in :
    (boxing .switchedOut .inn).boxWaits .inn ∧
      (let t := after .arrivalAtIn (boxing .switchedOut .inn)
       t.service.state = .inService ∧ (t.section_ .a).state = .blocked ∧ (t.section_ .c).state = .blocked ∧
         t.inbox.entries.getLast? = some (.service, .box .switchedIn)) ∧
      (let s := boxing .switchedOut .inn
       (after .arrivalAtIn (withSection .b { secAt .through with reading := none } s)).service.refusal = some (.indicator .b) ∧
         (after .arrivalAtIn (s.setMemory .a ⟨none, none, none, some 819999⟩)).service.refusal = some (.exchange .a)) ∧
      (after .arrivalAtIn (boxing .inService .inn)).service.state = .inService := by decide +kernel

theorem test_service_state_changes :
    exec .arrivalAtOut (boxing .inService .out) = .next (after .arrivalAtOut (boxing .inService .out)) ∧
      (after .arrivalAtOut (boxing .inService .out)).service.state ≠ (boxing .inService .out).service.state :=
  ⟨rfl, by decide +kernel⟩

/-! ### Register and diagram -/

/-- A ring of entries numbered from 0 and one entry handed on by the Bell unit. -/
def handed (n : Nat) (mark : Option Seq) : State :=
  let s := base .inService
  { s with
    inbox := { s.inbox with entries := [(.block, .crossed .a), (.bell, .clash .c)] }
    register := ⟨(List.range n).map fun k => ⟨BitVec.ofNat 16 k, ⟨0, 0, true⟩, .clash .a⟩, BitVec.ofNat 16 n, ⟨3, 863999, false⟩⟩
    link := { s.link with mark := mark } }

theorem test_register_append :
    (let t := after (.registerAppend .bell) (handed 255 (some 0))
     t.register.ring.length = 256 ∧ t.register.ring.getLast? = some ⟨255, ⟨3, 863999, false⟩, .clash .c⟩ ∧
       t.link.mark = some 0 ∧ t.register.next = 256) ∧
    (let t := after (.registerAppend .bell) (handed 256 (some 0))
     t.register.ring.length = 256 ∧ t.register.ring.head?.map (·.seq) = some 1 ∧ t.link.mark = some 1) ∧
    (after (.registerAppend .bell) (handed 256 (some 2))).link.mark = some 2 := by decide +kernel

theorem test_clock_tick :
    (after .clockTick (handed 0 none)).register.clock = ⟨4, 0, false⟩ ∧
      (after .clockTick { handed 0 none with register := ⟨[], 0, ⟨65535, 863999, true⟩⟩ }).register.clock = ⟨0, 0, true⟩ ∧
      (after .clockTick { handed 0 none with register := ⟨[], 0, ⟨0, 863998, true⟩⟩ }).register.clock = ⟨0, 863999, true⟩ :=
  by decide +kernel

/-- The ticks of the lit part by brightness: 0, 1 and 255, and the default 200 and 40 (R135). -/
theorem test_t_on : tOn 0 = 0 ∧ tOn 1 = 1 ∧ tOn 255 = 120 ∧ tOn 200 = 95 ∧ tOn 40 = 19 := by decide

/-- F for FLASHMS 500 and DIV 4 is 125 frames, and is rounded up (R136). -/
theorem test_flash_period : flashPeriod 500 4 = 125 ∧ flashPeriod 250 16 = 16 ∧ flashPeriod 1000 1 = 1000 := by decide

/-- Bindings in effect on cells 0 to 4, and a lever forced or a circuit failed. -/
def diagrammed (ops : List LampOp) : State :=
  let s := withCircuit 0 (circuitAt (.failed .joint)) (withCircuit 1 (circuitAt .occupied) (base .inService))
  s.setDiagram { s.diagram with
    bound := [(0, ⟨.host, false, false⟩), (1, ⟨.alarm, false, false⟩), (2, ⟨.track 0 true, false, false⟩),
      (3, ⟨.track 1 false, true, false⟩), (4, ⟨.box, false, true⟩), (5, ⟨.on, false, true⟩)]
    host := [(0, .on)]
    ops := ops }

theorem test_diagram_frame_start :
    (diagrammed []).diagram.current = none ∧ (diagrammed []).service.state ≠ .powerUp ∧
      (after .diagramFrameStart (diagrammed [])).diagram.current.map (·.cells) =
        some [(0, .on), (1, .flash), (2, .flash), (3, .flash), (4, .on), (5, .off)] ∧
      (after .diagramFrameStart (diagrammed [])).diagram.current.map (fun f => (f.ton, f.b)) = some (95, 200) ∧
      (after .diagramFrameStart (diagrammed [.erase])).diagram.current.map (·.cells) = some [] ∧
      (after .diagramFrameStart (diagrammed [.load 9 ⟨.host, false, false⟩])).diagram.current.map
        (fun f => mapGet f.cells 9) = some (some .off) ∧
      (let s := diagrammed []
       (after .diagramFrameStart (s.setDiagram { s.diagram with level := .dimmed })).diagram.current.map (·.b) = some 40 ∧
         (after .diagramFrameStart (s.setDiagram { s.diagram with level := .dark })).diagram.current.map (·.ton) = some 0) ∧
      (after .diagramFrameStart (withCircuit 0 (circuitAt .clear) (diagrammed []))).diagram.current.map
        (fun f => (mapGet f.cells 1, mapGet f.cells 2)) = some (some .off, some .on) := by decide +kernel

theorem test_diagram_frame_complete :
    let s := fun started n => (base .inService).setDiagram { Diagram.reset with
      current := some (base .inService).snapshot, started := started, flashCount := n }
    let t := fun started n => (after .diagramFrameComplete (s started n)).diagram
    (s 999996 0).diagram.current = some (base .inService).snapshot ∧ (t 999996 123).half = true ∧
      (t 999996 123).flashCount = 124 ∧ (t 999996 124).half = false ∧ (t 999996 124).flashCount = 0 ∧
      (t 999996 0).published = some (base .inService).snapshot ∧ after .diagramFrameComplete (s 999997 0) = s 999997 0 := by
  decide +kernel

/-- The light level as given, with an activity and a change of service state waiting, in its idle time. -/
def lit (v : Light) (a : Activity) (e : ServiceState × ServiceState) (idle : Nat) : State :=
  let s := base .inService
  let s := s.setDiagram { s.diagram with level := v, idleFrom := 1000000 - idle }
  { s.setInbox { s.inbox with activity := [a], service := [e] } with times := { Times.reset with idle := 1 } }

theorem test_activity :
    let r := fun v a => (after .signallerActivity (lit v a (.configure, .inService) 0)).diagram.level
    r .dark .grip = .active ∧ r .dark .other = .dark ∧ r .dimmed .other = .active ∧
      (after .signallerActivity (lit .active .other (.configure, .inService) 9)).diagram.idleFrom = 1000000 := by
  decide +kernel

/-- With IDLE 1 the board dims after 60 s, not after 59.999; with IDLE 0 never. -/
theorem test_idle :
    let r := fun v idle => (after .idleTimeout (lit v .grip (.configure, .inService) idle)).diagram.level
    r .active 60000 = .dimmed ∧ r .active 59999 = .active ∧ r .dark 60000 = .dark ∧
      (after .idleTimeout { lit .active .grip (.configure, .inService) 60000 with
        times := { Times.reset with idle := 0 } }).diagram.level = .active := by decide +kernel

theorem test_diagram_service_change :
    let r := fun v e => (after .diagramServiceChange (lit v .grip e 0)).diagram.level
    r .active (.inService, .switchedOut) = .dark ∧ r .dark (.switchedOut, .inService) = .active ∧
      r .dimmed (.switchedOut, .inService) = .dimmed ∧ r .dark (.configure, .inService) = .dark ∧
      (after .diagramServiceChange { lit .active .grip (.inService, .switchedOut) 0 with
        times := { Times.reset with darkout := 0 } }).diagram.level = .active := by decide +kernel

/-- Cell row 1, column 2 lit for 3 ticks: on in the slot of row 1 from tick 8 to tick 10; remapped, on the opposite lines. -/
theorem test_lamp_lines :
    let f := fun rev => (⟨[(34, .on)], [], true, 3, .active, 7, rev, rev⟩ : LampFrame)
    (f false).columnOn 135 2 = false ∧ (f false).columnOn 136 2 = true ∧ (f false).columnOn 138 2 = true ∧
      (f false).columnOn 139 2 = false ∧ (f true).columnOn 136 2 = false ∧ (f true).columnOn (14 * 128 + 8) 29 = true ∧
      ({ f false with cells := [(34, .flash)], half := false }).columnOn 136 2 = false ∧
      (let s := fun v => (base v).setDiagram { (base v).diagram with current := some (f false) }
       (s .powerUp).lampLines 136 = .off ∧ (base .inService).lampLines 136 = .off ∧
         ((s .configure).lampLines 136).rows[1] = true ∧ ((s .configure).lampLines 136).rows[2] = false ∧
         ((s .configure).lampLines 128).rows[1] = true ∧ ((s .configure).lampLines 136).columns[2] = true) := by
  decide +kernel

/-! ### The supervisory line -/

/-- The check values of the two CRCs (R145, R161). -/
theorem test_crc : crc16 ['1', '2', '3', '4', '5', '6', '7', '8', '9'] = 0x29B1#16 ∧
    crc32 ['1', '2', '3', '4', '5', '6', '7', '8', '9'] = 0xCBF43926#32 := by decide +kernel

/-- Characters received one after another. -/
def receive : Text → State → State
  | [], s => s
  | c :: cs, s => receive cs (after (.characterReceived (.byte (BitVec.ofNat 8 c.toNat))) s)

theorem test_line_received :
    W.MODE.all isTextChar = true ∧ W.MODE.length ≤ 115 ∧ (base .configure).link.queue.length < 2 ∧
      (base .configure).link.building = [] ∧ (base .configure).link.framing = false ∧
      (receive (lineOf W.MODE) (base .configure)).link.queue = [⟨.request W.MODE, 0⟩] ∧
      (receive (lineOf W.MODE) (base .configure)).link.count = 0 := by decide +kernel

/-- The line being built and the waiting lines as given. -/
def building (k : Link) : State := { base .configure with link := k }

def received (k : Link) (b : BitVec 8) : Link := (after (.characterReceived (.byte b)) (building k)).link

theorem test_characters :
    (building Link.reset).resetHeld = false ∧
      received { Link.reset with count := 119, building := ['A'] } 66 =
        { Link.reset with count := 120, building := ['A', 'B'] } ∧
      received { Link.reset with count := 120, building := ['A'] } 66 = { Link.reset with count := 121, long := true } ∧
      received { Link.reset with count := 1, building := ['A'] } 10 = { Link.reset with count := 1, building := ['A'] } ∧
      (after (.characterReceived .framingError) (building { Link.reset with count := 119 })).link.framing = true := by
  decide +kernel

theorem test_finished_lines :
    received Link.reset 13 = Link.reset ∧
      (received { Link.reset with count := 121, long := true } 13).queue = [⟨.long, 0⟩] ∧
      (received { Link.reset with count := 3, building := ['A', 'B', 'C'] } 13).queue = [⟨.badCheck, 0⟩] ∧
      (received { Link.reset with count := 9, building := W.MODE ++ ['*', '0', '0', '0', '0'], framing := true } 13).queue =
        [⟨.badCheck, 0⟩] ∧
      (received { Link.reset with count := 3, queue := [⟨.long, 0⟩, ⟨.long, 254⟩], heldWords := [W.LEV] } 13) =
        { Link.reset with queue := [⟨.long, 0⟩, ⟨.long, 255⟩] } ∧
      (received { Link.reset with count := 3, queue := [⟨.long, 0⟩, ⟨.long, 255⟩] } 13).queue =
        [⟨.long, 0⟩, ⟨.long, 255⟩] := by decide +kernel

/-- A line waits at the front of the queue. -/
def lineWaits (w : WaitingLine) : State := building { Link.reset with queue := [⟨w, 2⟩, ⟨.long, 0⟩], heldWords := [W.SHOW] }

theorem test_faulted_lines :
    (after .faultedLine (lineWaits .long)).link.slot = some ['?', 'L', 'O', 'N', 'G'] ∧
      (after .faultedLine (lineWaits .badCheck)).link.slot = some ['?', 'C', 'H', 'E', 'C', 'K'] ∧
      textOk ['A', ' ', ' ', 'B'] = false ∧
      (after .faultedLine (lineWaits (.request ['A', ' ', ' ', 'B']))).link =
        { Link.reset with queue := [⟨.long, 0⟩], owed := 2, slot := some ['?', 'F', 'O', 'R', 'M'] } := by decide +kernel

theorem test_other_lines :
    (lineWaits (.request W.TC)).asks .showTc [W.SHOW, W.TC] ∧
      (building { Link.reset with queue := [⟨.request W.A, 0⟩] }).asks .unknownKeyword [W.A] ∧ lookup objectRows W.A = none ∧
      (after .unknownKeyword (building { Link.reset with queue := [⟨.request W.A, 0⟩] })).link.slot =
        some ['?', 'W', 'O', 'R', 'D'] ∧
      (after .busyReply (building { Link.reset with owed := 1 })).link.slot = some ['?', 'B', 'U', 'S', 'Y'] ∧
      (after .busyReply (building { Link.reset with owed := 1 })).link.owed = 0 ∧
      (after .moreLine (lineWaits (.request (W.LEV ++ ' ' :: W.MORE)))).link.heldWords = [W.SHOW, W.LEV] ∧
      (after .moreLine (lineWaits (.request (W.LEV ++ ' ' :: W.MORE)))).link.slot = some ('=' :: W.MORE) := by decide +kernel

/-- The transmitter with a line of 144 characters begun, everything to send waiting. -/
def sending (elapsed : Nat) (slot : Option Text) (reg : Bool) (items : List Item) : State :=
  let s := base .inService
  { s with
    register := ⟨[⟨5, ⟨0, 0, true⟩, .clash .a⟩], 6, ⟨0, 0, true⟩⟩
    link := { s.link with
      sending := some ⟨List.replicate 144 'A', 1000000 - elapsed⟩
      slot := slot
      mark := some 5
      classes := ⟨false, false, false, false, reg⟩
      reports := items } }

theorem test_transmitter :
    let text := fun s => (after .lineSent s).link.sending
    text (sending 25 (some W.ID) true [.box]) = some ⟨lineOf W.ID, 1000000⟩ ∧
      (after .lineSent (sending 25 (some W.ID) true [.box])).link.slot = none ∧
      (after .lineSent (sending 25 none true [.box])).link.mark = some 6 ∧
      (after .lineSent (sending 25 none false [.box])).link.reports = [] ∧
      text (sending 25 none false []) = none ∧
      after .lineSent (sending 24 (some W.ID) true [.box]) = sending 24 (some W.ID) true [.box] ∧
      (let s := fun phase => { sending 25 (some W.ID) true [.box] with link := { (sending 25 (some W.ID) true [.box]).link with
         restart := phase } }
       (after .lineSent (s .replyWaiting)).link.restart = .replySending ∧ after .lineSent (s .replySending) = s .replySending) :=
  by decide +kernel

theorem test_register_report :
    (after .lineSent (sending 25 none true [.box])).link.sending = some ⟨lineOf ('!' :: joinWords [W.REG, ['5'],
      ['0', '/', '0', '0', ':', '0', '0', ':', '0', '0', '.', '0', 'U'], W.CLASH, W.A]), 1000000⟩ := by decide +kernel

/-! ### Requests -/

/-- A request, its words but the last held where they are too many for one line. -/
def asked (ws : List Text) (s : State) : State :=
  if (joinWords ws).length ≤ 115 then asking ws s
  else { s with link := { s.link with queue := [⟨.request (ws.getLast?.getD []), 3⟩], heldWords := ws.dropLast } }

/-- The reply to a request, with the words it is cut from. -/
def replied (row : Instr) (ws : List Text) (s : State) : Option Text :=
  (after row (asked ws s)).link.slot

theorem test_request_refused :
    (asked [W.START, W.A] (base .inService)).asks .start [W.START, W.A] ∧
      (base .inService).service.state ∉ acceptedIn .start ∧
      replied .start [W.START, W.A] (base .inService) = some ['?', 'S', 'T', 'A', 'T', 'E'] ∧
      replied .withdraw [W.WITHDRAW] (base .configure) = some ['?', 'S', 'T', 'A', 'T', 'E'] ∧
      replied .showLev [W.SHOW, W.LEV, ['1']] (base .powerUp) = some ['?', 'S', 'T', 'A', 'T', 'E'] ∧
      Instr.family .showLev = .requests := by decide +kernel

theorem test_ident : (asked [W.ID] (base .powerUp)).asks .ident [W.ID] ∧
    (after .ident (asked [W.ID] (base .powerUp))).link.owed = 3 ∧
    replied .ident [W.ID] (base .powerUp) = some (joinWords ['=' :: W.ID, W.WEFTAN, ['2', '2', '0', '8'], W.REV, ['3'],
      W.LEVERS, ['4', '8'], W.LOCKS, ['3', '2', '0'], W.TC, ['2', '0'], W.SEC, ['3'], W.CODES, ['2', '4'], W.REG,
      ['2', '5', '6'], W.LAMPS, ['5', '1', '2'], W.BOX, ['0']]) := by decide +kernel

theorem test_mode : ∀ v ∈ [ServiceState.powerUp, .configure, .inService, .switchedOut],
    (asked [W.MODE] (base v)).asks .mode [W.MODE] ∧
      replied .mode [W.MODE] (base v) = some ('=' :: W.MODE ++ ' ' :: serviceWord v) := by decide +kernel

theorem test_more :
    let s := { base .configure with link := { Link.reset with keptWords := [W.A, W.B], heldWords := [W.LEV] } }
    (asked [W.MORE] s).asks .more [W.MORE] ∧ replied .more [W.MORE] s = some ('=' :: W.MORE ++ [' ', 'A', ' ', 'B']) ∧
      (after .more (asked [W.MORE] s)).link.heldWords = [W.LEV] := by decide +kernel

theorem test_notify :
    let k : Classes := ⟨true, false, false, true, true⟩
    let s := { base .inService with link := { Link.reset with classes := ⟨true, true, true, true, false⟩, reports := [.tc 3, .lev 2] } }
    (asked (W.NOTIFY :: k.words) s).asks .notify (W.NOTIFY :: k.words) ∧
      (let t := after .notify (asked (W.NOTIFY :: k.words) s)
       t.link.classes = k ∧ t.link.reports = [.lev 2] ∧ t.link.mark = some 0) ∧
      [W.REG, W.LEV, W.BOX].Perm k.words ∧
      replied .notify [W.NOTIFY, W.REG, W.LEV, W.BOX] s = some (joinWords (('=' :: W.NOTIFY) :: k.words)) ∧
      (after .notify (asked [W.NOTIFY, W.REG] (sending 0 none true []))).link.mark = some 5 ∧
      (after .notify (asked [W.NOTIFY] (sending 0 none true []))).link.mark = none := by decide +kernel

/-- A record at every bound of R5. -/
def fullLev : LevRecord :=
  ⟨.signal, [⟨0, .leaveN⟩, ⟨19, .leaveN⟩, ⟨1, .leaveN⟩, ⟨2, .leaveN⟩], [⟨15, true, .leaveN⟩, ⟨0, false, .leaveN⟩], some .c,
    some ⟨[19, 0, 1], some .a, 600⟩⟩

theorem test_load_lev : ∀ r ∈ [fullLev, points, { fullLev with approach := some ⟨[0], none, 10⟩ }],
    r.valid ∧ (base .configure).service.state = .configure ∧
      (asked (levWords 47 r) (base .configure)).asks .lev (levWords 47 r) ∧
      ((after .lev (asked (levWords 47 r) (base .configure))).lever 47).record = some r := by decide +kernel

/-- An entry of two conditions, given out of lever order; and the same one again. -/
theorem test_load_lock :
    let e : LockEntry := ⟨⟨47, .r⟩, ⟨0, .n⟩, [⟨3, .n⟩, ⟨9, .r⟩]⟩
    let s := base .configure
    let t := after .lock (asked (lockWords e) s)
    e.valid ∧ (asked (lockWords e) s).asks .lock (lockWords e) ∧ t.locking = [e] ∧
      [(⟨9, .r⟩ : LeverTerm), ⟨3, .n⟩].Perm e.conds ∧
      W.LOCK :: (termWords e.x ++ termWords e.y ++ W.IF :: [(⟨9, .r⟩ : LeverTerm), ⟨3, .n⟩].flatMap termWords) =
        [W.LOCK, ['4', '8'], W.R, ['1'], W.N, W.IF, ['1', '0'], W.R, ['4'], W.N] ∧
      (after .lock (asked [W.LOCK, ['4', '8'], W.R, ['1'], W.N, W.IF, ['1', '0'], W.R, ['4'], W.N] s)).locking = [e] ∧
      replied .lock (lockWords e) { s with locking := [e] } = some (joinWords [refusalWord W.CONFLICT, ['1']]) := by
  decide +kernel

theorem test_load_sec : ∀ r ∈ [(⟨[0, 1, 2, 3, 4, 47], [0, 1, 2, 19], [19, 2, 1, 0], true⟩ : SecRecord), ⟨[], [], [], false⟩],
    r.valid ∧ (asked (secWords .b r) (base .configure)).asks .sec (secWords .b r) ∧
      ((after .sec (asked (secWords .b r) (base .configure))).section_ .b).record = some r := by decide +kernel

theorem test_load_boxout :
    ∀ ts ∈ [([] : List LeverTerm), [⟨0, .n⟩, ⟨1, .r⟩, ⟨2, .n⟩, ⟨3, .n⟩, ⟨4, .n⟩, ⟨5, .n⟩, ⟨6, .n⟩, ⟨47, .r⟩]],
      boxoutValid ts ∧ (asked (boxoutWords ts) (base .configure)).asks .boxout (boxoutWords ts) ∧
        (after .boxout (asked (boxoutWords ts) (base .configure))).service.boxout = some ts := by decide +kernel

theorem test_load_tc :
    ∀ r ∈ [TcRecord.default, ⟨8, 63, 64, 2500, 224, 240, 500, 1000, 500, 4, 100, 6, 1, 7⟩,
        ⟨1, 32, 8, 20, 16, 32, 5, 10, 10, 1, 2, 0, 0, 0⟩],
      r.valid ∧ (asked (tcWords 19 r) (base .configure)).asks .tc (tcWords 19 r) ∧
        (let t := after .tc (asked (tcWords 19 r) (base .configure))
         (t.circuit 19).stored = some r ∧ t.track.ops = [.load 19 r]) := by decide +kernel

theorem test_load_times :
    ∀ v ∈ [Times.reset, ⟨60, 250, 64, 200, 8, 100, 1000, 1000, 5000, .follow, 200, 1000, 600, 600, 16, 1000, 120, 1, 1, 1⟩,
        ⟨5, 20, 4, 0, 4, 10, 150, 200, 1000, .stroke, 20, 100, 30, 30, 1, 250, 0, 0, 0, 0⟩],
      v.valid ∧ (asked (timesWords v) (base .configure)).asks .times (timesWords v) ∧
        (after .times (asked (timesWords v) (base .configure))).times = v := by decide +kernel

/-- An END less than JOIN and 200 ms is raised to it, and said to be clamped (R80). -/
theorem test_end_raised :
    (after .times (asked [W.TIMES, W.JOIN, ['9', '0', '0'], W.END, ['1', '0', '9', '9']] (base .configure))).times.endWait =
      1100 := by decide +kernel

theorem test_load_code :
    ∀ e ∈ [(⟨[9, 9, 9, 9, 9], .offer 15⟩ : CodeEntry), ⟨[1], .info 99⟩, ⟨[1, 2], .outOfSection⟩],
      e.valid ∧ (asked (codeWords e) (base .configure)).asks .code (codeWords e) ∧
        (after .code (asked (codeWords e) (base .configure))).codes = [e] := by decide +kernel

theorem test_load_lamp :
    ∀ b ∈ [(⟨.host, false, false⟩ : Binding), ⟨.sec .a [.closed, .through], true, true⟩, ⟨.disagree none, false, true⟩,
        ⟨.track 19 true, true, false⟩, ⟨.lever 47 .refused, false, false⟩, ⟨.indicator .c true, false, false⟩],
      b.valid ∧ (asked (bindingWords 511 b) (base .configure)).asks .lamp (bindingWords 511 b) ∧
        (let t := after .lamp (asked (bindingWords 511 b) (base .configure))
         t.diagram.stored = [(511, b)] ∧ t.diagram.ops = [.load 511 b]) := by decide +kernel

/-- A part in CONFIGURE with one item in each table. -/
def loaded : State :=
  let s := withSection .a { SectionData.reset with record := some ⟨[], [], [], false⟩ } (withCircuit 0
    { CircuitData.reset with stored := some TcRecord.default } ((base .configure).setLever 0 { leverAt .nLocked with
      backlock := .due }))
  { s with
    locking := held
    codes := [⟨[1], .cancel⟩]
    service := { s.service with boxout := some [] }
    diagram := { s.diagram with stored := [(3, ⟨.on, false, false⟩)] } }

theorem test_erase :
    (∀ e ∈ [(Instr.eraseLev, W.LEV), (.eraseLock, W.LOCK), (.eraseTc, W.TC), (.eraseSec, W.SEC), (.eraseCode, W.CODE),
        (.eraseLamp, W.LAMP), (.eraseBoxout, W.BOXOUT)],
      (asked [W.ERASE, e.2] loaded).asks e.1 [W.ERASE, e.2] ∧
        replied e.1 [W.ERASE, e.2] loaded = some (joinWords ['=' :: W.ERASE, e.2])) ∧
    ((after .eraseLev (asked [W.ERASE, W.LEV] loaded)).lever 0).record = none ∧
    (after .eraseLock (asked [W.ERASE, W.LOCK] loaded)).locking = [] ∧
    (after .eraseTc (asked [W.ERASE, W.TC] loaded)).track.ops = [.erase] ∧
    ((after .eraseSec (asked [W.ERASE, W.SEC] loaded)).section_ .a).record = none ∧
    (after .eraseCode (asked [W.ERASE, W.CODE] loaded)).codes = [] ∧
    (after .eraseLamp (asked [W.ERASE, W.LAMP] loaded)).diagram.stored = [] ∧
    (after .eraseBoxout (asked [W.ERASE, W.BOXOUT] loaded)).service.boxout = none := by decide +kernel

/-- A part ready to start: levers 1 to 4 at N, at R, at both and at neither. -/
def ready : State :=
  let s := ((((base .configure).setLever 0 (leverAt .travel)).setLever 1 (leverAt .travel)).setLever 2
    (leverAt .travel)).setLever 3 (leverAt .travel)
  { s with contacts := read }

/-- START with the digest of the part. -/
def starting (s : State) : State := asked [W.START, s.digestWord] s

theorem test_start_levers :
    (starting ready).asks .start [W.START, ready.digestWord] ∧ (starting ready).configError = none ∧
      hex? 8 ready.digestWord = some (crc32 (digestText (starting ready).storedItems)).toNat ∧
      (let t := after .start (starting ready)
       t.service.state = .inService ∧ (t.lever 0).pos = .nLocked ∧ (t.lever 1).pos = .rLocked ∧ (t.lever 2).pos = .fault ∧
         (t.lever 3).pos = .travel) := by decide +kernel

/-- Lever 4, a signal with approach locking, is found away. -/
theorem test_start_signal :
    let s := { (base .configure).setLever 3 { leverAt .travel with
      record := some ⟨.signal, [], [], none, some ⟨[], none, 10⟩⟩ } with contacts := read }
    let t := after .start (starting s)
    (starting s).asks .start [W.START, s.digestWord] ∧ (starting s).configError = none ∧ (t.lever 3).pos = .backlocked ∧
      (t.lever 3).backlock = .timing 1010000 := by decide +kernel

/-- Section C with its switch and its reading as given, and START sent with the digest of that part. -/
def readySection (position : Ind) (reading : Option Ind) : State :=
  asking [W.START, ['F', '0', 'D', '5', '7', '1', 'A', 'A']] (withSection .c
    { SectionData.reset with record := some ⟨[], [], [], false⟩, position := position, reading := reading }
    { (base .configure).setLever 0 (leverAt .travel) with
      contacts := read
      codes := [⟨[1], .offer 1⟩, ⟨[2], .entering⟩, ⟨[3], .cancel⟩] })

/-- The digest of its five texts, by the CRC-32 of the first two and then of the others. -/
theorem test_digest_of_section (p : Ind) (r : Option Ind) :
    crc32 (digestText (readySection p r).storedItems) = 0xF0D571AA#32 := by
  have h : digestText (readySection p r).storedItems =
      ((['L', 'E', 'V', ' ', '1', ' '] ++ W.POINTS ++ ['\n', 'S', 'E', 'C', ' ', 'C', ' '] ++ W.AUTOTOL ++ [' ', '0', '\n']) ++
        (W.CODE ++ [' ', '1', ' '] ++ W.OFFER ++ [' ', '1', '\n'] ++ W.CODE ++ [' ', '2', ' '] ++ W.ENTERING ++ ['\n'] ++
          W.CODE ++ [' ', '3', ' '] ++ W.CANCEL ++ ['\n'])) := by
    have hp : (readySection p r).storedItems = (readySection .lb none).storedItems := rfl
    rw [hp]
    decide +kernel
  rw [h, crc32, crc32From_append]
  rw [show crc32From 0xFFFFFFFF#32 (['L', 'E', 'V', ' ', '1', ' '] ++ W.POINTS ++ ['\n', 'S', 'E', 'C', ' ', 'C', ' '] ++
    W.AUTOTOL ++ [' ', '0', '\n']) = 0x0091DA26#32 by decide +kernel]
  decide +kernel

theorem test_start_sections :
    (∀ p ∈ [Ind.tol, .lc, .lb], ∀ r ∈ [some Ind.lc, some .tol, some .lb, none],
      (readySection p r).asks .start [W.START, ['F', '0', 'D', '5', '7', '1', 'A', 'A']] ∧
        (readySection p r).configError = none ∧ hex? 8 ['F', '0', 'D', '5', '7', '1', 'A', 'A'] = some 0xF0D571AA) ∧
    (let st := fun p r => ((enterService (readySection p r)).section_ .c).state
     st .tol none = .enteredIn ∧ st .lc none = .blocked ∧ st .lb (some .lc) = .unofferedClear ∧
       st .lb (some .tol) = .enteredOut ∧ st .lb (some .lb) = .blocked ∧ st .lb none = .blocked) := by decide +kernel

theorem test_start_refused :
    (after .start (asked [W.START, hexDigits 8 0] ready)).link.slot =
      some (joinWords [refusalWord W.START, W.DIGEST, ready.digestWord]) ∧
    (let s := { base .configure with levers := ready.levers, locking := [⟨⟨0, .r⟩, ⟨0, .n⟩, []⟩] }
     s.configError = some [W.SELF_LOCK, ['1']] ∧
       replied .start [W.START, hexDigits 8 0] s = some (joinWords [refusalWord W.START, W.SELF_LOCK, ['1']])) := by
  decide +kernel

/-- Each check of R162 fails in its turn. -/
theorem test_check :
    let why := fun (s : State) => s.configError
    (asked [W.CHECK] ready).asks .check [W.CHECK] ∧ why ready = none ∧
      replied .check [W.CHECK] ready = some (joinWords ['=' :: W.CHECK, ready.digestWord]) ∧
      why (base .configure) = some [W.NO_LEVERS] ∧
      why { ready with locking := [⟨⟨0, .r⟩, ⟨7, .n⟩, []⟩] } = some [W.UNDEFINED_LEVER, ['1']] ∧
      why (ready.setLever 4 (signal .nLocked)) = some [W.UNDEFINED_TRACK, ['5']] ∧
      why { ready with locking := [⟨⟨0, .r⟩, ⟨1, .n⟩, []⟩, ⟨⟨0, .r⟩, ⟨1, .n⟩, [⟨7, .n⟩]⟩] } =
        some [W.UNDEFINED_LEVER, ['2']] ∧
      why { ready with service := { ready.service with boxout := some [⟨7, .n⟩] } } = some [W.UNDEFINED_LEVER, W.BOXOUT] ∧
      why { ready with locking := [⟨⟨0, .r⟩, ⟨1, .n⟩, []⟩, ⟨⟨0, .r⟩, ⟨1, .n⟩, [⟨0, .n⟩]⟩] } = some [W.SELF_LOCK, ['2']] ∧
      why (ready.setLever 4 { leverAt .travel with record := some ⟨.signal, [], [], some .b, none⟩ }) =
        some [W.UNDEFINED_SECTION, ['5']] ∧
      why { ready with service := { ready.service with boxout := some [] } } = some [W.UNDEFINED_SECTION, W.A] ∧
      why (withSection .a { SectionData.reset with record := some ⟨[], [], [], false⟩ }
        { ready with service := { ready.service with boxout := some [] } }) = some [W.UNDEFINED_SECTION, W.B] ∧
      why { readySection .lb none with codes := [] } = some [W.MISSING_CODE, W.OFFER] ∧
      why { readySection .lb none with codes := [⟨[1], .offer 1⟩, ⟨[2], .entering⟩] } = some [W.MISSING_CODE, W.CANCEL] ∧
      why (withSection .a { SectionData.reset with record := some ⟨[], [], [], false⟩ } (withSection .b { SectionData.reset with record := some ⟨[], [], [], false⟩ }
        { readySection .lb none with codes := (readySection .lb none).codes ++ [⟨[4], .boxOut⟩] })) =
        some [W.MISSING_CODE, W.BOX_IN] ∧
      why { ready with locking := [⟨⟨0, .n⟩, ⟨1, .n⟩, []⟩] } = some [W.VIOLATION, ['1']] ∧
      replied .check [W.CHECK] (base .configure) = some (joinWords [refusalWord W.START, W.NO_LEVERS]) := by decide +kernel

/-- A box in service at rest with the tapper of A driving; and one with a lever free. -/
theorem test_withdraw :
    let s := withSection .a (secAt .blocked) (((base .inService).setLever 0 (leverAt .rLocked)).setPort .a { PortData.reset with
      drive := true, out := some ⟨999990, true⟩, owner := .outgoing, code := some (newCode .outgoing) })
    (asked [W.WITHDRAW] s).asks .withdraw [W.WITHDRAW] ∧
      (let t := after .withdraw (asked [W.WITHDRAW] s)
       t.service.state = .configure ∧ (t.section_ .a).state = .closed ∧ (t.port .a).drive = false) ∧
      replied .withdraw [W.WITHDRAW] (s.setLever 0 (leverAt .nFree)) = some ['?', 'S', 'T', 'A', 'T', 'E'] := by decide +kernel

theorem test_restart : (asked [W.RESTART] (base .configure)).asks .restart [W.RESTART] ∧
    (after .restart (asked [W.RESTART] (base .configure))).link.restart = .replyWaiting := by decide +kernel

/-- DROP 144 is 16 below the default PICK of 160; DROP 145 carries PICK with it to 161 (R57). -/
theorem test_tune_tc :
    let s := { loaded with service := { loaded.service with state := .inService } }
    let ws := fun w => [W.TUNE, W.TC, ['1'], W.DROP, w]
    s.tuned 0 = some TcRecord.default ∧ (asked (ws ['1', '4', '5']) s).asks .tuneTc (ws ['1', '4', '5']) ∧
      (let t := after .tuneTc (asked (ws ['1', '4', '5']) s)
       t.track.ops = [.tune 0 [(.drop, 145), (.pick, 161)]] ∧ (t.circuit 0).stale = true ∧ (t.circuit 0).retuned = true) ∧
      (after .tuneTc (asked (ws ['1', '4', '4']) s)).track.ops = [.tune 0 [(.drop, 144)]] ∧
      replied .tuneTc (ws ['2', '2', '5']) s = some (joinWords ['=' :: W.TUNE, W.TC, ['1'], W.DROP, ['2', '2', '4'], W.PICK,
        ['2', '4', '0'], W.CLAMPED]) := by decide +kernel

theorem test_tune_group :
    let s := withCircuit 4 { CircuitData.reset with stored := some { TcRecord.default with group := 7 } } loaded
    let ws := [W.TUNE, W.GROUP, ['7'], W.FINE, ['3', '1']]
    (asked ws s).asks .tuneGroup ws ∧ s.members 7 = [4] ∧
      (after .tuneGroup (asked ws s)).track.ops = [.tune 4 [(.fine, 32)]] ∧
      replied .tuneGroup ws s = some (joinWords ['=' :: W.TUNE, W.GROUP, ['7'], W.MEMBERS, ['1'], W.FINE, ['3', '2'],
        W.CLAMPED]) := by decide +kernel

theorem test_clear :
    let s := (loaded.setLever 2 { leverAt .nLocked with forced := true })
    (asked [W.CLEAR, W.TC, ['1']] s).asks .clearTc [W.CLEAR, W.TC, ordinal (0 : Circuit)] ∧
      (after .clearTc (asked [W.CLEAR, W.TC, ['1']] s)).track.ops = [.clear 0] ∧
      (asked [W.CLEAR, W.LEV, ['3']] s).asks .clearLev [W.CLEAR, W.LEV, ordinal (2 : Lever)] ∧
      ((after .clearLev (asked [W.CLEAR, W.LEV, ['3']] s)).lever 2).forced = false := by decide +kernel

theorem test_clock :
    let ws := [W.CLOCK, twoDigits 23 ++ ':' :: twoDigits 59 ++ ':' :: twoDigits 5, digits 65535]
    (asked ws (base .inService)).asks .clock ws ∧
      (let t := after .clock (asked ws (base .inService))
       t.register.clock = ⟨65535, 863450, false⟩ ∧
         t.register.ring = [⟨0, ⟨65535, 863450, false⟩, .clock ⟨0, 0, true⟩ ⟨65535, 863450, false⟩⟩]) := by decide +kernel

theorem test_brightness :
    (asked [W.BRIGHT, digits 256] (base .inService)).asks .bright [W.BRIGHT, digits 256] ∧
      (after .bright (asked [W.BRIGHT, digits 256] (base .inService))).diagram.bright = 255 ∧
      replied .bright [W.BRIGHT, digits 255] (base .inService) = some (joinWords ['=' :: W.BRIGHT, ['2', '5', '5']]) ∧
      (asked [W.DIM, digits 0] (base .inService)).asks .dim [W.DIM, digits 0] ∧
      (after .dim (asked [W.DIM, digits 0] (base .inService))).diagram.dim = 0 := by decide +kernel

/-- PAINT of cells 0 and 1, of which 0 is a HOST cell. -/
theorem test_paint :
    let ws := fun c => [W.PAINT, ['0'], c, W.FLASH]
    (asked (ws ['0']) (diagrammed [])).asks .paint [W.PAINT, digits ((0 : Cell).val / 32), digits ((0 : Cell).val % 32),
        wordFor lampTable .flash] ∧
      (after .paint (asked (ws ['0']) (diagrammed []))).diagram.host = [(0, .flash)] ∧
      (after .paint (asked (ws ['1']) (diagrammed []))).diagram.host = [(0, .on)] ∧
      replied .paint (ws ['1']) (diagrammed []) = some (joinWords ['=' :: W.PAINT, ['0']]) := by decide +kernel

theorem test_show_lev :
    let s := (base .inService).setLever 0 { leverAt .travel with lock := true, limit := some 1000001, forced := true }
    let ws := [W.SHOW, W.LEV, ordinal (0 : Lever)]
    (asked ws s).asks .showLev ws ∧
      replied .showLev ws s = some (joinWords ['=' :: W.SHOW, W.LEV, ['1'], W.TRAVEL, W.LOCK, W.ON, W.FORCED, W.TRAVEL,
        ['1']]) ∧
      replied .showLev ws ((base .inService).setLever 0 { signal .backlocked with backlock := .due }) =
        some (joinWords ['=' :: W.SHOW, W.LEV, ['1'], W.BACKLOCKED, W.LOCK, W.OFF, W.BACKLOCK, ['0']]) ∧
      replied .showLev ws (base .inService) = some (joinWords ['=' :: W.SHOW, W.LEV, ['1'], W.TRAVEL, W.UNLOADED]) := by
  decide +kernel

theorem test_show_tc :
    let ws := [W.SHOW, W.TC, ordinal (0 : Circuit)]
    (asked ws (between (circuitAt .clear))).asks .showTc ws ∧
      replied .showTc ws (between (circuitAt .clear)) = some (joinWords ['=' :: W.SHOW, W.TC, ['1'], W.CLEAR, W.Q,
        ['8', '0', '0', '0'], W.R, ['5', '0', '0'], W.D, ['1', '8', '7'], W.U, ['3', '1', '2'], W.CNT, ['0'], ['0'], ['0'],
        W.POSITIVE]) ∧
      replied .showTc ws (base .inService) = some (joinWords ['=' :: W.SHOW, W.TC, ['1'], W.DISABLED, W.UNLOADED]) := by
  decide +kernel

theorem test_show_sec_and_box :
    let s := withSection .a (secAt .blocked) (base .inService)
    (asked [W.SHOW, W.SEC, W.A] s).asks .showSec [W.SHOW, W.SEC, sectionLetter .a] ∧
      replied .showSec [W.SHOW, W.SEC, W.A] s = some (joinWords ['=' :: W.SHOW, W.SEC, W.A, W.BLOCKED, W.DRIVE, W.LB, W.IN,
        W.LB, W.SW, W.LB, W.COUNT, ['0']]) ∧
      (asked [W.SHOW, W.BOX] s).asks .showBox [W.SHOW, W.BOX] ∧
      replied .showBox [W.SHOW, W.BOX] s = some (joinWords ['=' :: W.SHOW, W.BOX, W.IN_SERVICE, W.SW, W.IN, W.FRAME,
        ['5', '0'], W.ACTUAL, ['5', '0'], W.PATH, W.NONE]) := by decide +kernel

theorem test_show_group_and_lamp :
    (asked [W.SHOW, W.GROUP, ['7']] loaded).asks .showGroup [W.SHOW, W.GROUP, digits 7] ∧
      replied .showGroup [W.SHOW, W.GROUP, ['7']] loaded = some (joinWords ['=' :: W.SHOW, W.GROUP, ['7'], W.MEMBERS, ['0']]) ∧
      (let ws := [W.SHOW, W.LAMP, digits ((34 : Cell).val / 32), digits ((34 : Cell).val % 32)]
       (asked ws loaded).asks .showLamp ws ∧
         replied .showLamp ws loaded = some (joinWords ['=' :: W.SHOW, W.LAMP, ['1'], ['2'], W.OFF, W.UNLIT, W.TON, ['0'],
           W.PHYS, ['1'], ['2'], W.LEVEL, W.ACTIVE, W.B, ['2', '0', '0'], W.HALF, W.ON, W.UNBOUND])) := by decide +kernel

theorem test_raw_tc :
    let ws := [W.RAW, W.TC, ordinal (0 : Circuit)]
    let m : Measurement := ⟨-8, 8, -1, -1, 1, some .negative, false, [.reversal, .tune]⟩
    (asked ws (between (circuitAt .clear))).asks .rawTc ws ∧
      replied .rawTc ws (base .inService) = some (refusalWord W.RANGE) ∧
      replied .rawTc ws (between { circuitAt .clear with stale := true }) = some (joinWords ['=' :: W.RAW, W.TC, ['1'], W.NONE,
        W.STALE]) ∧
      replied .rawTc ws (between { circuitAt .clear with published := some m }) = some (joinWords ['=' :: W.RAW, W.TC, ['1'],
        W.S, ['-', '8'], W.N, ['8'], W.A, ['-', '1'], W.L, ['-', '1'], W.P, ['1'], W.SIGN, W.NEGATIVE, W.MASKED, W.REVERSAL,
        W.TUNE]) := by decide +kernel

theorem test_reg :
    (asked [W.REG, digits (255 : Seq).toNat] (handed 256 none)).asks .reg [W.REG, digits (255 : Seq).toNat] ∧
      replied .reg [W.REG, ['2', '5', '5']] (handed 256 none) = some (joinWords ['=' :: W.REG, ['2', '5', '5'],
        ['0', '/', '0', '0', ':', '0', '0', ':', '0', '0', '.', '0', 'U'], W.CLASH, W.A]) ∧
      replied .reg [W.REG, ['2', '5', '6']] (handed 256 none) = some (joinWords [refusalWord W.GONE, ['0']]) ∧
      replied .reg [W.REG, ['0']] (handed 0 none) = some (refusalWord W.GONE) := by decide +kernel

/-! ### What a step hands on at its end -/

/-- Every class of report on. -/
def listening (s : State) : State := { s with link := { s.link with classes := ⟨true, true, true, true, true⟩ } }

/-- Levers: a grip that frees, with its report, and a stall. -/
theorem test_hands_on_levers :
    (let t := after (.grip 0) (listening (leverEvent .inService (leverAt .nLocked) .grip))
     t.inbox.changes = [.lever 0] ∧ t.link.reports = [.lev 0]) ∧
    (let t := after (.travelLimitExpiry 0) (demanded { leverAt .travel with lock := true, limit := some 1000000 })
     t.inbox.changes = [.lever 0] ∧ t.link.reports = []) := by decide +kernel

/-- Circuits: circuit 1, the first arrival track of section A, becomes OCCUPIED; and circuit 2, its second. -/
theorem test_hands_on_circuits :
    let s := fun r rest => listening (withSection .a { secAt .clearIn with record := some ⟨[], [], r :: rest, true⟩ }
      (measuring (circuitAt .clear)))
    (let t := after (.measurementComplete (eightOf 0)) (s 0 [1])
     t.inbox.changes = [.track 0 .clear] ∧ t.inbox.autoTol = [.a] ∧ t.inbox.progress = [⟨.a, 0, .clear⟩] ∧
       t.link.reports = [.tc 0]) ∧
    (let t := after (.measurementComplete (eightOf 0)) (s 1 [0])
     t.inbox.autoTol = [] ∧ t.inbox.progress = [⟨.a, 0, .clear⟩]) ∧
    (let s := withSection .a offered (measuring (circuitAt .clear))
     let t := after (.measurementComplete (eightOf 0)) s
     exec (.measurementComplete (eightOf 0)) s = .next t ∧ (s.section_ .a).record = offered.record ∧
       (t.section_ .a).record = offered.record ∧ (t.circuit 0).state = .occupied ∧ t.lockTrack 0 = .clear ∧
       t.inbox.autoTol = [] ∧ t.inbox.progress = [⟨.a, 0, .clear⟩] ∧ t.blockTrack .a 0 = .clear) := by
  refine ⟨by decide +kernel, by decide +kernel, rfl, by decide +kernel⟩

/-- Sections: a release at the settling of LC; a switch that comes to disagree; the box switch likewise. -/
theorem test_hands_on_sections :
    (let t := after (.indicatorSettled .a) (listening (withSection .a { secAt .offerOut with
       train := some (trainOf false .offered), showing := some (.lc, 999800) } (base .inService)))
     t.inbox.changes = [.sec .a .offerOut, .release .a] ∧ t.link.reports = [.sec .a]) ∧
    (let t := after (.arrivalAtLC .a) (switching (secAt .blocked) .lc)
     t.inbox.entries = [(.block, .disagree (some .a))]) ∧
    (let t := after .arrivalAtOut (listening { boxing .inService .out with service :=
       { (boxing .inService .out).service with boxout := none } })
     t.inbox.entries = [(.service, .disagree none)] ∧ t.link.reports = [.box]) := by decide +kernel

/-- TOL under an offer ends its record: SECTION, then TRAIN, and then DISAGREE where it comes. AUTO_TOL's entry is marked. -/
theorem test_hands_on_section_entries :
    (let r := trainOf true .offered
     (after (.arrivalAtTOL .a) (switching { secAt .offerIn with train := some r } .tol)).inbox.entries =
       [(.block, .change .a .offerIn .protected_ (some 7) false),
         (.block, .train 7 .a true 3 .cancelled r.offered r.entered)]) ∧
    (let s := withSection .b { secAt .clearIn with
       train := some (trainOf true .accepted), position := .lc, record := some ⟨[], [], [4], true⟩ } (base .inService)
     (after (.autoTol .b) (s.setInbox { s.inbox with autoTol := [.b] })).inbox.entries =
       [(.block, .change .b .clearIn .enteredIn (some 7) true), (.block, .disagree (some .b))]) := by decide +kernel

/-- What is taken leaves its list, whatever waits before it for others; an event of another kind stays. -/
theorem test_takes :
    (let s := leverEvent .inService (leverAt .nLocked) .grip
     s.inbox.frame = [(1, .grip), (0, .grip)] ∧ (after (.grip 0) s).inbox.frame = [(1, .grip)] ∧
       (after (.gripEnd 0) s).inbox.frame = s.inbox.frame) ∧
    (after (.arrivalAtLC .a) (switching (secAt .blocked) .lc)).inbox.switches = [(.b, .lc)] ∧
    (after (.tapperPress .a) (tapping .inService true PortData.reset)).inbox.tappers = [(.b, true)] ∧
    (let s := base .inService
     (after (.registerAppend .track) (s.setInbox { s.inbox with
       entries := [(.bell, .clash .a), (.track, .track 0 none), (.bell, .clash .b)] })).inbox.entries =
       [(.bell, .clash .a), (.bell, .clash .b)]) := by decide +kernel

theorem test_hands_on_service_and_beats :
    (after .arrivalAtOut (boxing .inService .out)).inbox.service = [(.inService, .switchedOut)] ∧
      (let s := onPort .inService { PortData.reset with pulses := [pulse] }
       (s.port .a).drive = false ∧ (s.port .a).pulses = [pulse] ∧
         (after (.startOfBeat .a) s).diagram.latches.get .a = true) ∧
      (let s := onPort .inService { PortData.reset with pulses := [{ pulse with ended := some 1000000 }] }
       (after (.startOfBeat .a) s).diagram.latches.get .a = true) := by decide +kernel

/-! ### Several requests at one frame start (R47, R49) -/

/-- Requests wait at a frame start, circuit 1 as given, the first arrival track of section A. -/
def queued (k : CircuitData) (os : List TrackOp) : State :=
  let s := listening (withSection .a { secAt .clearIn with record := some ⟨[], [], [0], true⟩ } (between k))
  { s with track := { s.track with ops := os } }

theorem test_requests_in_their_order :
    (let t := after .scanFrameStart (queued (circuitAt .clear) [.tune 0 [(.ref, 600)], .tune 1 [], .tune 0 [(.ref, 700),
       (.pick, 170)]])
     (t.circuit 0).live = some { TcRecord.default with window := 8, ref := 700, pick := 170 } ∧ (t.circuit 0).q = 11200 ∧
       (t.circuit 0).state = .clear) ∧
    (let t := after .scanFrameStart (queued (circuitAt .clear) [.tune 0 [(.ref, 600)], .load 0 TcRecord.default,
       .tune 0 [(.floor, 31)]])
     (t.circuit 0).live = some { TcRecord.default with floor := 31 } ∧ (t.circuit 0).state = .occupied ∧
       (t.circuit 0).q = 8000 ∧ (t.circuit 0).stale = true) ∧
    (let t := after .scanFrameStart (queued (circuitAt .clear) [.load 0 TcRecord.default, .erase, .tune 0 [(.ref, 20)]])
     (t.circuit 0).state = .disabled ∧ (t.circuit 0).live = none ∧ (t.circuit 0).stale = false) := by decide +kernel

/-- A circuit erased and loaded again at one frame start changes twice. -/
theorem test_erased_and_loaded :
    (let s := queued (circuitAt .occupied) [.erase, .load 0 TcRecord.default]
     let t := after .scanFrameStart s
     (s.circuit 0).state ≠ .disabled ∧ (t.circuit 0).state = .occupied ∧ t.inbox.changes = [.track 0 .occupied, .track 0 .disabled] ∧
       t.link.reports = [.tc 0] ∧ t.inbox.autoTol = []) ∧
    (after .scanFrameStart (queued (circuitAt .clear) [.erase, .load 0 TcRecord.default])).inbox.autoTol = [.a] := by
  decide +kernel

/-! ### Through working, its codes -/

/-- Through beats placed in a THRU code, at a gap of 450 ms and of 451; and a beat that finds the path its own. -/
theorem test_through_code :
    let k := fun gs e => ({ PortData.reset with
      pulses := [pulse], owner := .incoming, code := some (codeOf .thru gs (some e)) } : PortData)
    let t := fun path gs e => after (.startOfBeat .a) (through path (k gs e) PortData.reset)
    ((t (some .a) [1, 8] 999520).port .a).code = some (codeOf .thru [1, 9] none) ∧
      (t (some .a) [1, 8] 999520).service.path = some .a ∧ ((t (some .a) [1, 8] 999520).port .b).drive = true ∧
      ((t none [1, 9] 999520).port .a).code = some { codeOf .thru [1, 9] none with spoil := .present none } ∧
      ((t none [1, 1, 1, 1] 999519).port .a).code = some (codeOf .thru [1, 1, 1, 1, 1] none) ∧
      ((t (some .b) [1] 999519).port .a).code = some { codeOf .thru [1, 1] none with unrepeated := true } ∧
      ((t none [1, 1, 1, 1, 1] 999519).port .a).sounder = .stroke 1000060 ∧
      ((t none [1, 1, 1, 1, 1] 999519).port .a).code =
        some { codeOf .thru [1, 1, 1, 1, 1] none with spoil := .present none, overflow := true } := by decide +kernel

/-- An OUT code of before the switching out is interrupted, and the beat begins a THRU code. -/
theorem test_through_interrupts :
    let k := fun sp => ({ PortData.reset with
      pulses := [pulse], owner := .outgoing, code := some { codeOf .outgoing [2] (some 999520) with spoil := sp } } : PortData)
    let t := fun sp => after (.startOfBeat .a) (through none (k sp) PortData.reset)
    ((t .absent).port .a).sent = some ⟨[2], .erroneous (some .interrupted), ⟨0, 0, true⟩, 1000000⟩ ∧
      ((t .absent).port .a).code = some (newCode .thru) ∧
      ((t (.present none)).port .a).sent = some ⟨[2], .erroneous none, ⟨0, 0, true⟩, 1000000⟩ ∧
      (t .absent).inbox.codes.length = 1 := by decide +kernel

/-- A repeat is cut by CLASH with no beat in progress, and the path is free (R123). -/
theorem test_repeat_clash_frees_the_path :
    let k : PortData := { PortData.reset with rpt := some ⟨999900, none⟩, drive := true, clash := true }
    let s := through (some .a) PortData.reset k
    (s.port .a).pulses = [] ∧ (after (.repeatClash .b) s).service.path = none := by decide +kernel

/-! ### Marks and refusals -/

/-- A code marked OUT_OF_TURN after one marked so is a change of SEC A (R108). -/
theorem test_marking_is_reported :
    let s := fun m => listening (delivered { secAt .blocked with sentMark := m, rcvdMark := m } .outgoing .cancel)
    (after (.outCodeTaken .a) (s (some .outOfTurn))).link.reports = [.sec .a] ∧
      (after (.outCodeTaken .a) (s none)).link.reports = [.sec .a] ∧
      (after (.inCodeTaken .a) (listening (delivered { secAt .blocked with rcvdMark := some .outOfTurn } .thru
        (.offer 1)))).link.reports = [.sec .a] ∧
      (after (.outCodeTaken .a) (listening (delivered (secAt .closed) .outgoing .cancel))).link.reports = [] := by
  decide +kernel

/-- Several conditions fail: the first in order is named; and what an arrival does with the last refusal. -/
theorem test_refusals_in_order :
    let s := boxing .inService .out
    let why := fun s => (after .arrivalAtOut s).service.refusal
    let bad := withSection .c (secAt .offerIn) (withSection .b (secAt .protected_) ((s.setLever 5 (leverAt .travel)).setLever 3
      (leverAt .nFree)))
    why bad = some (.notBlocked .b) ∧
      why ((s.setLever 5 (leverAt .travel)).setLever 3 (leverAt .nFree)) = some (.lever 3) ∧
      why { (s.setLever 0 (leverAt .nLocked)).setMemory .a ⟨none, none, none, none⟩ with service :=
        { s.service with boxout := some [⟨0, .r⟩, ⟨4, .n⟩] } } = some (.term 0) ∧
      why ((s.setMemory .a ⟨none, none, none, none⟩).setMemory .b ⟨none, none, none, none⟩) = some (.exchange .a) ∧
      (let u := fun v p => (boxing v p).setService { (boxing v p).service with refusal := some .noList }
       (after .arrivalAtOut (u .switchedOut .out)).service.refusal = none ∧
         (after .arrivalAtIn (u .inService .inn)).service.refusal = none ∧
         (after .arrivalAtOut (u .configure .out)).service.refusal = some .noList ∧
         (after .arrivalAtIn (u .powerUp .inn)).service.refusal = some .noList ∧
         (after .arrivalAtOut (u .inService .out)).service.refusal = none) ∧
      (let s := (boxing .switchedOut .inn).setMemory .a ⟨none, none, none, none⟩
       (after .arrivalAtIn (withSection .b { secAt .through with reading := some .lc } s)).service.refusal =
         some (.indicator .b)) := by decide +kernel

/-! ### Diagram -/

/-- A part in which the sources of a LAMP hold, and one in which they do not. -/
def sources : State :=
  let s := withCircuit 0 (circuitAt .clear) (withCircuit 1 (circuitAt .occupied) (base .switchedOut))
  let s := withSection .a { secAt .offerIn with reading := some .lc } (withSection .b { secAt .blocked with
    position := .tol, reading := some .tol } s)
  let s := (((s.setLever 0 { leverAt .rFree with lock := true }).setLever 1 { leverAt .nLocked with refused := true }).setLever
    2 { leverAt .rLocked with record := none })
  s.setDiagram { s.diagram with latches := ⟨true, false, false⟩ }

theorem test_source_conditions :
    (∀ x ∈ [Source.on, .track 0 true, .track 1 false, .lever 0 .r, .lever 0 .free, .lever 1 .n, .lever 1 .refused,
        .sec .a [.blocked, .offerIn], .indicator .a true, .indicator .b false, .bell .a, .box, .disagree (some .b),
        .disagree none], sources.condition x = true) ∧
    (∀ x ∈ [Source.off, .track 0 false, .track 1 true, .lever 0 .n, .lever 0 .refused, .lever 1 .r, .lever 1 .free,
        .lever 2 .r, .sec .a [.blocked], .indicator .a false, .indicator .b true, .bell .b, .disagree (some .a),
        .disagree (some .c)], sources.condition x = false) ∧
    (base .inService).condition .box = false ∧ (base .inService).condition (.disagree none) = false := by decide +kernel

theorem test_diagram_requests :
    (let b := fun s => (⟨s, false, false⟩ : Binding)
     let t := after .diagramFrameStart (diagrammed [.load 0 (b .on), .erase, .load 3 (b .off), .load 3 (b .box)])
     t.diagram.bound = [(3, b .box)] ∧ t.diagram.current.map (·.bindings) = some [(3, b .box)] ∧ t.diagram.host = []) ∧
    (∀ x : Bool, let s := (diagrammed []).setPort .a { PortData.reset with drive := x }
      (after .diagramFrameStart s).diagram.latches = ⟨x, false, false⟩) := by decide +kernel

/-- In POWER_UP an activity is taken and does nothing. -/
theorem test_activity_in_power_up :
    let s := (base .powerUp).setInbox { Inbox.reset with activity := [.grip] }
    after .signallerActivity s = base .powerUp := by decide +kernel

/-! ### Replies: refusals, clamps and defaults -/

/-- The characters of a line of the tests (all of them in ASCII), as Lean's kernel reads them fast. -/
def chars (s : String) : Text := s.toByteArray.data.toList.map fun b => Char.ofNat b.toNat

/-- Each request, a row's, is answered from the state with the reply beside it. -/
def answered (row : Instr) (s : State) (es : List (String × String)) : Bool :=
  es.all fun e =>
    let ws := splitOn ' ' (chars e.1)
    let u := asked ws s
    decide (u.asks row ws ∧ repliesWith (splitOn ' ' (chars e.2)) u (after row u))

theorem test_lev_replies : answered .lev (base .configure) [
    ("LEV", "?RANGE 2"), ("LEV 0 X", "?RANGE 2"), ("LEV 49", "?RANGE 2"), ("LEV 48", "?FORM 3"), ("LEV 3 FOO", "?FORM 3"),
    ("LEV 3 GATE FOO", "?FORM 4"), ("LEV 3 SPARE TC 1 BOTH", "?FORM 4"), ("LEV 3 SPARE G 1 ACTIVE BOTH", "?FORM 4"),
    ("LEV 3 POINTS BLOCK A", "?FORM 4"), ("LEV 3 LOCK APPROACH 1", "?FORM 4"), ("LEV 3 SIGNAL ASEC A", "?FORM 4"),
    ("LEV 3 SIGNAL TIME 10", "?FORM 4"), ("LEV 3 POINTS TIME 10 ASEC A", "?FORM 6"),
    ("LEV 3 SIGNAL TIME 10 ASEC A", "?FORM 6"), ("LEV 3 SIGNAL APPROACH", "?FORM 5"), ("LEV 3 SIGNAL BLOCK D", "?RANGE 5"),
    ("LEV 3 SIGNAL APPROACH 4 TIME X", "?FORM"), ("LEV 3 SIGNAL APPROACH 4 TIME", "?FORM"),
    ("LEV 3 SIGNAL APPROACH 1 ASEC D", "?RANGE 7"), ("LEV 3 SIGNAL APPROACH 21", "?RANGE 5"),
    ("LEV 3 SIGNAL APPROACH 4 4", "?CONFLICT 6"), ("LEV 3 SIGNAL APPROACH 1 2 3 4", "?RANGE 8"),
    ("LEV 3 SIGNAL TC 4 LEAVE_R", "?FORM 6"), ("LEV 3 SIGNAL TC 4 BOTH", "?FORM 6"), ("LEV 3 SIGNAL G 4 ACTIVE BOTH", "?FORM 7"),
    ("LEV 3 POINTS TC 21 LEAVE_N", "?RANGE 5"), ("LEV 3 POINTS G 0 ACTIVE LEAVE_N", "?RANGE 5"),
    ("LEV 3 POINTS TC 4 FOO", "?FORM 6"), ("LEV 3 POINTS G 4 ACTIVE FOO", "?FORM 7"), ("LEV 3 POINTS G 4 FOO LEAVE_N", "?FORM 6"),
    ("LEV 3 POINTS TC 4 LEAVE_N TC 4 LEAVE_N", "?CONFLICT 8"),
    ("LEV 3 POINTS G 4 ACTIVE LEAVE_N G 4 INACTIVE LEAVE_N", "?CONFLICT 9"),
    ("LEV 3 POINTS TC 1 LEAVE_N TC 2 LEAVE_N TC 3 LEAVE_N TC 4 LEAVE_N TC 5 LEAVE_N", "?RANGE 16"),
    ("LEV 3 POINTS G 1 ACTIVE LEAVE_N G 2 ACTIVE LEAVE_N G 3 ACTIVE LEAVE_N", "?RANGE 12"),
    ("LEV 3 POINTS G 17 ACTIVE LEAVE_N TC 21 LEAVE_N", "?RANGE 9"),
    ("LEV 3 SIGNAL APPROACH 4 TIME 9", "=LEV 3 SIGNAL APPROACH 4 TIME 10 CLAMPED"),
    ("LEV 3 SIGNAL APPROACH 4 TIME 600", "=LEV 3 SIGNAL APPROACH 4 TIME 600"),
    ("LEV 3 SIGNAL APPROACH 4", "=LEV 3 SIGNAL APPROACH 4 TIME 120")] = true := by decide +kernel

/-- A table full of 320 entries. -/
def fullTable : State :=
  { base .configure with
    locking := List.replicate 320 ⟨⟨0, .n⟩, ⟨1, .n⟩, []⟩
    codes := List.replicate 24 ⟨[1], .cancel⟩ }

theorem test_lock_replies : answered .lock (base .configure) [
    ("LOCK 0 X", "?RANGE 2"), ("LOCK 1 N 49", "?RANGE 4"), ("LOCK 1 N 2 R IF 0 X", "?RANGE 7"), ("LOCK 1 X", "?FORM 3"),
    ("LOCK 1 N 2 X", "?FORM 5"), ("LOCK 1 N 2 R IF 3 X Z", "?FORM 8"), ("LOCK", "?FORM 2"), ("LOCK 1", "?FORM 3"),
    ("LOCK 1 N", "?FORM 4"), ("LOCK 1 N 2", "?FORM 5"), ("LOCK 1 N 2 N IF 3 N 3", "?CONFLICT 9"),
    ("LOCK 1 N 2 N IF 3 N 4 N X", "?RANGE 11")] = true ∧
    fullTable.locking.length = 320 ∧ answered .lock fullTable [
      ("LOCK 1 N 2 N", "?CONFLICT 1"), ("LOCK 1 N 3 N", "?FULL")] = true := by decide +kernel

theorem test_sec_and_boxout_replies : answered .sec (base .configure) [
    ("SEC", "?RANGE 2"), ("SEC D X", "?RANGE 2"), ("SEC A FOO 1", "?FORM 3"), ("SEC A ACCEPT 49", "?RANGE 4"),
    ("SEC A CLEARING 21", "?RANGE 4"), ("SEC A ARRIVAL 0", "?RANGE 4"), ("SEC A AUTOTOL 2", "?FORM 4"),
    ("SEC A ACCEPT 4 4", "?CONFLICT 5"), ("SEC A CLEARING 4 4", "?CONFLICT 5"), ("SEC A ARRIVAL 4 4", "?CONFLICT 5"),
    ("SEC A ACCEPT 1 2 3 4 5 6 7", "?RANGE 10"), ("SEC A CLEARING 1 2 3 4 5", "?RANGE 8"),
    ("SEC A ARRIVAL 1 2 3 4 4", "?RANGE 8"), ("SEC B", "=SEC B AUTOTOL 0")] = true ∧
    answered .boxout (base .configure) [
      ("BOXOUT 0", "?RANGE 2"), ("BOXOUT 49 N", "?RANGE 2"), ("BOXOUT X", "?FORM 2"), ("BOXOUT 4 X 5", "?FORM 3"),
      ("BOXOUT 4", "?FORM 3"), ("BOXOUT 4 N 4 R X", "?CONFLICT 4"),
      ("BOXOUT 1 N 2 N 3 N 4 N 5 N 6 N 7 N 8 N 9", "?RANGE 18"), ("BOXOUT 5 R 4 N", "=BOXOUT 4 N 5 R")] = true := by
  decide +kernel

theorem test_tc_replies : answered .tc (base .configure) [
    ("TC", "?RANGE 2"), ("TC 21 X", "?RANGE 2"), ("TC 3 PHASE 7", "?RANGE 4"), ("TC 3 GROUP 8 X", "?RANGE 4"),
    ("TC 3 INV 2", "?FORM 4"), ("TC 3 FOO", "?FORM 3"), ("TC 3 FINE X", "?FORM 4"), ("TC 3 FINE", "?FORM 4"),
    ("TC 3 FINE 40 FINE 41", "?CONFLICT 5"),
    ("TC 3 COARSE 3", "=TC 3 COARSE 2 FINE 32 WINDOW 16 REF 500 DROP 96 PICK 160 FLOOR 30 LOW 60 JOINT 40 DROPF 1 PICKF 10 " ++
      "PHASE 0 INV 0 GROUP 0 CLAMPED"),
    ("TC 3 REF 2501", "=TC 3 COARSE 1 FINE 32 WINDOW 16 REF 2500 DROP 96 PICK 160 FLOOR 30 LOW 60 JOINT 40 DROPF 1 PICKF 10 " ++
      "PHASE 0 INV 0 GROUP 0 CLAMPED"),
    ("TC 3 DROP 150", "=TC 3 COARSE 1 FINE 32 WINDOW 16 REF 500 DROP 150 PICK 166 FLOOR 30 LOW 60 JOINT 40 DROPF 1 " ++
      "PICKF 10 PHASE 0 INV 0 GROUP 0 CLAMPED"),
    ("TC 3 DROP 224 PICK 0", "=TC 3 COARSE 1 FINE 32 WINDOW 16 REF 500 DROP 224 PICK 240 FLOOR 30 LOW 60 JOINT 40 DROPF 1 " ++
      "PICKF 10 PHASE 0 INV 0 GROUP 0 CLAMPED"),
    ("TC 3", "=TC 3 COARSE 1 FINE 32 WINDOW 16 REF 500 DROP 96 PICK 160 FLOOR 30 LOW 60 JOINT 40 DROPF 1 PICKF 10 " ++
      "PHASE 0 INV 0 GROUP 0")] = true := by decide +kernel

theorem test_times_replies : answered .times (base .configure) [
    ("TIMES FOO", "?FORM 2"), ("TIMES FRAME", "?FORM 3"), ("TIMES LOCALMODE 1", "?FORM"), ("TIMES FRAME X", "?FORM"),
    ("TIMES FRAME 50 FRAME 60", "?CONFLICT 4"),
    ("TIMES FRAME JOIN 450", "?FORM"), ("TIMES FRAME 50 FRAME", "?CONFLICT 4"), ("TIMES DARKOUT 2", "?FORM"),
    ("TIMES PROOF 0", "=TIMES TRAVEL 15 FRAME 50 REVERSE 8 PROOF 0 TRACK 5 BEATMIN 30 BEATMAX 400 JOIN 450 END 1800 " ++
      "LOCALMODE STROKE STROKE 60 INDSTABLE 200 EMREL 120 CODEWIN 180 DIV 4 FLASHMS 500 IDLE 30 DARKOUT 1 ROWREV 0 COLREV 0"),
    ("TIMES PROOF 4", "=TIMES TRAVEL 15 FRAME 50 REVERSE 8 PROOF 5 TRACK 5 BEATMIN 30 BEATMAX 400 JOIN 450 END 1800 " ++
      "LOCALMODE STROKE STROKE 60 INDSTABLE 200 EMREL 120 CODEWIN 180 DIV 4 FLASHMS 500 IDLE 30 DARKOUT 1 ROWREV 0 COLREV 0 " ++
      "CLAMPED"),
    ("TIMES LOCALMODE FOLLOW", "=TIMES TRAVEL 15 FRAME 50 REVERSE 8 PROOF 20 TRACK 5 BEATMIN 30 BEATMAX 400 JOIN 450 END " ++
      "1800 LOCALMODE FOLLOW STROKE 60 INDSTABLE 200 EMREL 120 CODEWIN 180 DIV 4 FLASHMS 500 IDLE 30 DARKOUT 1 ROWREV 0 " ++
      "COLREV 0"),
    ("TIMES JOIN 900 END 1099", "=TIMES TRAVEL 15 FRAME 50 REVERSE 8 PROOF 20 TRACK 5 BEATMIN 30 BEATMAX 400 JOIN 900 END " ++
      "1100 LOCALMODE STROKE STROKE 60 INDSTABLE 200 EMREL 120 CODEWIN 180 DIV 4 FLASHMS 500 IDLE 30 DARKOUT 1 ROWREV 0 " ++
      "COLREV 0 CLAMPED")] = true := by decide +kernel

theorem test_code_replies : answered .code (base .configure) [
    ("CODE", "?FORM 2"), ("CODE 1-2-3-4-5-6 X", "?RANGE 2"), ("CODE 0 CANCEL", "?RANGE 2"), ("CODE 10 CANCEL", "?RANGE 2"),
    ("CODE 1--2 X", "?FORM 2"), ("CODE 1-2", "?FORM 3"), ("CODE 1-2 OFFER", "?FORM 4"), ("CODE 1-2 INFO", "?FORM 4"),
    ("CODE 1-2 FOO 3", "?FORM 3"), ("CODE 1-2 OFFER 16", "?RANGE 4"), ("CODE 1-2 INFO 100", "?RANGE 4"),
    ("CODE 1-2 CANCEL 3", "?FORM 4")] = true ∧
    fullTable.codes.length = 24 ∧ answered .code fullTable [
      ("CODE 1 OFFER 3", "?CONFLICT 1"), ("CODE 2 OFFER 3", "?FULL")] = true := by decide +kernel

theorem test_lamp_replies : answered .lamp (base .configure) [
    ("LAMP 0 1 ON", "=LAMP 0 1 ON STEADY 0"), ("LAMP 0 1 BELL B", "=LAMP 0 1 BELL B STEADY 0"),
    ("LAMP 0 1 TRACK 3 CLR FLASH", "=LAMP 0 1 TRACK 3 CLR FLASH 0"), ("LAMP 16 0 ON", "?RANGE 2"), ("LAMP 15 32 ON", "?RANGE 3"),
    ("LAMP 0 1", "?FORM 4"), ("LAMP 0 1 FOO", "?FORM 4"), ("LAMP 0 1 TRACK 21", "?RANGE 5"), ("LAMP 0 1 LEVER 0", "?RANGE 5"),
    ("LAMP 0 1 SECTION D", "?RANGE 5"), ("LAMP 0 1 INDICATOR D", "?RANGE 5"), ("LAMP 0 1 BELL D", "?RANGE 5"),
    ("LAMP 0 1 TRACK", "?FORM 5"), ("LAMP 0 1 LEVER", "?FORM 5"), ("LAMP 0 1 SECTION", "?FORM 5"),
    ("LAMP 0 1 INDICATOR", "?FORM 5"), ("LAMP 0 1 BELL", "?FORM 5"), ("LAMP 0 1 DISAGREE", "?FORM 5"), ("LAMP 0 1 BOX", "?FORM 5"),
    ("LAMP 0 1 ON X", "?FORM 5"), ("LAMP 0 1 ON 2", "?FORM 5"), ("LAMP 0 1 ON STEADY 2", "?FORM 6"),
    ("LAMP 0 1 HOST STEADY", "?FORM 5"), ("LAMP 0 1 ALARM 0", "?FORM 5"), ("LAMP 0 1 TRACK 1", "?FORM 6"),
    ("LAMP 0 1 LEVER 1", "?FORM 6"), ("LAMP 0 1 SECTION A", "?FORM 6"), ("LAMP 0 1 INDICATOR A", "?FORM 6"),
    ("LAMP 0 1 TRACK 1 X", "?FORM 6"), ("LAMP 0 1 LEVER 1 X", "?FORM 6"), ("LAMP 0 1 SECTION A X", "?FORM 6"),
    ("LAMP 0 1 INDICATOR A LB", "?FORM 6"), ("LAMP 0 1 SECTION A BLOCKED BLOCKED X", "?CONFLICT 7")] = true := by decide +kernel

theorem test_object_words :
    answered .unknownKeyword (base .configure) [
      ("SHOW", "?FORM 2"), ("CLEAR FOO", "?FORM 2"), ("TUNE FOO 1", "?FORM 2"), ("RAW", "?FORM"), ("RAW FOO 1", "?FORM"),
      ("ERASE FOO", "?FORM"), ("ERASE", "?FORM")] = true ∧
    answered .unknownKeyword (base .inService) [("ERASE FOO", "?STATE")] = true ∧
    answered .unknownKeyword (base .powerUp) [
      ("SHOW FOO", "?STATE"), ("CLEAR", "?STATE"), ("TUNE X", "?STATE"), ("RAW X", "?STATE"), ("ERASE", "?STATE")] = true ∧
    answered .notify (base .inService) [
      ("NOTIFY LEV TC FOO", "?FORM 4"), ("NOTIFY LEV TC LEV", "?CONFLICT 4"), ("NOTIFY X", "?FORM 2")] = true ∧
    answered .start (base .configure) [
      ("START", "?FORM 2"), ("START 1234567", "?FORM 2"), ("START XXXXXXXX Y", "?FORM 2")] = true := by decide +kernel

theorem test_tune_and_clear_refused :
    (loaded.circuit 0).stored = some TcRecord.default ∧ (loaded.circuit 1).stored = none ∧
    answered .tuneTc loaded [
      ("TUNE TC 21 X", "?RANGE 3"), ("TUNE TC", "?RANGE 3"), ("TUNE TC 2 X", "?RANGE 3"), ("TUNE TC 1 FOO 3", "?FORM 4"),
      ("TUNE TC 1 PHASE 3", "?FORM 4"), ("TUNE TC 1 FINE 40 FINE 41", "?CONFLICT 6"), ("TUNE TC 1 FINE X", "?FORM")] = true ∧
    answered .tuneGroup loaded [
      ("TUNE GROUP", "?RANGE 3"), ("TUNE GROUP 8", "?RANGE 3"), ("TUNE GROUP 0", "?RANGE 3"),
      ("TUNE GROUP 1 WINDOW 9", "?FORM"), ("TUNE GROUP 1 FOO 9", "?FORM"), ("TUNE GROUP 7 FINE 40 FINE 41", "?CONFLICT 6")] = true ∧
    answered .clearTc loaded [("CLEAR TC 0", "?RANGE 3"), ("CLEAR TC", "?RANGE 3"), ("CLEAR TC 2", "?RANGE")] = true ∧
    answered .clearLev loaded [("CLEAR LEV 49 X", "?RANGE 3"), ("CLEAR LEV", "?RANGE 3")] = true := by decide +kernel

/-- Several fields; and a group of two, each tuned by its own DROP and PICK. -/
theorem test_tune_several :
    let g := { TcRecord.default with group := 7 }
    let s := withCircuit 4 { CircuitData.reset with stored := some { g with pick := 180 } } (withCircuit 2
      { CircuitData.reset with stored := some g } loaded)
    answered .tuneTc loaded [
      ("TUNE TC 1 FINE 40 DROP 300", "=TUNE TC 1 FINE 40 DROP 224 PICK 240 CLAMPED"),
      ("TUNE TC 1 PICK 100 DROP 90 REF 600", "=TUNE TC 1 PICK 106 DROP 90 REF 600 CLAMPED")] = true ∧
    answered .tuneGroup s [
      ("TUNE GROUP 7 DROP 150", "=TUNE GROUP 7 MEMBERS 2 DROP 150 PICK 166 CLAMPED"),
      ("TUNE GROUP 7 DROP 100 PICK 100", "=TUNE GROUP 7 MEMBERS 2 DROP 100 PICK 116 CLAMPED"),
      ("TUNE GROUP 6 FINE 40", "=TUNE GROUP 6 MEMBERS 0")] = true ∧
    (after .tuneGroup (asked (splitOn ' ' (chars "TUNE GROUP 7 DROP 150")) s)).track.ops =
      [.tune 2 [(.drop, 150), (.pick, 166)], .tune 4 [(.drop, 150)]] := by decide +kernel

theorem test_clock_and_brightness_replies : answered .clock (base .configure) [
    ("CLOCK 24:00:00", "?RANGE 2"), ("CLOCK 23:60:00 X", "?RANGE 2"), ("CLOCK 23:59:60 1", "?RANGE 2"),
    ("CLOCK 23:59:59", "?FORM 3"), ("CLOCK 23:00:00 X Y", "?FORM 3"), ("CLOCK 23:00:00 65536", "?RANGE 3"), ("CLOCK", "?FORM 2"),
    ("CLOCK 230000 1", "?FORM 2")] = true ∧
    answered .bright (base .configure) [("BRIGHT X", "?FORM"), ("BRIGHT 256", "=BRIGHT 255 CLAMPED")] = true ∧
    answered .dim (base .configure) [("DIM X", "?FORM"), ("DIM 256", "=DIM 255 CLAMPED")] = true := by decide +kernel

/-- PAINT goes on from the end of a row to the next, and stops at (15,31). -/
theorem test_paint_several :
    let h : Binding := ⟨.host, false, false⟩
    let s := (base .inService).setDiagram { Diagram.reset with bound := [(31, h), (33, h), (510, h), (511, h)] }
    let painted := fun q => (after .paint (asked (splitOn ' ' (chars q)) s)).diagram.host
    answered .paint s [
      ("PAINT 16 0 ON", "?RANGE 2"), ("PAINT 15 32 ON", "?RANGE 3"), ("PAINT 1 2", "?RANGE 4"), ("PAINT 1 2 ON FOO OFF", "?FORM 5"),
      ("PAINT 0 0 ON ON ON ON ON ON ON ON ON ON ON ON ON ON ON ON ON ON ON ON ON ON ON ON ON ON ON ON ON ON ON ON ON",
        "?RANGE 36"),
      ("PAINT 0 31 ON OFF FLASH", "=PAINT 2"), ("PAINT 15 30 ON FLASH OFF ON", "=PAINT 2")] = true ∧
    painted "PAINT 0 31 ON OFF FLASH" = [(31, .on), (33, .flash)] ∧
    painted "PAINT 15 30 ON FLASH OFF ON" = [(510, .on), (511, .flash)] := by decide +kernel

/-- A section with everything to show, and its port. -/
def showing : State :=
  let c : ClockTime := ⟨0, 1, false⟩
  let k : SectionData := { secAt .enteredIn with
    position := .lc, reading := none, timer := some 1000001, cancelHeard := true, releases := 2
    train := some { trainOf true .entered with accepted := some c, entered := some c, progress := 1 }
    sentMark := some .taken, rcvdMark := some .outOfTurn }
  let r : CodeRecord := ⟨[1, 2], .meaning (.offer 3), c, 5⟩
  let s := withSection .a k ((base .inService).setPort .a { PortData.reset with
    sense := .outgoing, sensed := true, drive := true, owner := .outgoing, out := some ⟨999990, true⟩
    code := some { newCode .outgoing with spoil := .present (some .held), suppressed := true }
    held := true, sounder := .follow, sent := some r, rcvd := some { r with cls := .erroneous (some .clashed) } })
  let s := (s.setMemory .a ⟨some ⟨[2, 2], .meaning .boxOut, c, 5⟩, none, some 999000, some 1000000⟩)
  (s.setService { s.service with refusal := some (.notBlocked .b), path := some .a }).setInbox
    { Inbox.reset with codes := [⟨.a, .incoming, r, false⟩] }

theorem test_show_sec_parts : answered .showSec showing [
    ("SHOW SEC A", "=SHOW SEC A ENTERED_IN DRIVE TOL IN INVALID SW LC CANCEL DISAGREE EMREL 1 COUNT 2 TRAIN 7 ENTERED 1"),
    ("SHOW SEC A TRAIN", "=SHOW SEC A TRAIN 7 IN 3 ENTERED P 1 OFF 0/00:00:00.0U ACC 0/00:00:00.1 ENT 0/00:00:00.1"),
    ("SHOW SEC B TRAIN", "=SHOW SEC B TRAIN NONE"),
    ("SHOW SEC A BELL", "=SHOW SEC A BELL OUT ON OUT OUT 1 HELD SUPPRESSED HELD LOCAL ON"),
    ("SHOW SEC A SENT", "=SHOW SEC A SENT 1-2 OFFER 3 0/00:00:00.1 TAKEN"),
    ("SHOW SEC A RCVD", "=SHOW SEC A RCVD 1-2 ERRONEOUS CLASHED 0/00:00:00.1"),
    ("SHOW SEC B SENT", "=SHOW SEC B SENT NONE"),
    ("SHOW SEC", "?RANGE 3"), ("SHOW SEC D", "?RANGE 3"), ("SHOW SEC A X", "?FORM 4")] = true := by decide +kernel

theorem test_show_box_parts : answered .showBox showing [
    ("SHOW BOX", "=SHOW BOX IN_SERVICE SW IN REFUSED NOT_BLOCKED B FRAME 50 ACTUAL 50 PATH A"),
    ("SHOW BOX CLOCK", "=SHOW BOX CLOCK 0/00:00:00.0U REG 0"),
    ("SHOW BOX PORT A", "=SHOW BOX PORT A SENT 2-2 BOX_OUT 0/00:00:00.1 RCVD NONE"),
    ("SHOW BOX MARKS", "=SHOW BOX MARKS A BOX_OUT 179 A BOX_IN 180"), ("SHOW BOX X", "?FORM 3")] = true ∧
    answered .showBox (handed 256 none) [("SHOW BOX CLOCK", "=SHOW BOX CLOCK 3/23:59:59.9 REG 256 0 255")] = true := by
  decide +kernel

theorem test_show_tc_parts :
    let s := { loaded with track := { loaded.track with ops := [.tune 0 [(.ref, 600), (.fine, 40)], .tune 0 [(.ref, 601)]] } }
    let u := between { circuitAt .clear with stale := true, applied := none, live := none }
    answered .showTc s [
      ("SHOW TC 1 PENDING", "=SHOW TC 1 PENDING FINE 40 REF 601"),
      ("SHOW TC 1 SET", "=SHOW TC 1 SET COARSE 1 FINE 32 WINDOW 16 REF 500 DROP 96 PICK 160 FLOOR 30 LOW 60 JOINT 40 DROPF 1 " ++
        "PICKF 10 PHASE 0 INV 0 GROUP 0"),
      ("SHOW TC 2 SET", "=SHOW TC 2 SET DISABLED UNLOADED"), ("SHOW TC 2 PENDING", "=SHOW TC 2 PENDING DISABLED UNLOADED"),
      ("SHOW TC 21", "?RANGE 3"), ("SHOW TC", "?RANGE 3"), ("SHOW TC 1 X", "?FORM 4")] = true ∧
    (u.circuit 0).stored ≠ none ∧ (u.circuit 0).live = none ∧
    (asked [W.SHOW, W.TC, ['1']] u).asks .showTc [W.SHOW, W.TC, ordinal (0 : Circuit)] := by decide +kernel

theorem test_show_lev_group_and_lamp :
    let f : LampFrame := ⟨[(34, .flash)], [(34, ⟨.host, false, false⟩)], true, 95, .active, 200, true, true⟩
    let s := withCircuit 4 { CircuitData.reset with stored := some { TcRecord.default with group := 7 } } loaded
    let s := { s with track := { s.track with ops := [.tune 4 [(.floor, 31)]] } }
    let s := s.setDiagram { s.diagram with published := some f, host := [(34, .on)] }
    answered .showGroup s [
      ("SHOW GROUP 7", "=SHOW GROUP 7 MEMBERS 1 COARSE 1 FINE 32 DROP 96 PICK 160 FLOOR 31"), ("SHOW GROUP 8", "?RANGE 3"),
      ("SHOW GROUP", "?RANGE 3")] = true ∧
    answered .showLamp s [
      ("SHOW LAMP 1 2", "=SHOW LAMP 1 2 FLASH LIT TON 95 PHYS 14 29 LEVEL ACTIVE B 200 HALF ON HOST ON LAMP 1 2 HOST"),
      ("SHOW LAMP 0 0", "=SHOW LAMP 0 0 OFF UNLIT TON 95 PHYS 15 31 LEVEL ACTIVE B 200 HALF ON UNBOUND"),
      ("SHOW LAMP 16 0", "?RANGE"), ("SHOW LAMP 0 32", "?RANGE")] = true ∧
    (let u := s.setDiagram { s.diagram with host := [] }
     u.diagram.published = some f ∧ mapGet f.bindings 34 = some ⟨.host, false, false⟩ ∧ mapGet u.diagram.host 34 = none ∧
       (asked [W.SHOW, W.LAMP, ['1'], ['2']] u).asks .showLamp [W.SHOW, W.LAMP, digits 1, digits 2]) ∧
    answered .showLev s [("SHOW LEV 0", "?RANGE 3"), ("SHOW LEV 49 X", "?RANGE 3"), ("SHOW LEV", "?RANGE 3"),
      ("SHOW LEV 1 X", "?FORM 4")] = true := by decide +kernel

/-- A register with one entry of each kind, numbered from 0. -/
def entries : State :=
  let c : ClockTime := ⟨1, 863999, false⟩
  let bodies : List RegBody := [.bell .a .thru [1, 2] .unknown, .change .a .clearIn .enteredIn (some 7) true,
    .train 7 .b false 3 .void c none, .release .c 9, .lever 47 .stalled, .track 19 (some .lowRef), .track 0 none,
    .box .withdrawn, .disagree none, .disagree (some .b), .crossed .a, .clock c c]
  let s := base .inService
  { s with register := ⟨bodies.zipIdx.map fun e => ⟨BitVec.ofNat 16 e.2, c, e.1⟩, 12, c⟩ }

theorem test_reg_entries : answered .reg entries [
    ("REG 0", "=REG 0 1/23:59:59.9 BELL A THRU 1-2 UNKNOWN"),
    ("REG 1", "=REG 1 1/23:59:59.9 SECTION A CLEAR_IN ENTERED_IN 7 AUTO"),
    ("REG 2", "=REG 2 1/23:59:59.9 TRAIN 7 B OUT 3 VOID 1/23:59:59.9"),
    ("REG 3", "=REG 3 1/23:59:59.9 RELEASE C 9"), ("REG 4", "=REG 4 1/23:59:59.9 LEVER 48 STALLED"),
    ("REG 5", "=REG 5 1/23:59:59.9 TRACK 20 FAILED LOW_REF"), ("REG 6", "=REG 6 1/23:59:59.9 TRACK 1 RESTORED"),
    ("REG 7", "=REG 7 1/23:59:59.9 BOX WITHDRAWN"), ("REG 8", "=REG 8 1/23:59:59.9 DISAGREE BOX"),
    ("REG 9", "=REG 9 1/23:59:59.9 DISAGREE B"), ("REG 10", "=REG 10 1/23:59:59.9 CROSSED A"),
    ("REG 11", "=REG 11 1/23:59:59.9 CLOCK 1/23:59:59.9 1/23:59:59.9"), ("REG 12", "?GONE 0"), ("REG X", "?FORM"),
    ("REG", "?FORM"), ("REG 65536", "?RANGE")] = true ∧
    answered .reg (base .inService) [("REG 0", "?GONE")] = true ∧
    answered .rawTc (base .inService) [("RAW TC 0", "?RANGE"), ("RAW TC 21", "?RANGE"), ("RAW TC 1", "?RANGE"),
      ("RAW TC", "?RANGE")] = true := by
  decide +kernel

/-- A lever found away at START is reported, though it stood in TRAVEL already (R20). -/
theorem test_start_reports :
    let s := listening (starting ready)
    s.asks .start [W.START, ready.digestWord] ∧ (s.lever 3).pos = .travel ∧ Item.lev 3 ∈ (after .start s).link.reports := by
  decide +kernel

/-! ### Invariants -/

/-- A part in service with lever 1 free, section C blocked and a tapper driving port C. -/
def running : State :=
  let s := withSection .c { secAt .blocked with record := some ⟨[], [], [], false⟩ } ((base .inService).setLever 0
    (leverAt .nFree))
  s.setPort .c { PortData.reset with
    drive := true, out := some ⟨999990, true⟩, owner := .outgoing, code := some (newCode .outgoing) }

theorem test_invariants_witness :
    running.leversOk ∧ running.sectionsOk ∧ running.portsOk ∧ running.trackOk ∧ running.registerOk ∧
      step running = .next { running with now := 1000001 } := by
  refine ⟨?_, ?_, ?_, ?_, ?_, rfl⟩
  · unfold State.leversOk State.leverOk
    decide +kernel
  · refine ⟨?_, ?_, by decide⟩
    · intro x
      cases x <;> exact ⟨by unfold SectionData.ok; refine ⟨?_, ?_, ?_, ?_, ?_, ?_, ?_, ?_⟩ <;> decide,
        show (running.section_ _).state ≠ .through ∧
          ((running.section_ _).state = .closed ↔ (running.section_ _).record = none) by decide⟩
    · intro _ h
      exact absurd h (by decide)
  · intro p
    cases p <;> refine ⟨?_, by decide, by decide⟩
    · simp [PortData.ok, State.port, PerSec.get, running, base, withSection, State.setSection, State.setLever, State.setPort,
        PerSec.set, State.reset, PortData.reset]
    · simp [PortData.ok, State.port, PerSec.get, running, base, withSection, State.setSection, State.setLever, State.setPort,
        PerSec.set, State.reset, PortData.reset]
    · simp [PortData.ok, State.port, PerSec.get, running, State.setPort, PerSec.set, PortData.reset, newCode, Code.ok,
        Config.maxGroups, Config.maxBeats]
  · have hc : ∀ c, running.circuit c = CircuitData.reset := by decide +kernel
    refine ⟨by decide, by simp [running, State.setPort, withSection, State.setSection, State.setLever, base, State.reset,
      TrackUnit.reset], ?_⟩
    intro c
    rw [hc c]
    refine ⟨by decide, ?_, by decide, by decide, by decide⟩
    intro r h
    cases h
  · refine ⟨⟨by decide, trivial, by decide, by decide⟩, ?_⟩
    unfold Link.ok
    decide

end Sys2Proof.Tests
end

/-! ### What a command leaves as it was, step by step -/

namespace Sys2Proof.Machine

/-- An entry a unit's own part may make where it writes these parts: no DISAGREE, and the change of a section it writes
only. -/
def RegBody.within (ps : List Part) : RegBody → Prop
  | .change x .. => .section_ x ∈ ps
  | .disagree _ => False
  | _ => True

section
variable (ps : List Part)

@[simp] theorem RegBody.within_change (x : Sec) (a b : SecState) (k : Option Nat) (auto : Bool) :
    (RegBody.change x a b k auto).within ps ↔ .section_ x ∈ ps := Iff.rfl
@[simp] theorem RegBody.within_bell (p : Sec) (d : Dir) (b : List Nat) (c : Classification) :
    (RegBody.bell p d b c).within ps := trivial
@[simp] theorem RegBody.within_train (k : Nat) (x : Sec) (i : Bool) (c : Nat) (e : TrainEnd) (o : ClockTime)
    (n : Option ClockTime) : (RegBody.train k x i c e o n).within ps := trivial
@[simp] theorem RegBody.within_release (x : Sec) (k : Nat) : (RegBody.release x k).within ps := trivial
@[simp] theorem RegBody.within_lever (n : Lever) (e : LeverEntry) : (RegBody.lever n e).within ps := trivial
@[simp] theorem RegBody.within_track (t : Circuit) (f : Option FailCause) : (RegBody.track t f).within ps := trivial
@[simp] theorem RegBody.within_box (e : BoxEntry) : (RegBody.box e).within ps := trivial
@[simp] theorem RegBody.within_clash (p : Sec) : (RegBody.clash p).within ps := trivial
@[simp] theorem RegBody.within_crossed (x : Sec) : (RegBody.crossed x).within ps := trivial

end

theorem RegBody.within_mono {ps qs : List Part} {e : RegBody} (h : e.within ps) (hs : ps ⊆ qs) : e.within qs := by
  cases e with
  | change x => exact hs h
  | _ => exact h

/-- Entries of these kinds are handed on, and only added to. -/
def EntersOnly (ok : RegUnit × RegBody → Prop) (s t : State) : Prop :=
  ∃ es, t.inbox.entries = s.inbox.entries ++ es ∧ ∀ e ∈ es, ok e

theorem EntersOnly.refl (ok : RegUnit × RegBody → Prop) (s : State) : EntersOnly ok s s :=
  ⟨[], by simp, by simp⟩

theorem EntersOnly.trans {ok : RegUnit × RegBody → Prop} {s t u : State} (h₁ : EntersOnly ok s t)
    (h₂ : EntersOnly ok t u) : EntersOnly ok s u := by
  obtain ⟨es, hes, hok⟩ := h₁
  obtain ⟨fs, hfs, hok'⟩ := h₂
  refine ⟨es ++ fs, by rw [hfs, hes, List.append_assoc], fun e he => ?_⟩
  exact (List.mem_append.1 he).elim (hok e) (hok' e)

theorem EntersOnly.of_eq {ok : RegUnit × RegBody → Prop} {s t : State} (h : t.inbox.entries = s.inbox.entries) :
    EntersOnly ok s t :=
  ⟨[], by simp [h], by simp⟩

theorem EntersOnly.mono {ok ok' : RegUnit × RegBody → Prop} {s t : State} (h : EntersOnly ok s t)
    (hi : ∀ e, ok e → ok' e) : EntersOnly ok' s t := by
  obtain ⟨es, hes, hok⟩ := h
  exact ⟨es, hes, fun e he => hi e (hok e he)⟩

theorem EntersOnly.grows {ok : RegUnit × RegBody → Prop} {s t : State} (h : EntersOnly ok s t) :
    s.inbox.entries <+: t.inbox.entries := by
  obtain ⟨es, hes, -⟩ := h
  exact ⟨es, hes.symm⟩

/-- A part is as it was before the end of a step: as `Part.kept` says, the lists and latches that only the end of a step
adds to are the same, and no entry is added but of the parts written. -/
def Part.same (ps : List Part) (s t : State) : Part → Prop
  | .latches => t.diagram.latches = s.diagram.latches
  | .reports => t.link.reports = s.link.reports
  | .changes => t.inbox.changes = s.inbox.changes
  | .autoTol => t.inbox.autoTol = s.inbox.autoTol
  | .progress => t.inbox.progress = s.inbox.progress
  | .serviceChanges => t.inbox.service = s.inbox.service
  | .entries => EntersOnly (fun e => e.2.within ps) s t
  | p => p.kept s t

/-- Every part but those listed is the same, before the end of the step. -/
def Leaves (changed : List Part) (s t : State) : Prop :=
  ∀ p : Part, p ∉ changed → p.same changed s t

theorem Part.kept_of_same {ps : List Part} {s t : State} {p : Part} (h : p.same ps s t) : p.kept s t := by
  cases p with
  | entries => exact EntersOnly.grows h
  | _ => simp_all [Part.same, Part.kept]

theorem Part.same_refl (ps : List Part) (s : State) (p : Part) : p.same ps s s := by
  cases p with
  | entries => exact EntersOnly.refl _ s
  | _ => simp [Part.same, Part.kept]

theorem Part.kept_trans {s t u : State} {p : Part} (h₁ : p.kept s t) (h₂ : p.kept t u) : p.kept s u := by
  cases p with
  | changes | autoTol | progress | serviceChanges | entries | reports => exact List.IsPrefix.trans h₁ h₂
  | latches => exact fun q hq => h₂ q (h₁ q hq)
  | _ => simp_all [Part.kept]

theorem Part.same_trans {ps : List Part} {s t u : State} {p : Part} (h₁ : p.same ps s t) (h₂ : p.same ps t u) : p.same ps s u := by
  cases p with
  | changes | autoTol | progress | serviceChanges | latches | reports => exact Eq.trans h₂ h₁
  | entries => exact EntersOnly.trans h₁ h₂
  | _ => simp_all [Part.same, Part.kept]

theorem Leaves.keeps {ps : List Part} {s t : State} (h : Leaves ps s t) : keepsAllBut ps s t :=
  fun p hp => Part.kept_of_same (h p hp)

theorem Leaves.trans {ps : List Part} {s t u : State} (h₁ : Leaves ps s t) (h₂ : Leaves ps t u) : Leaves ps s u :=
  fun p hp => Part.same_trans (h₁ p hp) (h₂ p hp)

theorem Leaves.mono {ps qs : List Part} {s t : State} (h : Leaves ps s t) (hs : ps ⊆ qs) : Leaves qs s t :=
  fun p hp => by
    have hq := h p fun hm => hp (hs hm)
    cases p with
    | entries => exact EntersOnly.mono hq fun _ he => RegBody.within_mono he hs
    | _ => exact hq

theorem keepsAllBut.trans {ps : List Part} {s t u : State} (h₁ : keepsAllBut ps s t) (h₂ : keepsAllBut ps t u) :
    keepsAllBut ps s u :=
  fun p hp => Part.kept_trans (h₁ p hp) (h₂ p hp)

theorem keepsAllBut.mono {ps qs : List Part} {s t : State} (h : keepsAllBut ps s t) (hs : ps ⊆ qs) :
    keepsAllBut qs s t :=
  fun p hp => h p fun hm => hp (hs hm)

/-- The end of a step only adds to what is handed on. -/
theorem keepsAllBut_commit (ps : List Part) (s t : State) : keepsAllBut ps t (commit s t) := by
  intro p _
  cases p with
  | latches =>
    intro q hq
    rw [commit_latches]
    simp [latchAfter, hq]
  | entries => exact ⟨_, by rw [commit_entries, ← List.append_assoc]⟩
  | reports => exact prefix_addItems _ _ _
  | changes | autoTol | progress | serviceChanges => exact List.prefix_append _ _
  | _ => simp [Part.kept, State.memory]

/-- A step whose own part leaves all but some parts keeps all but them at its end. -/
theorem Leaves.commit {ps : List Part} {s t : State} (h : Leaves ps s t) : keepsAllBut ps s (commit s t) :=
  h.keeps.trans (keepsAllBut_commit ps s t)

@[simp] theorem Leaves.refl (ps : List Part) (s : State) : Leaves ps s s :=
  fun p _ => Part.same_refl ps s p

section
variable {ps : List Part} {s t : State}

/-- An update of a state that leaves all but some parts, after steps that do. -/
theorem Leaves.update {t u : State} (h : Leaves ps s t) (he : u.inbox.entries = t.inbox.entries)
    (hu : ∀ p, p ∉ ps → p ≠ .entries → p.same ps t u) : Leaves ps s u := by
  refine h.trans fun p hp => ?_
  by_cases hpe : p = .entries
  · subst hpe
    exact ⟨[], by simp [he], by simp⟩
  · exact hu p hp hpe

@[simp] theorem Leaves.setLever {n : Lever} {l : LeverData} (h : Leaves ps s t) (hp : .lever n ∈ ps) :
    Leaves ps s (t.setLever n l) := by
  refine h.update rfl fun p hq hpe => ?_
  cases p with
  | entries => exact absurd rfl hpe
  | lever m =>
    have hm : m ≠ n := fun e => hq (e ▸ hp)
    simp [Part.same, Part.kept, hm]
  | _ => simp [Part.same, Part.kept, State.memory]

@[simp] theorem Leaves.setSection {x : Sec} {k : SectionData} (h : Leaves ps s t) (hp : .section_ x ∈ ps) :
    Leaves ps s (t.setSection x k) := by
  refine h.update rfl fun p hq hpe => ?_
  cases p with
  | entries => exact absurd rfl hpe
  | section_ y =>
    have hy : y ≠ x := fun e => hq (e ▸ hp)
    simp [Part.same, Part.kept, hy]
  | _ => simp [Part.same, Part.kept, State.memory]

@[simp] theorem Leaves.setPort {x : Sec} {k : PortData} (h : Leaves ps s t) (hp : .port x ∈ ps) :
    Leaves ps s (t.setPort x k) := by
  refine h.update rfl fun p hq hpe => ?_
  cases p with
  | entries => exact absurd rfl hpe
  | port y =>
    have hy : y ≠ x := fun e => hq (e ▸ hp)
    simp [Part.same, Part.kept, hy]
  | _ => simp [Part.same, Part.kept, State.memory]

@[simp] theorem Leaves.setTrack {k : TrackUnit} (h : Leaves ps s t) (hp : .track ∈ ps) :
    Leaves ps s (t.setTrack k) := by
  refine h.update rfl fun p hq hpe => ?_
  cases p with
  | entries => exact absurd rfl hpe
  | track => exact absurd hp hq
  | _ => simp [Part.same, Part.kept, State.memory]

@[simp] theorem Leaves.enterAll {u : RegUnit} {es : List RegBody} (h : Leaves ps s t)
    (he : ∀ e ∈ es, e.within ps) : Leaves ps s (t.enterAll u es) := by
  refine h.trans fun p hp => ?_
  cases p with
  | entries =>
    refine ⟨es.map (u, ·), rfl, fun e hm => ?_⟩
    obtain ⟨b, hb, rfl⟩ := List.mem_map.1 hm
    exact he b hb
  | _ => simp [Part.same, Part.kept, State.memory]

@[simp] theorem Leaves.enter {u : RegUnit} {e : RegBody} (h : Leaves ps s t) (he : e.within ps) :
    Leaves ps s (t.enter u e) :=
  h.enterAll (es := [e]) (by simpa using he)

end

@[simp] theorem State.report_lever (s : State) (is : List Item) (n : Lever) : (s.report is).lever n = s.lever n := rfl
@[simp] theorem State.report_section (s : State) (is : List Item) (x : Sec) : (s.report is).section_ x = s.section_ x := rfl
@[simp] theorem State.report_port (s : State) (is : List Item) (p : Sec) : (s.report is).port p = s.port p := rfl
@[simp] theorem State.report_circuit (s : State) (is : List Item) (c : Circuit) : (s.report is).circuit c = s.circuit c := rfl

/-! Replacing a unit's part of the state: of each of its fields, the field is the same or its part is listed. -/

section
variable {ps : List Part} {s t : State}

@[simp] theorem Leaves.setInbox {b : Inbox} (h : Leaves ps s t)
    (h0 : b.frame = t.inbox.frame ∨ Part.frame ∈ ps) (h1 : b.inputs = t.inbox.inputs ∨ Part.inputs ∈ ps)
    (h2 : b.switches = t.inbox.switches ∨ Part.switches ∈ ps)
    (h3 : b.plungers = t.inbox.plungers ∨ Part.plungers ∈ ps) (h4 : b.tappers = t.inbox.tappers ∨ Part.tappers ∈ ps)
    (h5 : b.box = t.inbox.box ∨ Part.box ∈ ps) (h6 : b.activity = t.inbox.activity ∨ Part.activity ∈ ps)
    (h7 : b.demands = t.inbox.demands ∨ Part.demands ∈ ps)
    (h8 : b.backReleases = t.inbox.backReleases ∨ Part.backReleases ∈ ps)
    (h9 : b.changes = t.inbox.changes ∨ Part.changes ∈ ps) (h10 : b.atR = t.inbox.atR ∨ Part.atR ∈ ps)
    (h11 : b.autoTol = t.inbox.autoTol ∨ Part.autoTol ∈ ps) (h12 : b.progress = t.inbox.progress ∨ Part.progress ∈ ps)
    (h13 : b.codes = t.inbox.codes ∨ Part.handedCodes ∈ ps) (h14 : b.exchange = t.inbox.exchange ∨ Part.exchange ∈ ps)
    (h15 : b.readings = t.inbox.readings ∨ Part.readings ∈ ps)
    (h16 : b.service = t.inbox.service ∨ Part.serviceChanges ∈ ps)
    (he : b.entries = t.inbox.entries ∨ Part.entries ∈ ps) :
    Leaves ps s (t.setInbox b) := by
  refine h.trans fun p hq => ?_
  cases p with
  | entries => exact ⟨[], by simpa using he.resolve_right hq, by simp⟩
  | _ => simp_all [Part.same, Part.kept, State.memory]

@[simp] theorem Leaves.setService {v : ServiceUnit} (h : Leaves ps s t)
    (h0 : v.state = t.service.state ∨ Part.serviceState ∈ ps)
    (h1 : (v.position = t.service.position ∧ v.refusal = t.service.refusal) ∨ Part.boxSwitch ∈ ps)
    (h2 : v.path = t.service.path ∨ Part.path ∈ ps) (h3 : v.boxout = t.service.boxout ∨ Part.boxout ∈ ps)
    (hm : ∀ p, v.memory.get p = t.service.memory.get p ∨ Part.memory p ∈ ps) :
    Leaves ps s (t.setService v) := by
  refine h.update rfl fun p hq hpe => ?_
  cases p with
  | entries => exact absurd rfl hpe
  | memory p => exact (hm p).resolve_right hq
  | _ => simp_all [Part.same, Part.kept]

@[simp] theorem Leaves.setDiagram {d : Diagram} (h : Leaves ps s t)
    (h0 : (d.stored = t.diagram.stored ∧ d.ops = t.diagram.ops) ∨ Part.lampMap ∈ ps)
    (h1 : (d.bound = t.diagram.bound ∧ d.host = t.diagram.host) ∨ Part.lampShown ∈ ps)
    (h2 : (d.bright = t.diagram.bright ∧ d.dim = t.diagram.dim) ∨ Part.brightness ∈ ps)
    (h3 : (d.level = t.diagram.level ∧ d.idleFrom = t.diagram.idleFrom) ∨ Part.light ∈ ps)
    (h4 : (d.half = t.diagram.half ∧ d.flashCount = t.diagram.flashCount ∧ d.period = t.diagram.period ∧ d.div = t.diagram.div ∧ d.current = t.diagram.current ∧ d.started = t.diagram.started ∧ d.published = t.diagram.published) ∨ Part.lampFrame ∈ ps)
    (h5 : d.latches = t.diagram.latches ∨ Part.latches ∈ ps) :
    Leaves ps s (t.setDiagram d) := by
  refine h.update rfl fun p hq hpe => ?_
  cases p <;> simp_all [Part.same, Part.kept, State.memory]

@[simp] theorem Leaves.setLink {k : Link} (h : Leaves ps s t)
   
    (h0 : (k.building = t.link.building ∧ k.count = t.link.count ∧ k.long = t.link.long ∧ k.framing = t.link.framing) ∨ Part.rx ∈ ps)
    (h1 : k.queue = t.link.queue ∨ Part.queue ∈ ps)
    (h2 : (k.slot = t.link.slot ∧ k.owed = t.link.owed ∧ k.keptWords = t.link.keptWords) ∨ Part.replySlot ∈ ps)
    (h3 : k.restart = t.link.restart ∨ Part.restartPhase ∈ ps) (h4 : k.heldWords = t.link.heldWords ∨ Part.held ∈ ps)
    (h5 : k.sending = t.link.sending ∨ Part.tx ∈ ps) (h6 : k.classes = t.link.classes ∨ Part.classes ∈ ps)
    (h7 : k.mark = t.link.mark ∨ Part.mark ∈ ps) (h8 : k.reports = t.link.reports ∨ Part.reports ∈ ps) :
    Leaves ps s (t.setLink k) := by
  refine h.update rfl fun p hq hpe => ?_
  cases p <;> simp_all [Part.same, Part.kept, State.memory]

@[simp] theorem Leaves.setRegister {r : Register} (h : Leaves ps s t)
    (h0 : (r.ring = t.register.ring ∧ r.next = t.register.next) ∨ Part.ring ∈ ps)
    (h1 : r.clock = t.register.clock ∨ Part.clock ∈ ps) :
    Leaves ps s (t.setRegister r) := by
  refine h.update rfl fun p hq hpe => ?_
  cases p <;> simp_all [Part.same, Part.kept, State.memory]

@[simp] theorem Leaves.report {is : List Item} (h : Leaves ps s t) (hr : is = [] ∨ Part.reports ∈ ps) :
    Leaves ps s (t.report is) := by
  refine h.update rfl fun p hq hpe => ?_
  cases p <;> simp_all [Part.same, Part.kept, State.memory, addItems]

@[simp] theorem Leaves.setContacts {k : Contacts} (h : Leaves ps s t) (hp : .contacts ∈ ps) :
    Leaves ps s (t.setContacts k) := by
  refine h.update rfl fun p hq hpe => ?_
  cases p <;> simp_all [Part.same, Part.kept, State.memory]

@[simp] theorem Leaves.locking {es : List LockEntry} (h : Leaves ps s t) (hp : .locking ∈ ps) :
    Leaves ps s { t with locking := es } := by
  refine h.update rfl fun p hq hpe => ?_
  cases p <;> simp_all [Part.same, Part.kept, State.memory, State.lever, State.port, State.section_]

@[simp] theorem Leaves.codes {es : List CodeEntry} (h : Leaves ps s t) (hp : .codes ∈ ps) :
    Leaves ps s { t with codes := es } := by
  refine h.update rfl fun p hq hpe => ?_
  cases p <;> simp_all [Part.same, Part.kept, State.memory, State.lever, State.port, State.section_]

@[simp] theorem Leaves.levers {ls : Vector LeverData 48} (h : Leaves ps s t) (hp : ∀ n, .lever n ∈ ps) :
    Leaves ps s { t with levers := ls } := by
  refine h.update rfl fun p hq hpe => ?_
  cases p <;> simp_all [Part.same, Part.kept, State.memory, State.port, State.section_]

@[simp] theorem Leaves.lastTrain {k : Nat} (h : Leaves ps s t) (hp : .lastTrain ∈ ps) :
    Leaves ps s { t with lastTrain := k } := by
  refine h.update rfl fun p hq hpe => ?_
  cases p <;> simp_all [Part.same, Part.kept, State.memory, State.lever, State.port, State.section_]

@[simp] theorem Leaves.times {v : Times} {b : Bool} (h : Leaves ps s t) (hp : .times ∈ ps) :
    Leaves ps s { t with times := v, timesLoaded := b } := by
  refine h.update rfl fun p hq hpe => ?_
  cases p <;> simp_all [Part.same, Part.kept, State.memory, State.lever, State.port, State.section_]

@[simp] theorem Leaves.resetHeld {b : Bool} (h : Leaves ps s t) (hp : .resetHeld ∈ ps) :
    Leaves ps s { t with resetHeld := b } := by
  refine h.update rfl fun p hq hpe => ?_
  cases p <;> simp_all [Part.same, Part.kept, State.memory, State.lever, State.port, State.section_]

@[simp] theorem mem_everyLever (n : Lever) : Part.lever n ∈ everyLever := by
  simp [everyLever, allLevers]

@[simp] theorem mem_everySection (x : Sec) : Part.section_ x ∈ everySection := by
  cases x <;> simp [everySection]

end

end Sys2Proof.Machine


/-! ### What the commands of the lever frame and of locking leave -/

namespace Sys2Proof.Machine

theorem Leaves.leverStep {ps : List Part} {n : Lever} {e : LeverEvent} {f : State → State} (s : State)
    (hp : .frame ∈ ps) (hf : ∀ t, Leaves ps t (f t)) : Leaves ps s (leverStep n e f s) := by
  obtain h | ⟨rest, h | h⟩ := leverStep_cases n e f s <;> rw [h]
  · exact Leaves.refl ps s
  · simp [hp]
  · exact Leaves.trans (by simp [hp]) (hf _)

section
variable (n : Lever) (s : State)

theorem takeGrip_leaves : Leaves [.lever n, .frame] s (takeGrip n s) := by
  simp only [takeGrip, gripInService, requestFreedom]
  repeat' split
  all_goals simp

theorem takeGripEnd_leaves : Leaves [.lever n, .frame] s (takeGripEnd n s) := by
  simp [takeGripEnd]

theorem forceOut_leaves : Leaves [.lever n, .frame] s (forceOut n s) := by
  simp only [forceOut]
  split <;> simp

theorem leaveN_leaves : Leaves [.lever n, .frame] s (leaveN n s) := by
  simp only [leaveN]
  split <;> simp [forceOut_leaves]

theorem leaveR_leaves : Leaves [.lever n, .frame] s (leaveR n s) := by
  simp only [leaveR, backLock]
  repeat' split
  all_goals simp [forceOut_leaves]

theorem arrive_leaves (pos : LeverPos) : Leaves [.lever n, .frame] s (arrive n pos s) := by
  simp only [arrive]
  split <;> simp

theorem arriveR_leaves : Leaves [.lever n, .frame, .atR] s (arriveR n s) := by
  have h : Leaves [.lever n, .frame, .atR] s (arrive n .rLocked s) := (arrive_leaves n s _).mono (by simp)
  simp only [arriveR]
  split <;> simp [h]

theorem takeBothMade_leaves : Leaves [.lever n, .frame] s (takeBothMade n s) := by
  simp only [takeBothMade]
  split <;> simp

theorem takeBothBreak_leaves : Leaves [.lever n, .frame] s (takeBothBreak n s) := by
  simp only [takeBothBreak]
  split <;> simp

theorem freedomWithdrawn_leaves : Leaves [.lever n, .demands] s (freedomWithdrawn n s) := by
  simp only [freedomWithdrawn, takeDemand]
  repeat' split
  all_goals simp

theorem backLockRelease_leaves : Leaves [.lever n, .backReleases] s (backLockRelease n s) := by
  simp only [backLockRelease, takeBackRelease]
  repeat' split
  all_goals simp

theorem travelLimitExpiry_leaves : Leaves [.lever n] s (travelLimitExpiry n s) := by
  simp only [travelLimitExpiry]
  split <;> simp

theorem provingInputChange_leaves (g : Input) : Leaves [.inputs, .changes] s (provingInputChange g s) := by
  simp only [provingInputChange]
  split <;> simp

theorem releaseCheck_leaves : Leaves [.backReleases] s (releaseCheck n s) := by
  simp only [releaseCheck]
  split <;> simp

theorem becomeDue_leaves : Leaves [.lever n, .backReleases] s (becomeDue n s) :=
  Leaves.trans (by simp) ((releaseCheck_leaves n _).mono (by simp))

theorem timeReleaseExpiry_leaves : Leaves [.lever n, .backReleases] s (timeReleaseExpiry n s) := by
  simp only [timeReleaseExpiry]
  repeat' split
  all_goals simp [becomeDue_leaves]

end

/-- One thing done for each of some levers leaves what each of them leaves. -/
theorem Leaves.forLevers {ps : List Part} {f : Lever → State → State} (hf : ∀ n s, Leaves ps s (f n s))
    (ns : List Lever) (s : State) : Leaves ps s (forLevers f ns s) := by
  induction ns generalizing s with
  | nil => exact Leaves.refl ps s
  | cons n ns ih => exact (hf n s).trans (ih (f n s))

theorem approachCheck_leaves (c : Change) (n : Lever) (s : State) :
    Leaves (.backReleases :: everyLever) s (approachCheck c n s) := by
  simp only [approachCheck]
  split
  · split
    · exact (becomeDue_leaves n s).mono (by simp)
    · simp
  · simp

theorem releaseCheckAt_leaves (c : Change) (n : Lever) (s : State) :
    Leaves [.backReleases] s (releaseCheckAt c n s) := by
  cases c <;> simp [releaseCheckAt, releaseCheck_leaves]

theorem takeChange_leaves (c : Change) (s : State) :
    Leaves (.demands :: .backReleases :: everyLever) s (takeChange c s) := by
  unfold takeChange
  refine Leaves.trans (t := s.setInbox _) ?_ (Leaves.trans
    ((Leaves.forLevers (approachCheck_leaves c) allLevers _).mono ?_)
    ((Leaves.forLevers (releaseCheckAt_leaves c) allLevers _).mono ?_)) <;> simp

theorem reTest_leaves (s : State) : Leaves (.changes :: .demands :: .backReleases :: everyLever) s (reTest s) := by
  simp only [reTest]
  split
  · simp
  · exact Leaves.trans (by simp) ((takeChange_leaves _ _).mono (by simp))

end Sys2Proof.Machine


/-! ### What the commands of the contact matrix, the track circuits, the bells, the block and the box switch leave -/

namespace Sys2Proof.Machine

theorem takePositions_leaves (a b : Contacts) (s : State) :
    Leaves (.boxSwitch :: everySection) s (takePositions a b s) := by
  intro p hp
  cases p with
  | boxSwitch => simp at hp
  | section_ x => simp at hp
  | entries =>
    refine EntersOnly.of_eq ?_
    unfold takePositions takeBoxPosition
    split <;> rfl
  | _ =>
    unfold takePositions takeBoxPosition
    split <;> simp [Part.same, Part.kept, State.memory, State.lever, State.port]

theorem scanContacts_leaves (made : List Contact) (s : State) :
    Leaves (writes (.contactScan made)) s (scanContacts made s) := by
  simp only [scanContacts]
  split
  · simp
  · apply Leaves.setInbox
    · exact Leaves.trans (t := s.setContacts _) (by simp [writes])
        ((takePositions_leaves s.contacts _ _).mono (by simp [writes, everySection]))
    all_goals simp [handScan, takePositions, writes]

theorem completeInit_leaves (s : State) : Leaves (writes .initialisationComplete) s (completeInit s) := by
  unfold completeInit
  split
  · intro p hp
    cases p with
    | entries => exact EntersOnly.of_eq rfl
    | _ => simp_all [initialise, writes, Part.same, Part.kept, State.memory, State.port, State.section_]
  · simp

/-! ### Track circuits -/

/-- The entries of a circuit's change of state are TRACK entries. -/
theorem trackEntry_within (ps : List Part) (k : Circuit) (a b : TrackState) : ∀ e ∈ trackEntry k a b, e.within ps := by
  unfold trackEntry
  split <;> simp

/-- A request at a frame start adds TRACK entries only. -/
theorem StartWork.apply_within (ps : List Part) (w : StartWork) (o : TrackOp) (h : ∀ e ∈ w.entries, e.within ps) :
    ∀ e ∈ (w.apply o).entries, e.within ps := by
  cases o with
  | load k r =>
    simp only [StartWork.apply, List.mem_append]
    exact fun e he => he.elim (h e) (trackEntry_within ps k _ _ e)
  | clear k =>
    simp only [StartWork.apply, List.mem_append]
    exact fun e he => he.elim (h e) (trackEntry_within ps k _ _ e)
  | erase => simpa only [StartWork.apply] using h
  | tune k vals => simpa only [StartWork.apply] using h

theorem StartWork.applyAll_within (ps : List Part) (w : StartWork) (os : List TrackOp)
    (h : ∀ e ∈ w.entries, e.within ps) : ∀ e ∈ (w.applyAll os).entries, e.within ps := by
  induction os generalizing w with
  | nil => exact h
  | cons o os ih => exact ih _ (w.apply_within ps o h)

theorem startFrame_leaves (s s₁ : State) : Leaves [.track] s₁ (startFrame s s₁) :=
  Leaves.enterAll (Leaves.setTrack (Leaves.refl _ s₁) (by simp))
    (StartWork.applyAll_within _ _ _ (by simp [startWork]))

theorem scanFrameStart_leaves (s s₁ : State) : Leaves [.track] s₁ (scanFrameStart s s₁) := by
  simp only [scanFrameStart]
  split <;> simp [startFrame_leaves]

theorem handWaiting_keeps (s : State) : keepsAllBut [.track] s (handWaiting s) := by
  simp only [handWaiting]
  split
  · exact (Leaves.refl _ s).keeps
  · exact handEach_keeps (fun t => keepsAllBut [.track] s t)
      (fun t w h => h.trans (Leaves.commit (by simp [State.withCircuits]))) _ _ (Leaves.refl _ s).keeps

theorem completeMeasurement_leaves (samples : List Sample) (s : State) :
    Leaves [.track] s (completeMeasurement samples s) := by
  simp only [completeMeasurement]
  split
  · simp
  · split
    · simp
    · split
      · exact Leaves.enterAll (by simp) (trackEntry_within _ _ _ _)
      · simp

theorem scanFrameComplete_leaves (s : State) : Leaves [.track] s (scanFrameComplete s) := by
  simp only [scanFrameComplete]
  split <;> simp

/-! ### Bells -/

section
variable (p : Sec) (s : State)

theorem bellSenseSample_leaves (current : Bool) : Leaves [.port p] s (bellSenseSample p current s) := by
  simp only [bellSenseSample]
  split <;> simp

theorem completeCode_leaves (c : Code) : Leaves [.port p, .handedCodes, .exchange] s (completeCode p c s) := by
  unfold completeCode
  exact Leaves.enter (by simp) (by simp)

theorem codeComplete_leaves : Leaves [.port p, .handedCodes, .exchange] s (codeComplete p s) := by
  simp only [codeComplete]
  repeat' split
  all_goals simp [completeCode_leaves]

theorem beginSensed_leaves : Leaves [.port p] s (beginSensed p s) := by
  simp [beginSensed]

theorem assembleBeat_leaves (start : Nat) :
    Leaves [.port p, .handedCodes, .exchange] s (assembleBeat p start s) := by
  have hb := fun t => (beginSensed_leaves p t).mono (qs := [.port p, .handedCodes, .exchange]) (by simp)
  simp only [assembleBeat]
  split
  · simp
  · exact (completeCode_leaves p s _).trans (hb _)
  · exact hb s

theorem ringBell_leaves : Leaves [.port p] s (ringBell p s) := by
  simp [ringBell]

theorem markUnrepeated_leaves : Leaves [.port p] s (markUnrepeated p s) := by
  simp [markUnrepeated]

theorem setPath_leaves (o : Option Sec) : Leaves [.path] s (s.setPath o) := by
  simp [State.setPath]

theorem throughPath_leaves (q : Sec) : Leaves [.path, .port p, .port q] s (throughPath p q s) := by
  have hm := fun t => (markUnrepeated_leaves p t).mono (qs := [.path, .port p, .port q]) (by simp)
  have hs := fun o => (setPath_leaves s o).mono (qs := [.path, .port p, .port q]) (by simp)
  simp only [throughPath]
  repeat' split
  · simp [hm]
  · simp [hs]
  · exact (hs _).trans (hm _)

theorem throughBeat_leaves : Leaves (.path :: portAndPair p) s (throughBeat p s) := by
  simp only [throughBeat]
  split
  · simp
  · rename_i q hq
    split
    · exact (throughPath_leaves p s q).mono (by simp [portAndPair, hq])
    · exact (markUnrepeated_leaves p s).mono (by simp [portAndPair])

theorem startOfBeat_leaves : Leaves (writes (.startOfBeat p)) s (startOfBeat p s) := by
  simp only [startOfBeat]
  split
  · simp
  · split
    · refine Leaves.trans ?_ ((throughBeat_leaves p _).mono ?_)
      · refine Leaves.trans ?_ ((ringBell_leaves p _).mono ?_)
        · refine Leaves.trans (t := s.setPort p _) ?_ ((assembleBeat_leaves p _ _).mono ?_) <;>
            simp [writes, portAndPair]
        · simp [writes, portAndPair]
      · intro q hq
        simp only [writes, List.mem_cons, List.mem_append] at hq ⊢
        grind
    · simp

theorem endThrough_leaves (t : Nat) : Leaves (.path :: portAndPair p) s (endThrough p t s) := by
  simp only [endThrough]
  split
  · simp
  · rename_i q hq
    repeat' split
    · simp [portAndPair, hq]
    · exact (setPath_leaves s none).mono (by simp)
    · simp

theorem endOfBeat_leaves : Leaves (.path :: portAndPair p) s (endOfBeat p s) := by
  simp only [endOfBeat]
  repeat' split
  · simp
  · exact Leaves.trans (by simp [portAndPair]) (endThrough_leaves p _ _)
  · simp

theorem beatHeld_leaves : Leaves [.port p] s (beatHeld p s) := by
  simp only [beatHeld]
  repeat' split
  all_goals simp

theorem strokeEnd_leaves : Leaves [.port p] s (strokeEnd p s) := by
  simp only [strokeEnd]
  repeat' split
  all_goals simp

theorem pressTaken_leaves : Leaves [.port p, .tappers] s (pressTaken p s) := by
  simp only [pressTaken, beginOut]
  repeat' split
  all_goals simp

/-- What taking a tapper event can be. -/
theorem takeTapper_some {press : Bool} {t : State} (h : takeTapper p press s = some t) :
    ∃ rest, takeFirst (fun e => decide (e.1 = p)) s.inbox.tappers = some ((p, press), rest) ∧
      t = s.setInbox { s.inbox with tappers := rest } := by
  unfold takeTapper at h
  split at h
  · rename_i q e rest ht
    obtain ⟨_, _, _, _, hq, _⟩ := takeFirst_some ht
    have hq : q = p := by simpa using hq
    split at h
    · rename_i he
      exact ⟨rest, by rw [ht, hq, he], (Option.some.inj h).symm⟩
    · cases h
  · cases h

theorem tapperPress_leaves : Leaves [.port p, .tappers] s (tapperPress p s) := by
  simp only [tapperPress]
  split
  · simp
  · rename_i t ht
    obtain ⟨rest, -, rfl⟩ := takeTapper_some p s ht
    split
    · exact Leaves.trans (by simp) (pressTaken_leaves p _)
    · simp

theorem releaseTaken_leaves : Leaves [.port p, .tappers] s (releaseTaken p s) := by
  simp only [releaseTaken]
  repeat' split
  all_goals simp

theorem tapperRelease_leaves : Leaves [.port p, .tappers] s (tapperRelease p s) := by
  simp only [tapperRelease]
  split
  · simp
  · rename_i t ht
    obtain ⟨rest, -, rfl⟩ := takeTapper_some p s ht
    exact Leaves.trans (by simp) (releaseTaken_leaves p _)

theorem stretchEnd_leaves : Leaves [.port p] s (stretchEnd p s) := by
  simp only [stretchEnd]
  repeat' split
  all_goals simp

theorem tapperHeldCut_leaves : Leaves [.port p] s (tapperHeldCut p s) := by
  simp only [tapperHeldCut]
  repeat' split
  all_goals simp

theorem cutTapper_leaves : Leaves [.port p] s (cutTapper p s) := by
  simp only [cutTapper]
  split <;> simp

theorem collision_leaves : Leaves [.port p, .handedCodes, .exchange] s (collision p s) := by
  simp only [collision]
  repeat' split
  · exact Leaves.trans (by simp) (completeCode_leaves p _ _)
  · simp
  · simp

theorem repeatOver_leaves : Leaves [.path, .port p] s (repeatOver p s) := by
  simp only [repeatOver]
  repeat' split
  · simp
  · simp
  · exact Leaves.trans (by simp) ((setPath_leaves _ none).mono (by simp))

theorem repeatEnd_leaves : Leaves (.path :: portAndPair p) s (repeatEnd p s) := by
  simp only [repeatEnd]
  repeat' split
  · exact (repeatOver_leaves p s).mono (by simp [portAndPair])
  · simp
  · simp

theorem markOther_leaves : Leaves (portAndPair p) s (markOther p s) := by
  simp only [markOther]
  split
  · simp
  · rename_i q hq
    exact (markUnrepeated_leaves q s).mono (by simp [portAndPair, hq])

theorem repeatClash_leaves : Leaves (.path :: portAndPair p) s (repeatClash p s) := by
  simp only [repeatClash]
  split
  · refine Leaves.enter (((repeatOver_leaves p s).mono ?_).trans ((markOther_leaves p _).mono ?_)) ?_ <;>
      simp [portAndPair]
  · simp

end

/-! ### Block sections -/

section
variable (x : Sec) (s : State)

/-- The entries of a section's change are of that section. -/
theorem sectionEntries_within {ps : List Part} (hp : .section_ x ∈ ps) (a b : SectionData) (o : TrainEnd) (auto : Bool) :
    ∀ e ∈ sectionEntries x a b o auto, e.within ps := by
  unfold sectionEntries trainEntry
  split <;> simp [hp]

theorem enterSec_leaves (st : SecState) (train : Option Train) (o : TrainEnd) (auto : Bool) :
    Leaves [.section_ x] s (enterSec x st train o auto s) := by
  exact Leaves.enterAll (by simp) (sectionEntries_within x (by simp) _ _ o auto)

theorem endSec_leaves (st : SecState) (o : TrainEnd) : Leaves [.section_ x] s (endSec x st o s) :=
  enterSec_leaves x s st none o false

theorem progressCheck_leaves : Leaves [.section_ x] s (progressCheck x s) := by
  simp only [progressCheck]
  repeat' split
  all_goals simp

theorem enterEnteredIn_leaves (auto : Bool) : Leaves [.section_ x] s (enterEnteredIn x auto s) :=
  (enterSec_leaves x s _ _ _ _).trans (progressCheck_leaves x _)

theorem takeProgress_leaves : Leaves [.section_ x, .autoTol, .progress] s (takeProgress x s) := by
  simp only [takeProgress]
  repeat' split
  · simp
  · simp
  · exact Leaves.trans (by simp) ((progressCheck_leaves x _).mono (by simp))
  · exact Leaves.trans (by simp) ((progressCheck_leaves x _).mono (by simp))
  all_goals simp

theorem autoTol_leaves : Leaves [.section_ x, .autoTol, .progress] s (autoTol x s) := by
  simp only [autoTol]
  repeat' split
  · simp
  · exact Leaves.trans (by simp) ((enterEnteredIn_leaves x _ true).mono (by simp))
  · exact Leaves.trans (by simp) ((progressCheck_leaves x _).mono (by simp))

theorem indicatorSample_leaves (cls : IndClass) : Leaves [.section_ x] s (indicatorSample x cls s) := by
  simp only [indicatorSample]
  split <;> simp

theorem noteReading_leaves : Leaves [.section_ x] s (noteReading x s) := by
  simp [noteReading]

theorem enterClearOut_leaves : Leaves [.section_ x] s (enterClearOut x s) :=
  (enterSec_leaves x s _ _ _ _).trans (Leaves.setSection (Leaves.refl _ _) (by simp))

theorem takeReading_leaves (reading : Option Ind) : Leaves [.section_ x] s (takeReading x reading s) := by
  have hn : Leaves [.section_ x] s (noteReading x (s.setSection x { s.section_ x with releaseUnused := false })) :=
    Leaves.trans (Leaves.setSection (Leaves.refl _ s) (by simp)) (noteReading_leaves x _)
  simp only [takeReading]
  split <;> simp [enterClearOut_leaves, enterSec_leaves, endSec_leaves, noteReading_leaves, hn]

theorem changeReading_leaves (reading : Option Ind) :
    Leaves [.section_ x, .readings] s (changeReading x reading s) :=
  Leaves.trans (by simp) ((takeReading_leaves x _ reading).mono (by simp))

theorem settleReading_leaves (reading : Option Ind) : Leaves [.section_ x, .readings] s (settleReading x reading s) := by
  simp only [settleReading]
  split
  · simp
  · exact Leaves.trans (t := s.setSection x _) (by simp) (changeReading_leaves x _ reading)

theorem indicatorSettled_leaves : Leaves [.section_ x, .readings] s (indicatorSettled x s) := by
  simp only [indicatorSettled]
  repeat' split
  all_goals simp [settleReading_leaves]

theorem unsettledTimeout_leaves : Leaves [.section_ x, .readings] s (unsettledTimeout x s) := by
  simp only [unsettledTimeout]
  repeat' split
  all_goals simp [settleReading_leaves]

/-- What taking an arrival of a block switch can be. -/
theorem takeSwitch_some {i : Ind} {t : State} (h : takeSwitch x i s = some t) :
    ∃ rest, takeFirst (fun e => decide (e.1 = x)) s.inbox.switches = some ((x, i), rest) ∧
      t = (s.setInbox { s.inbox with switches := rest }).setSection x { s.section_ x with position := i } := by
  unfold takeSwitch at h
  split at h
  · rename_i y j rest ht
    obtain ⟨_, _, _, _, hy, _⟩ := takeFirst_some ht
    have hy : y = x := by simpa using hy
    split at h
    · rename_i hj
      exact ⟨rest, by rw [ht, hy, hj], (Option.some.inj h).symm⟩
    · cases h
  · cases h

/-- An arrival taken and what it brings. -/
theorem takeSwitch_leaves {i : Ind} {f : State → State} (hf : ∀ t, Leaves [.section_ x] t (f t)) :
    Leaves [.section_ x, .switches] s
      (match takeSwitch x i s with
        | none => s
        | some t => f t) := by
  split
  · simp
  · rename_i t ht
    obtain ⟨rest, -, rfl⟩ := takeSwitch_some x s ht
    exact Leaves.trans (by simp) ((hf _).mono (by simp))

theorem switchLC_leaves : Leaves [.section_ x] s (switchLC x s) := by
  simp only [switchLC]
  split <;> simp [enterSec_leaves]

theorem switchTOL_leaves : Leaves [.section_ x] s (switchTOL x s) := by
  simp only [switchTOL]
  split <;> simp [enterEnteredIn_leaves, endSec_leaves]

theorem switchLB_leaves : Leaves [.section_ x] s (switchLB x s) := by
  simp only [switchLB]
  repeat' split
  all_goals simp [enterEnteredIn_leaves, endSec_leaves]

theorem arrivalAtLC_leaves : Leaves [.section_ x, .switches] s (arrivalAtLC x s) :=
  takeSwitch_leaves x s (switchLC_leaves x)

theorem arrivalAtTOL_leaves : Leaves [.section_ x, .switches] s (arrivalAtTOL x s) :=
  takeSwitch_leaves x s (switchTOL_leaves x)

theorem arrivalAtLB_leaves : Leaves [.section_ x, .switches] s (arrivalAtLB x s) :=
  takeSwitch_leaves x s (switchLB_leaves x)

theorem blockControlArrival_leaves (n : Lever) : Leaves (.atR :: everySection) s (blockControlArrival n s) := by
  simp only [blockControlArrival]
  repeat' split
  all_goals simp

theorem takeOffer_leaves (inward : Bool) (cls : Nat) :
    Leaves [.section_ x, .lastTrain] s (takeOffer x inward cls s) :=
  Leaves.trans (t := countTrain s) (by simp [countTrain]) ((enterSec_leaves x _ _ _ _ _).mono (by simp))

theorem crossOffers_leaves : Leaves [.section_ x] s (crossOffers x s) :=
  Leaves.trans (by simp) (endSec_leaves x _ _ _)

theorem outCodeResult_leaves {c : Classification} {t : State} (h : outCodeResult x c s = some t) :
    Leaves [.section_ x, .lastTrain] s t := by
  unfold outCodeResult at h
  split at h
  · cases h; exact takeOffer_leaves x s _ _
  · cases h; exact (crossOffers_leaves x s).mono (by simp)
  · cases h; exact (endSec_leaves x s _ _).mono (by simp)
  · cases h

theorem inCodeResult_leaves {c : Classification} {t : State} (h : inCodeResult x c s = some t) :
    Leaves [.section_ x, .lastTrain] s t := by
  unfold inCodeResult at h
  dsimp only at h
  split at h
  · cases h; exact takeOffer_leaves x s _ _
  · cases h; exact (crossOffers_leaves x s).mono (by simp)
  · cases h; exact (endSec_leaves x s _ _).mono (by simp)
  · split at h
    · cases h
    · cases h; simp
  · split at h
    · cases h
    · cases h; simp
  · cases h

theorem setMark_leaves (k : SectionData) (m : Option Mark) : Leaves [.section_ x, .reports] s (s.setMark x k m) := by
  simp [State.setMark]

/-- What taking a delivered code can be. -/
theorem takeCode_some {out : Bool} {h : CodeHanded} {t : State} (ht : takeCode x out s = some (h, t)) :
    ∃ rest, takeFirst (fun e => decide (e.port = x)) s.inbox.codes = some (h, rest) ∧
      decide (h.dir = .outgoing) = out ∧ t = s.setInbox { s.inbox with codes := rest } := by
  unfold takeCode at ht
  split at ht
  · rename_i g rest hg
    split at ht
    · rename_i hd
      cases ht
      exact ⟨rest, hg, hd, rfl⟩
    · cases ht
  · cases ht

/-- A code's result, or the state as it was where it has none. -/
theorem Leaves.getD {ps : List Part} {r : Option State} (h : ∀ t, r = some t → Leaves ps s t) :
    Leaves ps s (r.getD s) := by
  cases r with
  | none => exact Leaves.refl ps s
  | some t => exact h t rfl

/-- The parts the taking of a code writes, the marking's own report among them. -/
def codeParts (x : Sec) : List Part := [.section_ x, .lastTrain, .handedCodes, .reports]

/-- What taking a code sent can be: nothing, or its result and the marking. -/
theorem outCodeTaken_cases : outCodeTaken x s = s ∨ ∃ t k m, Leaves [.section_ x, .lastTrain, .handedCodes] s t ∧
    outCodeTaken x s = t.setMark x k m := by
  simp only [outCodeTaken]
  split
  · exact .inl rfl
  · rename_i h t ht
    obtain ⟨rest, -, -, rfl⟩ := takeCode_some x s ht
    refine .inr ⟨_, _, _, Leaves.trans (by simp) (Leaves.getD _ fun t ht => ?_), rfl⟩
    exact (outCodeResult_leaves x _ ht).mono (by simp)

theorem inCodeTaken_cases : inCodeTaken x s = s ∨ ∃ t k m, Leaves [.section_ x, .lastTrain, .handedCodes] s t ∧
    inCodeTaken x s = t.setMark x k m := by
  simp only [inCodeTaken]
  split
  · exact .inl rfl
  · rename_i h t ht
    obtain ⟨rest, -, -, rfl⟩ := takeCode_some x s ht
    refine .inr ⟨_, _, _, Leaves.trans (by simp) (Leaves.getD _ fun t ht => ?_), rfl⟩
    split at ht
    · exact (inCodeResult_leaves x _ ht).mono (by simp)
    · cases ht

theorem outCodeTaken_leaves : Leaves (codeParts x) s (outCodeTaken x s) := by
  obtain h | ⟨t, k, m, ht, h⟩ := outCodeTaken_cases x s <;> rw [h]
  · simp
  · exact (ht.mono (by simp [codeParts])).trans ((setMark_leaves x _ _ _).mono (by simp [codeParts]))

theorem inCodeTaken_leaves : Leaves (codeParts x) s (inCodeTaken x s) := by
  obtain h | ⟨t, k, m, ht, h⟩ := inCodeTaken_cases x s <;> rw [h]
  · simp
  · exact (ht.mono (by simp [codeParts])).trans ((setMark_leaves x _ _ _).mono (by simp [codeParts]))

theorem pressPlunger_leaves : Leaves [.section_ x] s (pressPlunger x s) := by
  simp only [pressPlunger]
  split <;> simp

theorem releasePlungerPress_leaves : Leaves [.section_ x, .plungers] s (releasePlungerPress x s) := by
  simp only [releasePlungerPress]
  split
  · simp
  · exact Leaves.trans (by simp) ((pressPlunger_leaves x _).mono (by simp))

theorem emergencyTimerExpiry_leaves : Leaves [.section_ x] s (emergencyTimerExpiry x s) := by
  simp only [emergencyTimerExpiry]
  repeat' split
  all_goals simp

theorem enterLoaded_leaves (st : SecState) : Leaves [.section_ x] s (enterLoaded st x s) := by
  simp only [enterLoaded]
  split <;> simp [endSec_leaves]

end

/-! ### The Service controller -/

section
variable (p : Sec) (s : State)

theorem setMemory_leaves (m : Memory) : Leaves [.memory p] s (s.setMemory p m) := by
  unfold State.setMemory
  refine Leaves.setService (Leaves.refl _ s) (by simp) (by simp) (by simp) (by simp) fun q => ?_
  by_cases h : q = p <;> simp [PerSec.get_set, h]

theorem recordCode_leaves (h : CodeHanded) :
    Leaves (.memory h.port :: h.port.throughPair.toList.map .memory) s (recordCode h s) := by
  have hm := fun t m => (setMemory_leaves h.port t m).mono
    (qs := .memory h.port :: h.port.throughPair.toList.map .memory) (by simp)
  simp only [recordCode]
  repeat' split
  · exact hm s _
  · exact hm s _
  · rename_i q hq
    exact (hm s _).trans ((setMemory_leaves q _ _).mono (by simp [hq]))
  · exact hm s _

theorem codeExchangeUpdate_leaves : Leaves (writes (.codeExchangeUpdate p)) s (codeExchangeUpdate p s) := by
  simp only [codeExchangeUpdate]
  split
  · simp
  · rename_i h rest ht
    obtain ⟨_, _, _, _, hp, _⟩ := takeFirst_some ht
    have hp : h.port = p := by simpa using hp
    refine Leaves.trans (t := s.setInbox _) (by simp [writes]) ((recordCode_leaves _ h).mono ?_)
    simp [hp, writes]

theorem repeatReading_leaves : Leaves (p.throughPair.toList.map .section_) s (repeatReading p s) := by
  simp only [repeatReading]
  split
  · rename_i q hq
    simp [hq]
  · simp

theorem throughIndicatorRepeat_leaves :
    Leaves (writes (.throughIndicatorRepeat p)) s (throughIndicatorRepeat p s) := by
  simp only [throughIndicatorRepeat]
  repeat' split
  · simp
  · exact Leaves.trans (by simp [writes]) ((repeatReading_leaves p _).mono (by simp [writes]))
  · simp [writes]

theorem clearMarks_leaves : Leaves [.memory .a, .memory .b] s (clearMarks s) :=
  ((setMemory_leaves .a s _).mono (by simp)).trans ((setMemory_leaves .b _ _).mono (by simp))

/-- The parts a taken change of the box switch writes. -/
theorem enterSwitchedOut_leaves : Leaves (writes .arrivalAtOut) s (enterSwitchedOut s) := by
  have hsec : ∀ x t u, Leaves [.section_ x] t u → Leaves (writes .arrivalAtOut) t u :=
    fun x t u h => h.mono (by simp [writes])
  have hrep : ∀ x t, Leaves (writes .arrivalAtOut) t (repeatReading x t) :=
    fun x t => (repeatReading_leaves x t).mono (by cases x <;> simp [Sec.throughPair, writes])
  unfold enterSwitchedOut
  apply Leaves.enter
  apply Leaves.setService
  · refine Leaves.trans ?_ ((clearMarks_leaves _).mono (by simp [writes]))
    refine Leaves.trans (Leaves.trans ?_ ((cutTapper_leaves .a _).mono (by simp [writes])))
      ((cutTapper_leaves .b _).mono (by simp [writes]))
    refine Leaves.trans (Leaves.trans ?_ (hrep .a _)) (hrep .b _)
    exact ((hsec _ _ _ (endSec_leaves .a s _ _)).trans (hsec _ _ _ (endSec_leaves .b _ _ _))).trans
      (hsec _ _ _ (enterLoaded_leaves .c _ _))
  all_goals simp [writes]

theorem cutRepeat_leaves : Leaves (portAndPair p) s (cutRepeat p s) := by
  simp only [cutRepeat]
  split
  · exact Leaves.trans (by simp [portAndPair]) (markOther_leaves p _)
  · simp

theorem enterSwitchedIn_leaves : Leaves (writes .arrivalAtIn) s (enterSwitchedIn s) := by
  have hsec : ∀ x t, Leaves (writes .arrivalAtIn) t (enterLoaded .blocked x t) :=
    fun x t => (enterLoaded_leaves x t _).mono (by simp [writes])
  unfold enterSwitchedIn
  apply Leaves.enter
  apply Leaves.setService
  · refine Leaves.trans ?_ ((clearMarks_leaves _).mono (by simp [writes]))
    refine Leaves.trans (Leaves.trans ?_ ((cutRepeat_leaves .a _).mono ?_)) ((cutRepeat_leaves .b _).mono ?_)
    · exact ((hsec .a s).trans (hsec .b _)).trans (hsec .c _)
    · simp [writes, portAndPair, Sec.throughPair]
    · simp [writes, portAndPair, Sec.throughPair]
  all_goals simp [writes]

/-- What taking an arrival of the box switch can be. -/
theorem takeBox_some {b : BoxPos} {t : State} (h : takeBox b s = some t) :
    ∃ rest, s.inbox.box = b :: rest ∧
      t = (s.setInbox { s.inbox with box := rest }).setService { s.service with position := b } := by
  unfold takeBox at h
  split at h
  · cases h
  · rename_i c rest hc
    split at h
    · rename_i hb
      exact ⟨rest, by rw [hc, hb], (Option.some.inj h).symm⟩
    · cases h

theorem turnOut_leaves : Leaves (writes .arrivalAtOut) s (turnOut s) := by
  simp only [turnOut, State.setRefusal]
  repeat' split
  all_goals simp [writes]
  exact enterSwitchedOut_leaves _

theorem arrivalAtOut_leaves : Leaves (writes .arrivalAtOut) s (arrivalAtOut s) := by
  simp only [arrivalAtOut]
  split
  · simp
  · rename_i t ht
    obtain ⟨rest, -, rfl⟩ := takeBox_some s ht
    exact Leaves.trans (by simp [writes]) (turnOut_leaves _)

theorem turnIn_leaves : Leaves (writes .arrivalAtIn) s (turnIn s) := by
  simp only [turnIn, State.setRefusal]
  repeat' split
  all_goals simp [writes]
  exact enterSwitchedIn_leaves _

theorem arrivalAtIn_leaves : Leaves (writes .arrivalAtIn) s (arrivalAtIn s) := by
  simp only [arrivalAtIn]
  split
  · simp
  · rename_i t ht
    obtain ⟨rest, -, rfl⟩ := takeBox_some s ht
    exact Leaves.trans (by simp [writes]) (turnIn_leaves _)

end

end Sys2Proof.Machine


/-! ### What an accepted request does -/

namespace Sys2Proof.Machine

theorem parsed_bind_ok {α β : Type} {x : Parsed α} {f : α → Parsed β} {b : β} :
    (x >>= f) = .ok b ↔ ∃ a, x = .ok a ∧ f a = .ok b := by
  cases x <;> simp [bind, Except.bind]

theorem parsed_map_ok {α β : Type} {x : Parsed α} {f : α → β} {b : β} :
    x.map f = .ok b ↔ ∃ a, x = .ok a ∧ f a = b := by
  cases x <;> simp [Except.map]

theorem parsed_pure_ok {α : Type} {a b : α} : (pure a : Parsed α) = .ok b ↔ a = b := by
  simp [pure, Except.pure]

theorem refuseIf_ok {b : Bool} {e : Err} {u : Unit} : refuseIf b e = .ok u ↔ b = false := by
  cases b <;> simp [refuseIf]

/-- A request that is only answered leaves the state to its reply. -/
theorem answering_ok {f : List Text → State → Parsed (List Text)} {ws r : List Text} {s t : State}
    (h : answering f ws s = .ok (t, r)) : t = s := by
  unfold answering at h
  split at h
  · cases h; rfl
  · cases h

section
variable {ws r : List Text} {s t : State}

theorem handleLev_ok (h : handleLev ws s = .ok (t, r)) : ∃ n rec_, t = storeLev n (some rec_) s := by
  simp only [handleLev, parsed_bind_ok] at h
  obtain ⟨n, -, kind, -, h⟩ := h
  split at h
  · cases h
  · cases h
    exact ⟨n, _, rfl⟩

theorem handleLock_ok (h : handleLock ws s = .ok (t, r)) : ∃ es, t = { s with locking := es } := by
  simp only [handleLock, parsed_bind_ok, parsed_pure_ok] at h
  obtain ⟨x, -, y, -, cs, -, _, -, h⟩ := h
  cases h
  exact ⟨_, rfl⟩

theorem handleTc_ok (h : handleTc ws s = .ok (t, r)) : ∃ c rec_, t = loadTc c rec_ s := by
  simp only [handleTc, parsed_bind_ok, parsed_pure_ok] at h
  obtain ⟨c, -, vals, -, h⟩ := h
  cases h
  exact ⟨c, _, rfl⟩

theorem handleSec_ok (h : handleSec ws s = .ok (t, r)) : ∃ x rec_, t = storeSec x (some rec_) s := by
  simp only [handleSec, parsed_bind_ok, parsed_pure_ok] at h
  obtain ⟨x, -, _, -, rec_, -, h⟩ := h
  cases h
  exact ⟨x, rec_, rfl⟩

theorem handleCode_ok (h : handleCode ws s = .ok (t, r)) : ∃ es, t = { s with codes := es } := by
  simp only [handleCode, parsed_bind_ok, parsed_pure_ok] at h
  obtain ⟨p, -, m, -, _, -, h⟩ := h
  cases h
  exact ⟨_, rfl⟩

theorem handleLamp_ok (h : handleLamp ws s = .ok (t, r)) : ∃ c b, t = storeLamp c b s := by
  simp only [handleLamp, parsed_bind_ok, parsed_pure_ok] at h
  obtain ⟨c, -, b, -, h⟩ := h
  cases h
  exact ⟨c, b, rfl⟩

theorem handleTimes_ok (h : handleTimes ws s = .ok (t, r)) : ∃ v, t = storeTimes v s := by
  simp only [handleTimes, parsed_bind_ok, parsed_pure_ok] at h
  obtain ⟨vals, -, h⟩ := h
  cases h
  exact ⟨_, rfl⟩

theorem handleBoxout_ok (h : handleBoxout ws s = .ok (t, r)) : ∃ ts, t = storeBoxout ts s := by
  simp only [handleBoxout, parsed_bind_ok, parsed_pure_ok] at h
  obtain ⟨ts, -, h⟩ := h
  cases h
  exact ⟨_, rfl⟩

theorem handleErase_ok {w : Text} {f : State → State} (h : handleErase w f ws s = .ok (t, r)) : t = f s := by
  simp only [handleErase, parsed_bind_ok, parsed_pure_ok] at h
  obtain ⟨_, -, h⟩ := h
  cases h
  rfl

theorem handleStart_ok (h : handleStart ws s = .ok (t, r)) : t = enterService s := by
  simp only [handleStart, parsed_bind_ok] at h
  obtain ⟨v, -, h⟩ := h
  split at h
  · cases h
  · split at h
    · cases h
      rfl
    · cases h

theorem handleWithdraw_ok (h : handleWithdraw ws s = .ok (t, r)) : s.atRest = true ∧ t = leaveService s := by
  simp only [handleWithdraw, parsed_bind_ok, parsed_pure_ok, refuseIf_ok] at h
  obtain ⟨_, hr, _, -, h⟩ := h
  cases h
  exact ⟨by simpa using hr, rfl⟩

theorem handleRestart_ok (h : handleRestart ws s = .ok (t, r)) :
    t = s.setLink { s.link with restart := .replyWaiting } := by
  simp only [handleRestart, parsed_bind_ok, parsed_pure_ok] at h
  obtain ⟨_, -, h⟩ := h
  cases h
  rfl

theorem handleNotify_ok (h : handleNotify ws s = .ok (t, r)) : ∃ k, t = setClasses k s := by
  simp only [handleNotify, parsed_map_ok] at h
  obtain ⟨cs, -, h⟩ := h
  cases h
  exact ⟨_, rfl⟩

theorem handleTuneTc_ok (h : handleTuneTc ws s = .ok (t, r)) : ∃ c rec_ vals, t = tuneCircuit c rec_ vals s := by
  simp only [handleTuneTc, parsed_bind_ok] at h
  obtain ⟨c, -, h⟩ := h
  split at h
  · cases h
  · simp only [parsed_bind_ok, parsed_pure_ok] at h
    obtain ⟨vals, -, h⟩ := h
    cases h
    exact ⟨c, _, vals, rfl⟩

theorem handleTuneGroup_ok (h : handleTuneGroup ws s = .ok (t, r)) : ∃ vals ts, t = tuneMembers vals ts s := by
  simp only [handleTuneGroup, parsed_bind_ok, parsed_pure_ok] at h
  obtain ⟨g, -, vals, -, h⟩ := h
  cases h
  exact ⟨vals, _, rfl⟩

theorem handleClearTc_ok (h : handleClearTc ws s = .ok (t, r)) : ∃ c, t = clearCircuit c s := by
  simp only [handleClearTc, parsed_bind_ok, parsed_pure_ok] at h
  obtain ⟨c, -, _, -, _, -, h⟩ := h
  cases h
  exact ⟨c, rfl⟩

theorem handleClearLev_ok (h : handleClearLev ws s = .ok (t, r)) : ∃ n, t = clearForced n s := by
  simp only [handleClearLev, parsed_bind_ok, parsed_pure_ok] at h
  obtain ⟨n, -, _, -, h⟩ := h
  cases h
  exact ⟨n, rfl⟩

theorem handleClock_ok (h : handleClock ws s = .ok (t, r)) : ∃ c, t = setClock c s := by
  simp only [handleClock, parsed_bind_ok, parsed_pure_ok] at h
  obtain ⟨_, -, _, -, _, -, _, -, _, -, h⟩ := h
  cases h
  exact ⟨_, rfl⟩

theorem handleBright_ok (h : handleBright ws s = .ok (t, r)) :
    ∃ k, t = s.setDiagram { s.diagram with bright := k } := by
  simp only [handleBright, parsed_bind_ok, parsed_pure_ok] at h
  obtain ⟨_, -, h⟩ := h
  cases h
  exact ⟨_, rfl⟩

theorem handleDim_ok (h : handleDim ws s = .ok (t, r)) : ∃ k, t = s.setDiagram { s.diagram with dim := k } := by
  simp only [handleDim, parsed_bind_ok, parsed_pure_ok] at h
  obtain ⟨_, -, h⟩ := h
  cases h
  exact ⟨_, rfl⟩

theorem handlePaint_ok (h : handlePaint ws s = .ok (t, r)) :
    ∃ n vs, t = s.setDiagram (paintFrom s.diagram n 0 vs).1 := by
  simp only [handlePaint, parsed_bind_ok, parsed_pure_ok] at h
  obtain ⟨c, -, _, -, vs, -, h⟩ := h
  cases h
  exact ⟨c.val, vs, rfl⟩

end

/-! ### What the register, the diagram, the link and the requests leave -/

theorem reply_leaves (ws : List Text) (s : State) : Leaves lineParts s (reply ws s) := by
  simp [reply, lineParts, Link.answer, Link.place]

/-- What holds before a request's step and of what its handling accepts, and is kept by a reply, holds after it. -/
theorem requestStep_keeps {P : State → Prop} {row : Instr} {accept : ServiceState → Bool} {f : Handler} {s : State}
    (hs : P s) (hf : ∀ ws t r, s.asks row ws → accept s.service.state = true → f ws s = .ok (t, r) → P t)
    (hr : ∀ ws t, P t → P (reply ws t)) : P (requestStep row accept f s) := by
  obtain h | ⟨ws, ha, h⟩ := requestStep_cases row accept f s <;> rw [h]
  · exact hs
  · split
    · unfold handle
      split
      · exact hr _ _ (hf _ _ _ ha ‹_› ‹_›)
      · exact hr _ _ hs
    · exact hr _ _ hs

/-- A request's step writes the line's parts and what its accepted handling writes. -/
theorem requestStep_leaves {ps : List Part} {row : Instr} {accept : ServiceState → Bool} {f : Handler} (s : State)
    (hl : lineParts ⊆ ps) (hf : ∀ ws t r, f ws s = .ok (t, r) → Leaves ps s t) :
    Leaves ps s (requestStep row accept f s) :=
  requestStep_keeps (Leaves.refl ps s) (fun ws t r _ _ => hf ws t r)
    fun ws t h => h.trans ((reply_leaves ws t).mono hl)

/-- A request that is only answered writes the line's parts. -/
theorem answeringStep_leaves (row : Instr) (accept : ServiceState → Bool) (f : List Text → State → Parsed (List Text))
    (s : State) : Leaves lineParts s (requestStep row accept (answering f) s) :=
  requestStep_leaves s (List.Subset.refl _) fun ws t r h => by simp [answering_ok h]

section
variable (s : State)

theorem append_eq (body : RegBody) (s : State) :
    append body s =
      let e : RegEntry := ⟨s.register.next, s.register.clock, body⟩
      let r := appendRing s.register.ring e
      (s.setRegister { s.register with ring := r.1, next := s.register.next + 1 }).setLink
        { s.link with mark := markAfter s.link.mark r.2 } := rfl

theorem append_leaves (body : RegBody) : Leaves [.ring, .mark] s (append body s) := by
  rw [append_eq]
  apply Leaves.setLink
  all_goals simp

theorem registerAppend_leaves (u : RegUnit) : Leaves (writes (.registerAppend u)) s (registerAppend u s) := by
  simp only [registerAppend]
  split
  · simp
  · exact Leaves.trans (t := s.setInbox _) (by simp [writes]) ((append_leaves _ _).mono (by simp [writes]))

theorem clockTick_leaves : Leaves [.clock] s (clockTick s) := by
  simp only [clockTick]
  split <;> simp

/-- The bindings taken at a frame start touch the shown map only. -/
theorem applyAll_diagram (os : List LampOp) (d : Diagram) :
    ∃ b h, d.applyAll os = { d with bound := b, host := h } := by
  induction os generalizing d with
  | nil => exact ⟨_, _, rfl⟩
  | cons o os ih =>
    obtain ⟨b, h, hd⟩ := ih (d.apply o)
    cases o <;> exact ⟨b, h, hd⟩

theorem diagramFrameStart_leaves : Leaves (writes .diagramFrameStart) s (diagramFrameStart s) := by
  simp only [diagramFrameStart, startDiagramFrame]
  split
  · simp
  · obtain ⟨b, h, hd⟩ := applyAll_diagram s.diagram.ops s.diagram
    refine Leaves.trans (t := applyLampOps s) ?_ ?_
    · simp [applyLampOps, hd, writes]
    · simp [writes]

/-- The flash cycle moves its half and its count only. -/
theorem advanceFlash_diagram (d : Diagram) : ∃ h k, d.advanceFlash = { d with half := h, flashCount := k } := by
  unfold Diagram.advanceFlash
  split <;> exact ⟨_, _, rfl⟩

theorem diagramFrameComplete_leaves : Leaves [.lampFrame] s (diagramFrameComplete s) := by
  obtain ⟨h, k, hd⟩ := advanceFlash_diagram s.diagram
  simp only [diagramFrameComplete, hd]
  repeat' split
  all_goals simp

theorem signallerActivity_leaves : Leaves [.activity, .light] s (signallerActivity s) := by
  simp only [signallerActivity]
  split
  · simp
  · split
    · simp
    · exact Leaves.trans (t := s.setInbox _) (by simp) (Leaves.setDiagram (Leaves.refl _ _) (by simp) (by simp)
        (by simp) (by simp) (by simp) (by simp))

theorem idleTimeout_leaves : Leaves [.light] s (idleTimeout s) := by
  simp only [idleTimeout]
  split <;> simp

theorem diagramServiceChange_leaves : Leaves [.serviceChanges, .light] s (diagramServiceChange s) := by
  simp only [diagramServiceChange]
  split
  · simp
  · exact Leaves.trans (t := s.setInbox _) (by simp) (Leaves.setDiagram (Leaves.refl _ _) (by simp) (by simp)
      (by simp) (by simp) (by simp) (by simp))

theorem characterReceived_leaves (ch : RxChar) : Leaves [.rx, .queue, .held] s (characterReceived ch s) := by
  simp only [characterReceived]
  split
  · simp
  · simp only [Link.receive, Link.finishLine, Link.addChar]
    repeat' split
    all_goals simp [Link.emptyLine]

theorem faultedLine_leaves : Leaves lineParts s (faultedLine s) := by
  simp only [faultedLine]
  split <;> simp [reply_leaves]

theorem busyReply_leaves : Leaves [.replySlot] s (busyReply s) := by
  simp only [busyReply]
  split <;> simp [Link.place]

theorem unknownKeyword_leaves : Leaves lineParts s (unknownKeyword s) := by
  simp only [unknownKeyword]
  split <;> simp [reply_leaves]

theorem moreLine_leaves : Leaves lineParts s (moreLine s) := by
  simp only [moreLine]
  split <;> simp [Link.answer, Link.place, lineParts]

theorem lineSent_leaves : Leaves (writes .lineSent) s (lineSent s) := by
  simp only [lineSent, chooseLine]
  repeat' split
  all_goals simp [Link.sendReply, Link.send, writes]

theorem moreRequest_leaves : Leaves lineParts s (moreRequest s) := by
  have hm : Leaves lineParts s (replyMore s) := by simp [replyMore, Link.answer, Link.place, lineParts]
  simp only [moreRequest]
  repeat' split
  all_goals simp [reply_leaves, hm]

/-! The effects of the requests. -/

theorem setClasses_leaves (k : Classes) : Leaves [.classes, .reports, .mark] s (setClasses k s) := by
  simp [setClasses]

theorem storeLev_leaves (n : Lever) (r : Option LevRecord) : Leaves everyLever s (storeLev n r s) := by
  simp [storeLev]

theorem loadTc_leaves (c : Circuit) (r : TcRecord) : Leaves [.track] s (loadTc c r s) := by
  simp [loadTc]

theorem storeSec_leaves (x : Sec) (r : Option SecRecord) : Leaves everySection s (storeSec x r s) := by
  simp [storeSec]

theorem storeLamp_leaves (c : Cell) (b : Binding) : Leaves [.lampMap] s (storeLamp c b s) := by
  simp [storeLamp]

theorem storeTimes_leaves (v : Times) : Leaves [.times] s (storeTimes v s) :=
  Leaves.times (Leaves.refl _ s) (by simp)

theorem storeBoxout_leaves (ts : Option (List LeverTerm)) : Leaves [.boxout] s (storeBoxout ts s) := by
  simp [storeBoxout]

theorem eraseLevers_leaves : Leaves everyLever s (eraseLevers s) :=
  Leaves.levers (Leaves.refl _ s) (by simp)

theorem eraseCircuits_leaves : Leaves [.track] s (eraseCircuits s) := by
  simp [eraseCircuits]

theorem eraseSections_leaves : Leaves everySection s (eraseSections s) :=
  ((storeSec_leaves s .a none).trans (storeSec_leaves _ .b none)).trans (storeSec_leaves _ .c none)

theorem eraseLamps_leaves : Leaves [.lampMap] s (eraseLamps s) := by
  simp [eraseLamps]

theorem tuneCircuit_leaves (c : Circuit) (r : TcRecord) (vals : List (TcField × Nat)) :
    Leaves [.track] s (tuneCircuit c r vals s) := by
  simp [tuneCircuit]

theorem tuneMembers_leaves (vals : List (TcField × Nat)) (ts : List Circuit) :
    Leaves [.track] s (tuneMembers vals ts s) := by
  induction ts generalizing s with
  | nil => exact Leaves.refl _ s
  | cons c ts ih =>
    simp only [tuneMembers]
    split
    · exact (tuneCircuit_leaves s c _ vals).trans (ih _)
    · exact ih s

theorem clearCircuit_leaves (c : Circuit) : Leaves [.track] s (clearCircuit c s) := by
  simp [clearCircuit]

theorem clearForced_leaves (n : Lever) : Leaves everyLever s (clearForced n s) := by
  simp [clearForced]

theorem setClock_leaves (c : ClockTime) : Leaves [.clock, .ring, .mark] s (setClock c s) :=
  Leaves.trans (t := s.setRegister _) (by simp) ((append_leaves _ _).mono (by simp))

/-- Painting writes host values only. -/
theorem paintFrom_diagram (d : Diagram) (n k : Nat) (vs : List Lamp) :
    ∃ h, (paintFrom d n k vs).1 = { d with host := h } := by
  induction vs generalizing d n k with
  | nil => exact ⟨d.host, rfl⟩
  | cons v vs ih =>
    unfold paintFrom
    split
    · split
      · obtain ⟨h, hd⟩ := ih { d with host := mapSet d.host _ v } (n + 1) (k + 1)
        exact ⟨h, hd⟩
      · exact ih d (n + 1) k
    · exact ⟨d.host, rfl⟩

theorem startSection_own_leaves (x : Sec) : Leaves [.lastTrain, .section_ x] s (startSection x s) := by
  have he : ∀ t st tr o, Leaves [.lastTrain, .section_ x] t (enterSec x st tr o false t) :=
    fun t st tr o => (enterSec_leaves x t _ _ _ _).mono (by simp)
  have hp : ∀ t, Leaves [.lastTrain, .section_ x] t (progressCheck x t) :=
    fun t => (progressCheck_leaves x t).mono (by simp)
  have hc : Leaves [.lastTrain, .section_ x] s (countTrain s) := by simp [countTrain]
  simp only [startSection]
  repeat' split
  · simp
  · exact (hc.trans (he _ _ _ _)).trans (hp _)
  · exact he _ _ _ _
  · exact he _ _ _ _
  · exact hc.trans (he _ _ _ _)
  · exact he _ _ _ _

theorem startSection_leaves (x : Sec) : Leaves (.lastTrain :: everySection) s (startSection x s) :=
  (startSection_own_leaves s x).mono (by simp)

/-- What an accepted START writes before the end of its step. -/
def startParts : List Part := .reports :: writes .start

theorem enterService_leaves : Leaves startParts s (enterService s) := by
  have hx : ∀ x t, Leaves startParts t (startSection x t) :=
    fun x t => (startSection_leaves t x).mono (by simp [startParts, writes, List.subset_def]; grind)
  refine Leaves.trans (Leaves.trans (Leaves.trans ?_ (hx .a _)) (hx .b _)) (hx .c _)
  apply Leaves.enter
  apply Leaves.setService
  · exact Leaves.report (Leaves.levers (Leaves.refl _ s) (by simp [startParts, writes])) (by simp [startParts])
  all_goals simp [startParts, writes]

theorem leaveService_leaves : Leaves (writes .withdraw) s (leaveService s) := by
  have hx : ∀ x t, Leaves (writes .withdraw) t (enterLoaded .closed x t) :=
    fun x t => (enterLoaded_leaves x t _).mono (by simp [writes])
  have hc : ∀ p t, Leaves (writes .withdraw) t (cutTapper p t) :=
    fun p t => (cutTapper_leaves p t).mono (by cases p <;> simp [writes])
  unfold leaveService
  apply Leaves.enter
  apply Leaves.setService
  · exact (((((hx .a s).trans (hx .b _)).trans (hx .c _)).trans (hc .a _)).trans (hc .b _)).trans (hc .c _)
  all_goals simp [writes]

end

end Sys2Proof.Machine


/-! ### Every command's own part, and its frame -/

namespace Sys2Proof.Machine

/-- The commands that are one unit's own part and the end of the step. -/
def Instr.isPlain : Instr → Bool
  | .reset _ | .restartPowerUp _ | .resetRelease | .scanFrameStart | .start => false
  | _ => true

/-- The parts a command's own part writes before the end of the step, where the end of the step only adds to them. -/
def ownParts : Instr → List Part
  | .provingInputChange _ => [.inputs, .changes]
  | .outCodeTaken x | .inCodeTaken x => codeParts x
  | c => writes c

/-- A plain command is its own part followed by the end of the step, and its own part leaves all but its parts. -/
theorem exec_plain (c : Instr) (s : State) (hc : Instr.isPlain c = true) :
    ∃ u, exec c s = .next (commit s u) ∧ Leaves (ownParts c) s u := by
  cases c with
  | reset | restartPowerUp | resetRelease | scanFrameStart | start => cases hc
  | initialisationComplete => exact ⟨_, rfl, completeInit_leaves s⟩
  | contactScan made => exact ⟨_, rfl, scanContacts_leaves made s⟩
  | grip n => exact ⟨_, rfl, Leaves.leverStep s (by simp [ownParts, writes]) (takeGrip_leaves n)⟩
  | gripEnd n => exact ⟨_, rfl, Leaves.leverStep s (by simp [ownParts, writes]) (takeGripEnd_leaves n)⟩
  | leavingN n => exact ⟨_, rfl, Leaves.leverStep s (by simp [ownParts, writes]) (leaveN_leaves n)⟩
  | leavingR n => exact ⟨_, rfl, Leaves.leverStep s (by simp [ownParts, writes]) (leaveR_leaves n)⟩
  | arrivalAtN n => exact ⟨_, rfl, Leaves.leverStep s (by simp [ownParts, writes]) (fun t => arrive_leaves n t _)⟩
  | arrivalAtR n => exact ⟨_, rfl, Leaves.leverStep s (by simp [ownParts, writes]) fun t => (arriveR_leaves n t).mono (by simp [ownParts, writes])⟩
  | bothMade n => exact ⟨_, rfl, Leaves.leverStep s (by simp [ownParts, writes]) (takeBothMade_leaves n)⟩
  | bothContactsBreak n => exact ⟨_, rfl, Leaves.leverStep s (by simp [ownParts, writes]) (takeBothBreak_leaves n)⟩
  | freedomWithdrawn n => exact ⟨_, rfl, freedomWithdrawn_leaves n s⟩
  | backLockRelease n => exact ⟨_, rfl, backLockRelease_leaves n s⟩
  | travelLimitExpiry n => exact ⟨_, rfl, travelLimitExpiry_leaves n s⟩
  | timeReleaseExpiry n => exact ⟨_, rfl, timeReleaseExpiry_leaves n s⟩
  | provingInputChange g => exact ⟨_, rfl, provingInputChange_leaves s g⟩
  | reTest => exact ⟨_, rfl, reTest_leaves s⟩
  | measurementComplete samples => exact ⟨_, rfl, completeMeasurement_leaves samples s⟩
  | scanFrameComplete => exact ⟨_, rfl, scanFrameComplete_leaves s⟩
  | bellSenseSample p current => exact ⟨_, rfl, bellSenseSample_leaves p s current⟩
  | startOfBeat p => exact ⟨_, rfl, startOfBeat_leaves p s⟩
  | endOfBeat p => exact ⟨_, rfl, endOfBeat_leaves p s⟩
  | beatHeld p => exact ⟨_, rfl, beatHeld_leaves p s⟩
  | codeComplete p => exact ⟨_, rfl, codeComplete_leaves p s⟩
  | tapperPress p => exact ⟨_, rfl, tapperPress_leaves p s⟩
  | tapperRelease p => exact ⟨_, rfl, tapperRelease_leaves p s⟩
  | stretchEnd p => exact ⟨_, rfl, stretchEnd_leaves p s⟩
  | tapperHeldCut p => exact ⟨_, rfl, tapperHeldCut_leaves p s⟩
  | collision p => exact ⟨_, rfl, collision_leaves p s⟩
  | strokeEnd p => exact ⟨_, rfl, strokeEnd_leaves p s⟩
  | repeatEnd p => exact ⟨_, rfl, repeatEnd_leaves p s⟩
  | repeatClash p => exact ⟨_, rfl, repeatClash_leaves p s⟩
  | codeExchangeUpdate p => exact ⟨_, rfl, codeExchangeUpdate_leaves p s⟩
  | throughIndicatorRepeat p => exact ⟨_, rfl, throughIndicatorRepeat_leaves p s⟩
  | outCodeTaken x => exact ⟨_, rfl, outCodeTaken_leaves x s⟩
  | inCodeTaken x => exact ⟨_, rfl, inCodeTaken_leaves x s⟩
  | indicatorSettled x => exact ⟨_, rfl, indicatorSettled_leaves x s⟩
  | unsettledTimeout x => exact ⟨_, rfl, unsettledTimeout_leaves x s⟩
  | arrivalAtLC x => exact ⟨_, rfl, arrivalAtLC_leaves x s⟩
  | arrivalAtTOL x => exact ⟨_, rfl, arrivalAtTOL_leaves x s⟩
  | arrivalAtLB x => exact ⟨_, rfl, arrivalAtLB_leaves x s⟩
  | autoTol x => exact ⟨_, rfl, autoTol_leaves x s⟩
  | releasePlungerPress x => exact ⟨_, rfl, releasePlungerPress_leaves x s⟩
  | emergencyTimerExpiry x => exact ⟨_, rfl, emergencyTimerExpiry_leaves x s⟩
  | progressCheck x => exact ⟨_, rfl, takeProgress_leaves x s⟩
  | indicatorSample x cls => exact ⟨_, rfl, indicatorSample_leaves x s cls⟩
  | blockControlArrival n => exact ⟨_, rfl, blockControlArrival_leaves s n⟩
  | arrivalAtOut => exact ⟨_, rfl, arrivalAtOut_leaves s⟩
  | arrivalAtIn => exact ⟨_, rfl, arrivalAtIn_leaves s⟩
  | clockTick => exact ⟨_, rfl, clockTick_leaves s⟩
  | diagramFrameStart => exact ⟨_, rfl, diagramFrameStart_leaves s⟩
  | diagramFrameComplete => exact ⟨_, rfl, diagramFrameComplete_leaves s⟩
  | signallerActivity => exact ⟨_, rfl, signallerActivity_leaves s⟩
  | idleTimeout => exact ⟨_, rfl, idleTimeout_leaves s⟩
  | diagramServiceChange => exact ⟨_, rfl, diagramServiceChange_leaves s⟩
  | faultedLine => exact ⟨_, rfl, faultedLine_leaves s⟩
  | busyReply => exact ⟨_, rfl, busyReply_leaves s⟩
  | unknownKeyword => exact ⟨_, rfl, unknownKeyword_leaves s⟩
  | moreLine => exact ⟨_, rfl, moreLine_leaves s⟩
  | lineSent => exact ⟨_, rfl, lineSent_leaves s⟩
  | registerAppend u => exact ⟨_, rfl, registerAppend_leaves s u⟩
  | characterReceived ch => exact ⟨_, rfl, characterReceived_leaves s ch⟩
  | more => exact ⟨_, rfl, moreRequest_leaves s⟩
  | ident => exact ⟨_, rfl, answeringStep_leaves _ _ _ s⟩
  | mode => exact ⟨_, rfl, answeringStep_leaves _ _ _ s⟩
  | check => exact ⟨_, rfl, answeringStep_leaves _ _ _ s⟩
  | showLev => exact ⟨_, rfl, answeringStep_leaves _ _ _ s⟩
  | showTc => exact ⟨_, rfl, answeringStep_leaves _ _ _ s⟩
  | showSec => exact ⟨_, rfl, answeringStep_leaves _ _ _ s⟩
  | showBox => exact ⟨_, rfl, answeringStep_leaves _ _ _ s⟩
  | showGroup => exact ⟨_, rfl, answeringStep_leaves _ _ _ s⟩
  | showLamp => exact ⟨_, rfl, answeringStep_leaves _ _ _ s⟩
  | rawTc => exact ⟨_, rfl, answeringStep_leaves _ _ _ s⟩
  | reg => exact ⟨_, rfl, answeringStep_leaves _ _ _ s⟩
  | notify =>
    refine ⟨_, rfl, requestStep_leaves s (by simp [ownParts, writes, lineParts]) fun ws t r h => ?_⟩
    obtain ⟨k, rfl⟩ := handleNotify_ok h
    exact (setClasses_leaves s k).mono (by simp [ownParts, writes])
  | lev =>
    refine ⟨_, rfl, requestStep_leaves s (by simp [ownParts, writes, lineParts]) fun ws t r h => ?_⟩
    obtain ⟨n, rec_, rfl⟩ := handleLev_ok h
    exact (storeLev_leaves s n _).mono (by simp [ownParts, writes])
  | lock =>
    refine ⟨_, rfl, requestStep_leaves s (by simp [ownParts, writes, lineParts]) fun ws t r h => ?_⟩
    obtain ⟨es, rfl⟩ := handleLock_ok h
    exact (Leaves.locking (ps := [.locking]) (Leaves.refl _ s) (by simp)).mono (by simp [ownParts, writes])
  | tc =>
    refine ⟨_, rfl, requestStep_leaves s (by simp [ownParts, writes, lineParts]) fun ws t r h => ?_⟩
    obtain ⟨k, rec_, rfl⟩ := handleTc_ok h
    exact (loadTc_leaves s k _).mono (by simp [ownParts, writes])
  | sec =>
    refine ⟨_, rfl, requestStep_leaves s (by simp [ownParts, writes, lineParts]) fun ws t r h => ?_⟩
    obtain ⟨x, rec_, rfl⟩ := handleSec_ok h
    exact (storeSec_leaves s x _).mono (by simp [ownParts, writes])
  | code =>
    refine ⟨_, rfl, requestStep_leaves s (by simp [ownParts, writes, lineParts]) fun ws t r h => ?_⟩
    obtain ⟨es, rfl⟩ := handleCode_ok h
    exact (Leaves.codes (ps := [.codes]) (Leaves.refl _ s) (by simp)).mono (by simp [ownParts, writes])
  | lamp =>
    refine ⟨_, rfl, requestStep_leaves s (by simp [ownParts, writes, lineParts]) fun ws t r h => ?_⟩
    obtain ⟨k, b, rfl⟩ := handleLamp_ok h
    exact (storeLamp_leaves s k b).mono (by simp [ownParts, writes])
  | times =>
    refine ⟨_, rfl, requestStep_leaves s (by simp [ownParts, writes, lineParts]) fun ws t r h => ?_⟩
    obtain ⟨v, rfl⟩ := handleTimes_ok h
    exact (storeTimes_leaves s v).mono (by simp [ownParts, writes])
  | boxout =>
    refine ⟨_, rfl, requestStep_leaves s (by simp [ownParts, writes, lineParts]) fun ws t r h => ?_⟩
    obtain ⟨ts, rfl⟩ := handleBoxout_ok h
    exact (storeBoxout_leaves s ts).mono (by simp [ownParts, writes])
  | withdraw =>
    refine ⟨_, rfl, requestStep_leaves s (by simp [ownParts, writes, lineParts]) fun ws t r h => ?_⟩
    obtain ⟨-, rfl⟩ := handleWithdraw_ok h
    exact (leaveService_leaves s).mono (by simp [ownParts, writes])
  | restart =>
    refine ⟨_, rfl, requestStep_leaves s (by simp [ownParts, writes, lineParts]) fun ws t r h => ?_⟩
    obtain rfl := handleRestart_ok h
    simp [ownParts, writes]
  | tuneTc =>
    refine ⟨_, rfl, requestStep_leaves s (by simp [ownParts, writes, lineParts]) fun ws t r h => ?_⟩
    obtain ⟨k, rec_, vals, rfl⟩ := handleTuneTc_ok h
    exact (tuneCircuit_leaves s k _ vals).mono (by simp [ownParts, writes])
  | tuneGroup =>
    refine ⟨_, rfl, requestStep_leaves s (by simp [ownParts, writes, lineParts]) fun ws t r h => ?_⟩
    obtain ⟨vals, ts, rfl⟩ := handleTuneGroup_ok h
    exact (tuneMembers_leaves s vals ts).mono (by simp [ownParts, writes])
  | clearTc =>
    refine ⟨_, rfl, requestStep_leaves s (by simp [ownParts, writes, lineParts]) fun ws t r h => ?_⟩
    obtain ⟨k, rfl⟩ := handleClearTc_ok h
    exact (clearCircuit_leaves s k).mono (by simp [ownParts, writes])
  | clearLev =>
    refine ⟨_, rfl, requestStep_leaves s (by simp [ownParts, writes, lineParts]) fun ws t r h => ?_⟩
    obtain ⟨n, rfl⟩ := handleClearLev_ok h
    exact (clearForced_leaves s n).mono (by simp [ownParts, writes])
  | clock =>
    refine ⟨_, rfl, requestStep_leaves s (by simp [ownParts, writes, lineParts]) fun ws t r h => ?_⟩
    obtain ⟨v, rfl⟩ := handleClock_ok h
    exact (setClock_leaves s v).mono (by simp [ownParts, writes])
  | bright =>
    refine ⟨_, rfl, requestStep_leaves s (by simp [ownParts, writes, lineParts]) fun ws t r h => ?_⟩
    obtain ⟨k, rfl⟩ := handleBright_ok h
    simp [ownParts, writes]
  | dim =>
    refine ⟨_, rfl, requestStep_leaves s (by simp [ownParts, writes, lineParts]) fun ws t r h => ?_⟩
    obtain ⟨k, rfl⟩ := handleDim_ok h
    simp [ownParts, writes]
  | paint =>
    refine ⟨_, rfl, requestStep_leaves s (by simp [ownParts, writes, lineParts]) fun ws t r h => ?_⟩
    obtain ⟨n, vs, rfl⟩ := handlePaint_ok h
    obtain ⟨host, hd⟩ := paintFrom_diagram s.diagram n 0 vs
    simp [ownParts, writes, hd]
  | eraseLev =>
    refine ⟨_, rfl, requestStep_leaves s (by simp [ownParts, writes, lineParts]) fun ws t r h => ?_⟩
    obtain rfl := handleErase_ok h
    exact (eraseLevers_leaves s).mono (by simp [ownParts, writes])
  | eraseLock =>
    refine ⟨_, rfl, requestStep_leaves s (by simp [ownParts, writes, lineParts]) fun ws t r h => ?_⟩
    obtain rfl := handleErase_ok h
    exact (Leaves.locking (ps := [.locking]) (Leaves.refl _ s) (by simp)).mono (by simp [ownParts, writes])
  | eraseTc =>
    refine ⟨_, rfl, requestStep_leaves s (by simp [ownParts, writes, lineParts]) fun ws t r h => ?_⟩
    obtain rfl := handleErase_ok h
    exact (eraseCircuits_leaves s).mono (by simp [ownParts, writes])
  | eraseSec =>
    refine ⟨_, rfl, requestStep_leaves s (by simp [ownParts, writes, lineParts]) fun ws t r h => ?_⟩
    obtain rfl := handleErase_ok h
    exact (eraseSections_leaves s).mono (by simp [ownParts, writes])
  | eraseCode =>
    refine ⟨_, rfl, requestStep_leaves s (by simp [ownParts, writes, lineParts]) fun ws t r h => ?_⟩
    obtain rfl := handleErase_ok h
    exact (Leaves.codes (ps := [.codes]) (Leaves.refl _ s) (by simp)).mono (by simp [ownParts, writes])
  | eraseLamp =>
    refine ⟨_, rfl, requestStep_leaves s (by simp [ownParts, writes, lineParts]) fun ws t r h => ?_⟩
    obtain rfl := handleErase_ok h
    exact (eraseLamps_leaves s).mono (by simp [ownParts, writes])
  | eraseBoxout =>
    refine ⟨_, rfl, requestStep_leaves s (by simp [ownParts, writes, lineParts]) fun ws t r h => ?_⟩
    obtain rfl := handleErase_ok h
    exact (storeBoxout_leaves s none).mono (by simp [ownParts, writes])

/-! The commands that are more than one unit's own part. -/

theorem exec_scanFrameStart (s : State) : ∃ u, exec .scanFrameStart s = .next (commit (handWaiting s) u) ∧
    Leaves [.track] (handWaiting s) u :=
  ⟨_, rfl, scanFrameStart_leaves s _⟩

theorem exec_start (s : State) : ∃ u, exec .start s = .next (clearChangesAtStart s (commit s u)) ∧
    Leaves startParts s u := by
  refine ⟨_, rfl, requestStep_leaves s (by simp [startParts, writes, lineParts]) fun ws t r h => ?_⟩
  obtain rfl := handleStart_ok h
  exact enterService_leaves s

theorem clearChangesAtStart_keeps (s t : State) : keepsAllBut [.changes] t (clearChangesAtStart s t) := by
  simp only [clearChangesAtStart]
  split
  · exact (Leaves.refl _ t).keeps
  · exact Leaves.keeps (by simp)

/-- A report only adds to the pending set. -/
theorem report_keeps (ps : List Part) (s : State) (is : List Item) : keepsAllBut ps s (s.report is) := by
  intro p _
  cases p with
  | reports => exact prefix_addItems _ _ _
  | changes | autoTol | progress | serviceChanges | entries => exact List.prefix_rfl
  | _ => simp [Part.kept, State.memory]

theorem setMark_keeps (s : State) (x : Sec) (k : SectionData) (m : Option Mark) :
    keepsAllBut [.section_ x] s (s.setMark x k m) :=
  keepsAllBut.trans (Leaves.keeps (by simp)) (report_keeps _ (s.setSection x k) _)

theorem outCodeTaken_keeps (x : Sec) (s : State) : keepsAllBut (writes (.outCodeTaken x)) s (outCodeTaken x s) := by
  obtain h | ⟨t, k, m, ht, h⟩ := outCodeTaken_cases x s <;> rw [h]
  · exact (Leaves.refl _ s).keeps
  · exact ht.keeps.trans ((setMark_keeps t x k m).mono (by simp))

theorem inCodeTaken_keeps (x : Sec) (s : State) : keepsAllBut (writes (.inCodeTaken x)) s (inCodeTaken x s) := by
  obtain h | ⟨t, k, m, ht, h⟩ := inCodeTaken_cases x s <;> rw [h]
  · exact (Leaves.refl _ s).keeps
  · exact ht.keeps.trans ((setMark_keeps t x k m).mono (by simp))

theorem provingInputChange_keeps (g : Input) (s : State) : keepsAllBut [.inputs] s (provingInputChange g s) := by
  intro p hp
  by_cases h : p = .changes
  · subst h
    simp only [provingInputChange]
    split
    · exact List.prefix_rfl
    · exact List.prefix_append _ _
  · exact Part.kept_of_same (provingInputChange_leaves s g p (by simp_all))

theorem enterService_keeps (s : State) : keepsAllBut (writes .start) s (enterService s) := by
  intro p hp
  by_cases h : p = .reports
  · subst h
    have hx : ∀ x t, (startSection x t).link.reports = t.link.reports :=
      fun x t => startSection_leaves t x .reports (by simp [everySection])
    simp only [Part.kept, enterService, hx, State.enter_link, State.setService_link, State.report_link]
    exact prefix_addItems _ _ _
  · exact Part.kept_of_same (enterService_leaves s p (by simp [startParts, h, hp]))

/-- A plain command's own part changes only the parts `writes` names. -/
theorem exec_plain_keeps (c : Instr) (s : State) (hc : Instr.isPlain c = true) :
    ∃ u, exec c s = .next (commit s u) ∧ Leaves (ownParts c) s u ∧ keepsAllBut (writes c) s u := by
  by_cases hp : ownParts c = writes c
  · obtain ⟨u, hu, hl⟩ := exec_plain c s hc
    exact ⟨u, hu, hl, hp ▸ hl.keeps⟩
  · cases c with
    | outCodeTaken x => exact ⟨_, rfl, outCodeTaken_leaves x s, outCodeTaken_keeps x s⟩
    | inCodeTaken x => exact ⟨_, rfl, inCodeTaken_leaves x s, inCodeTaken_keeps x s⟩
    | provingInputChange g => exact ⟨_, rfl, provingInputChange_leaves s g, provingInputChange_keeps g s⟩
    | _ => exact absurd rfl hp

/-- Every command but a reset changes only the parts `writes` names; what its changes hand on is only added to. -/
theorem exec_keeps {c : Instr} {s t : State} (hc : ∀ b, c ≠ .reset b ∧ c ≠ .restartPowerUp b) (h : exec c s = .next t) :
    keepsAllBut (writes c) s t := by
  cases hp : Instr.isPlain c with
  | true =>
    obtain ⟨u, hu, -, hk⟩ := exec_plain_keeps c s hp
    cases hu.symm.trans h
    exact hk.trans (keepsAllBut_commit _ s u)
  | false =>
    cases c with
    | reset b => exact absurd rfl (hc b).1
    | restartPowerUp b => exact absurd rfl (hc b).2
    | resetRelease =>
      cases h
      exact (Leaves.resetHeld (Leaves.refl _ s) (by simp [writes])).keeps
    | scanFrameStart =>
      obtain ⟨u, hu, hl⟩ := exec_scanFrameStart s
      cases hu.symm.trans h
      exact (handWaiting_keeps s).trans (hl.keeps.trans (keepsAllBut_commit _ _ u))
    | start =>
      have hr : keepsAllBut (writes .start) s (requestStep .start inConfigure handleStart s) :=
        requestStep_keeps (Leaves.refl _ s).keeps (fun ws t r _ _ ht => handleStart_ok ht ▸ enterService_keeps s)
          fun ws t ht => ht.trans ((reply_leaves ws t).keeps.mono (by simp [writes]))
      cases h
      exact (hr.trans (keepsAllBut_commit _ s _)).trans ((clearChangesAtStart_keeps s _).mono (by simp [writes]))
    | _ => cases hp

/-! Of the frame, the facts used most. -/

section
variable {c : Instr} {s t : State} (hc : ∀ b, c ≠ .reset b ∧ c ≠ .restartPowerUp b) (h : exec c s = .next t)
include hc h

theorem exec_lever {n : Lever} (hn : .lever n ∉ writes c) : t.lever n = s.lever n :=
  exec_keeps hc h _ hn

theorem exec_section {x : Sec} (hx : .section_ x ∉ writes c) : t.section_ x = s.section_ x :=
  exec_keeps hc h _ hx

theorem exec_serviceState (hv : .serviceState ∉ writes c) : t.service.state = s.service.state :=
  exec_keeps hc h _ hv

end

end Sys2Proof.Machine


/-! ### What a step can do to a lever -/

namespace Sys2Proof.Machine

/-- What one command can make of the lever `n` of `s`. -/
inductive LeverMove (c : Instr) (s : State) (n : Lever) : LeverData → Prop
  | stays : LeverMove c s n (s.lever n)
  | flags (r f : Bool) : LeverMove c s n { s.lever n with refused := r, forced := f }
  | relocks (r : Bool) : LeverMove c s n { (s.lever n).relock with refused := r }
  | freed (hc : c = .grip n) (hv : s.service.state = .inService) (hl : (s.lever n).loaded = true)
      (hp : (s.lever n).pos.isLocked = true ∨ (s.lever n).pos = .travel ∧ (s.lever n).lock = false)
      (ht : s.freedomTest n = true) : LeverMove c s n ((s.lever n).free s.travelLimit)
  | granted (hp : (s.lever n).pos.isFree = true) : LeverMove c s n ((s.lever n).grantTravel s.travelLimit)
  | caught (pos : LeverPos) (f st : Bool) (b : BackLock) (hp : pos ∈ [LeverPos.nLocked, .rLocked, .travel, .fault])
      (hb : b = .idle ∨ b = (s.lever n).backlock ∧ (s.lever n).pos ≠ .backlocked) :
      LeverMove c s n { (s.lever n).caught pos with forced := f, stalled := st, backlock := b }
  | backLocked (d : Nat) (hp : (s.lever n).pos = .rFree) :
      LeverMove c s n { (s.lever n).caught .backlocked with backlock := .timing d }
  | released (hc : c = .backLockRelease n) (hp : (s.lever n).pos = .backlocked) (hb : (s.lever n).backlock = .due)
      (ht : s.tableTest n = true) :
      LeverMove c s n { (s.lever n).grantTravel s.travelLimit with backlock := .idle }
  | due (hb : (s.lever n).backlock.isTiming = true) : LeverMove c s n { s.lever n with backlock := .due }
  | recorded (r : Option LevRecord) (hv : s.service.state = .configure) :
      LeverMove c s n { s.lever n with record := r, backlock := .idle }
  | settled (k : LeverContacts) (hv : s.service.state ≠ .inService) : LeverMove c s n ((s.lever n).settle k)
  | started (k : LeverContacts) (hc : c = .start) (hv : s.service.state = .configure)
      (hl : (s.lever n).loaded = true) : LeverMove c s n ((s.lever n).start k s.now)

/-! The moves each operation of the lever frame makes. -/

section
variable {c : Instr} (n : Lever) (s : State)

theorem takeGrip_move (hc : c = .grip n) : LeverMove c s n ((takeGrip n s).lever n) := by
  have hrefuse : LeverMove c s n (s.lever n).refuse := .flags true _
  simp only [takeGrip, gripInService, requestFreedom]
  split
  · rename_i hl
    repeat' split
    all_goals simp only [State.lever_setLever, if_true, LeverMove.stays, hrefuse]
    · exact .freed hc ‹_› hl (.inl (by simp [*, LeverPos.isLocked])) ‹_›
    · exact .freed hc ‹_› hl (.inl (by simp [*, LeverPos.isLocked])) ‹_›
    · exact .freed hc ‹_› hl (.inr (by simp_all)) ‹_›
  · exact .stays

theorem takeGripEnd_move : LeverMove c s n ((takeGripEnd n s).lever n) := by
  simp only [takeGripEnd, State.lever_setLever, if_true]
  exact .relocks false

theorem caught_travel_move (f st : Bool) (hb : (s.lever n).pos ≠ .backlocked) :
    LeverMove c s n { (s.lever n).caught .travel with forced := f, stalled := st } :=
  .caught .travel f st (s.lever n).backlock (by simp) (.inr ⟨rfl, hb⟩)

theorem forceOut_move (hb : (s.lever n).pos ≠ .backlocked) : LeverMove c s n ((forceOut n s).lever n) := by
  simp only [forceOut]
  split <;> simp only [State.enter_lever, State.lever_setLever, if_true]
  · exact caught_travel_move n s true _ hb
  · exact caught_travel_move n s _ _ hb

theorem leaveN_move : LeverMove c s n ((leaveN n s).lever n) := by
  simp only [leaveN]
  split
  · rename_i hp
    simp only [State.lever_setLever, if_true]
    exact .granted (by simp [hp, LeverPos.isFree])
  · rename_i hp
    exact forceOut_move n s (by simp [hp])
  · exact .stays

theorem leaveR_move : LeverMove c s n ((leaveR n s).lever n) := by
  simp only [leaveR, backLock]
  split
  · rename_i hp
    have hg : LeverMove c s n ((s.lever n).grantTravel s.travelLimit) := .granted (by simp [hp, LeverPos.isFree])
    repeat' split
    all_goals simp only [State.lever_setLever, if_true, hg]
    exact .backLocked _ hp
  · rename_i hp
    exact forceOut_move n s (by simp [hp])
  · exact .stays

theorem arrive_move (pos : LeverPos) (hp : pos = .nLocked ∨ pos = .rLocked) :
    LeverMove c s n ((arrive n pos s).lever n) := by
  have hm : pos ∈ [LeverPos.nLocked, .rLocked, .travel, .fault] := by
    obtain rfl | rfl := hp <;> simp
  simp only [arrive]
  split
  · simp only [State.lever_setLever, if_true]
    exact .caught pos (s.lever n).forced false (s.lever n).backlock hm (.inr ⟨rfl, by simp [*]⟩)
  · simp only [State.enter_lever, State.lever_setLever, if_true]
    exact .caught pos true false .idle hm (.inl rfl)
  · simp only [State.lever_setLever, if_true]
    exact .caught pos (s.lever n).forced (s.lever n).stalled (s.lever n).backlock hm (.inr ⟨rfl, by simp [*]⟩)
  · exact .stays

theorem arriveR_lever (m : Lever) : (arriveR n s).lever m = (arrive n .rLocked s).lever m := by
  simp only [arriveR]
  split <;> rfl

theorem takeBothMade_move : LeverMove c s n ((takeBothMade n s).lever n) := by
  have h : LeverMove c s n { (s.lever n).caught .fault with backlock := .idle } :=
    .caught .fault (s.lever n).forced (s.lever n).stalled .idle (by simp) (.inl rfl)
  simp only [takeBothMade]
  split <;> simpa using h

theorem takeBothBreak_move : LeverMove c s n ((takeBothBreak n s).lever n) := by
  simp only [takeBothBreak]
  split
  · simp only [State.lever_setLever, if_true]
    exact caught_travel_move n s _ _ (by simp [*])
  · exact .stays

theorem takeDemand_move : LeverMove c s n ((takeDemand n s).lever n) := by
  simp only [takeDemand]
  split
  · simp only [State.lever_setLever, if_true]
    exact .relocks true
  · exact .stays

theorem takeBackRelease_move (hc : c = .backLockRelease n) : LeverMove c s n ((takeBackRelease n s).lever n) := by
  simp only [takeBackRelease]
  split
  · rename_i h
    simp only [Bool.and_eq_true, decide_eq_true_eq] at h
    obtain ⟨⟨hp, hb⟩, ht⟩ := h
    simp only [State.lever_setLever, if_true]
    exact .released hc hp hb ht
  · exact .stays

theorem travelLimitExpiry_move : LeverMove c s n ((travelLimitExpiry n s).lever n) := by
  simp only [travelLimitExpiry]
  split
  · rename_i h
    have hp : (s.lever n).pos = .travel := by
      unfold State.limitOver LeverData.granted at h
      split at h <;> simp_all
    simp only [State.enter_lever, State.lever_setLever, if_true]
    exact caught_travel_move n s _ true (by simp [hp])
  · exact .stays

/-- What a release check and an entry into DUE make of the levers. -/
@[simp] theorem releaseCheck_lever (m : Lever) : (releaseCheck n s).lever m = s.lever m := by
  simp only [releaseCheck]
  split <;> rfl

theorem becomeDue_lever (m : Lever) :
    (becomeDue n s).lever m = if m = n then { s.lever n with backlock := .due } else s.lever m := by
  simp [becomeDue]

end

/-! ### What the tests of the Locking unit read -/

section
variable {ps : List Part} {s t : State} (h : Leaves ps s t)
include h

theorem Leaves.lockTrack_eq (hc : .changes ∉ ps) (ht : .track ∉ ps) (k : Circuit) : t.lockTrack k = s.lockTrack k := by
  have hch : t.inbox.changes = s.inbox.changes := h .changes hc
  have htr : t.track = s.track := h .track ht
  simp only [State.lockTrack, State.circuit, hch, htr]

theorem Leaves.lockSec_eq (hc : .changes ∉ ps) (hx : ∀ x, .section_ x ∉ ps) (x : Sec) : t.lockSec x = s.lockSec x := by
  have hch : t.inbox.changes = s.inbox.changes := h .changes hc
  have hsx : t.section_ x = s.section_ x := h (.section_ x) (hx x)
  simp only [State.lockSec, hch, hsx]

theorem Leaves.approachFree_eq (hc : .changes ∉ ps) (ht : .track ∉ ps) (hx : ∀ x, .section_ x ∉ ps) (a : Approach) :
    t.approachFree a = s.approachFree a := by
  simp only [State.approachFree, h.lockTrack_eq hc ht, h.lockSec_eq hc hx]

end

/-- The table test reads the table and the levers' states. -/
theorem tableTest_congr {s t : State} (hl : t.locking = s.locking) (hp : ∀ m, (t.lever m).pos = (s.lever m).pos)
    (z : Lever) : t.tableTest z = s.tableTest z := by
  have : t.trial z = s.trial z := by
    funext m
    simp only [State.trial, hp]
  rw [State.tableTest, State.tableTest, hl, this]

/-- The approach is free where its circuits are CLEAR and its section is not in ENTERED_IN, as the unit has taken them. -/
theorem approachFree_iff (s : State) (a : Approach) : s.approachFree a = true ↔
    (∀ c ∈ a.circuits, s.lockTrack c = .clear) ∧ ∀ x, a.sec = some x → s.lockSec x ≠ .enteredIn := by
  unfold State.approachFree
  cases a.sec <;> simp

/-! ### A change taken by the Locking unit -/

/-- The record of lever `n` is one that the change `ch` puts into DUE: in TIMING, of an approach the change belongs to and
finds free (R38). -/
def State.dueAt (s : State) (ch : Change) (n : Lever) : Prop :=
  (s.lever n).backlock.isTiming = true ∧
    ∃ a, (s.lever n).approach = some a ∧ a.follows ch = true ∧ s.approachFree a = true

theorem approachCheck_due {ch : Change} {n : Lever} {s : State} (h : s.dueAt ch n) :
    approachCheck ch n s = becomeDue n s := by
  obtain ⟨ht, a, ha, hf, hfree⟩ := h
  simp [approachCheck, ha, ht, hf, hfree]

theorem approachCheck_not_due {ch : Change} {n : Lever} {s : State} (h : ¬s.dueAt ch n) : approachCheck ch n s = s := by
  unfold approachCheck
  split
  · rename_i a ha
    refine if_neg fun hc => h ?_
    simp only [Bool.and_eq_true] at hc
    exact ⟨hc.1.1, a, ha, hc.1.2, hc.2⟩
  · rfl

/-- An approach check moves only the back-lock record of its own lever, so the tests read the same after it. -/
theorem approachCheck_lever_ne {ch : Change} {n m : Lever} {s : State} (h : m ≠ n) :
    (approachCheck ch n s).lever m = s.lever m := by
  by_cases hd : s.dueAt ch n
  · simp [approachCheck_due hd, becomeDue_lever, h]
  · rw [approachCheck_not_due hd]

theorem approachCheck_pos (ch : Change) (n m : Lever) (s : State) :
    ((approachCheck ch n s).lever m).pos = (s.lever m).pos := by
  by_cases hd : s.dueAt ch n
  · rw [approachCheck_due hd, becomeDue_lever]
    split <;> simp [*]
  · rw [approachCheck_not_due hd]

theorem approachCheck_tableTest (ch : Change) (n z : Lever) (s : State) :
    (approachCheck ch n s).tableTest z = s.tableTest z :=
  tableTest_congr (approachCheck_leaves ch n s .locking (by simp [everyLever])) (fun m => approachCheck_pos ch n m s) z

theorem approachCheck_dueAt {ch : Change} {n m : Lever} {s : State} (h : m ≠ n) :
    (approachCheck ch n s).dueAt ch m ↔ s.dueAt ch m := by
  simp only [State.dueAt, approachCheck_lever_ne h,
    (approachCheck_leaves ch n s).approachFree_eq (by simp [everyLever]) (by simp [everyLever]) (by simp [everyLever])]

theorem not_dueAt_approachCheck (ch : Change) (n : Lever) (s : State) : ¬(approachCheck ch n s).dueAt ch n := by
  by_cases hd : s.dueAt ch n
  · rw [approachCheck_due hd]
    simp [State.dueAt, becomeDue_lever, BackLock.isTiming]
  · rwa [approachCheck_not_due hd]

theorem mem_releaseCheck (n m : Lever) (s : State) : m ∈ (releaseCheck n s).inbox.backReleases ↔
    m ∈ s.inbox.backReleases ∨ (m = n ∧ (s.lever n).backlock = .due ∧ s.tableTest n = true) := by
  simp only [releaseCheck]
  split
  · rename_i h
    simp_all [mem_addOnce]
  · rename_i h
    simp_all

theorem becomeDue_tableTest (n : Lever) (s : State) (z : Lever) :
    (s.setLever n { s.lever n with backlock := .due }).tableTest z = s.tableTest z :=
  tableTest_congr (s := s) (t := s.setLever n _) rfl (fun m => by
    by_cases h : m = n
    · subst h
      simp
    · simp [h]) z

theorem mem_becomeDue (n m : Lever) (s : State) : m ∈ (becomeDue n s).inbox.backReleases ↔
    m ∈ s.inbox.backReleases ∨ (m = n ∧ s.tableTest n = true) := by
  simp [becomeDue, mem_releaseCheck, becomeDue_tableTest]

/-- What the approach checks of some levers at one change do to a lever. -/
theorem approachChecks_lever (ch : Change) (ns : List Lever) (s : State) (m : Lever) :
    (m ∈ ns → s.dueAt ch m →
      (forLevers (approachCheck ch) ns s).lever m = { s.lever m with backlock := .due }) ∧
    (m ∉ ns ∨ ¬s.dueAt ch m → (forLevers (approachCheck ch) ns s).lever m = s.lever m) := by
  induction ns generalizing s with
  | nil => simp [forLevers]
  | cons n ns ih =>
    obtain ⟨hd, hn⟩ := ih (approachCheck ch n s)
    by_cases hm : m = n
    · subst hm
      have hsame := hn (.inr (not_dueAt_approachCheck ch m s))
      constructor
      · intro _ hdue
        rw [forLevers, hsame, approachCheck_due hdue, becomeDue_lever, if_pos rfl]
      · intro h
        have hdue : ¬s.dueAt ch m := h.resolve_left (by simp)
        rw [forLevers, hsame, approachCheck_not_due hdue]
    · rw [approachCheck_dueAt hm, approachCheck_lever_ne hm] at hd hn
      simpa [forLevers, hm] using ⟨hd, hn⟩

/-- Which releases the approach checks of some levers send. -/
theorem mem_approachChecks (ch : Change) (ns : List Lever) (s : State) (m : Lever) :
    m ∈ (forLevers (approachCheck ch) ns s).inbox.backReleases ↔
      m ∈ s.inbox.backReleases ∨ (m ∈ ns ∧ s.dueAt ch m ∧ s.tableTest m = true) := by
  induction ns generalizing s with
  | nil => simp [forLevers]
  | cons n ns ih =>
    rw [forLevers, ih, approachCheck_tableTest]
    by_cases hm : m = n
    · subst hm
      simp only [not_dueAt_approachCheck, false_and, and_false, or_false]
      by_cases hd : s.dueAt ch m
      · simp [approachCheck_due hd, mem_becomeDue, hd]
      · simp [approachCheck_not_due hd, hd]
    · rw [approachCheck_dueAt hm]
      have : m ∈ (approachCheck ch n s).inbox.backReleases ↔ m ∈ s.inbox.backReleases := by
        by_cases hd : s.dueAt ch n
        · simp [approachCheck_due hd, mem_becomeDue, hm]
        · rw [approachCheck_not_due hd]
      simp [this, hm]

/-- The release checks of some levers leave the levers, and send the releases of those in DUE whose table test passes. -/
theorem releaseChecks (ch : Change) (ns : List Lever) (s : State) (m : Lever) :
    (forLevers (releaseCheckAt ch) ns s).lever m = s.lever m ∧
    (m ∈ (forLevers (releaseCheckAt ch) ns s).inbox.backReleases ↔ m ∈ s.inbox.backReleases ∨
      (m ∈ ns ∧ (∃ l, ch = .lever l) ∧ (s.lever m).backlock = .due ∧ s.tableTest m = true)) := by
  induction ns generalizing s with
  | nil => simp [forLevers]
  | cons n ns ih =>
    obtain ⟨hl, hr⟩ := ih (releaseCheckAt ch n s)
    have hlever : ∀ k, (releaseCheckAt ch n s).lever k = s.lever k := by
      intro k
      cases ch <;> simp [releaseCheckAt]
    have htest : (releaseCheckAt ch n s).tableTest m = s.tableTest m :=
      tableTest_congr (releaseCheckAt_leaves ch n s .locking (by simp)) (fun k => by rw [hlever]) m
    have hmem : m ∈ (releaseCheckAt ch n s).inbox.backReleases ↔ m ∈ s.inbox.backReleases ∨
        (m = n ∧ (∃ l, ch = .lever l) ∧ (s.lever m).backlock = .due ∧ s.tableTest m = true) := by
      cases ch with
      | lever l =>
        simp only [releaseCheckAt, mem_releaseCheck]
        grind
      | _ => simp [releaseCheckAt]
    rw [forLevers]
    refine ⟨by rw [hl, hlever], ?_⟩
    rw [hr, hmem, hlever, htest, List.mem_cons]
    grind

theorem mem_addDemands (ds ns : List Lever) (m : Lever) : m ∈ addDemands ds ns ↔ m ∈ ds ∨ m ∈ ns := by
  induction ns generalizing ds with
  | nil => simp [addDemands]
  | cons n ns ih =>
    rw [addDemands, ih, mem_addOnce, List.mem_cons, or_assoc]

theorem mem_failing (s : State) (n : Lever) :
    n ∈ s.failing ↔ (s.lever n).pos.isFree = true ∧ s.freedomTest n = false := by
  simp [State.failing, allLevers]

theorem mem_allLevers (n : Lever) : n ∈ allLevers := by
  simp [allLevers]

/-- What the checks of every record at one change do to a lever and to the releases. -/
theorem changeChecks_spec (ch : Change) (s : State) (n : Lever) :
    let t := forLevers (releaseCheckAt ch) allLevers (forLevers (approachCheck ch) allLevers s)
    (s.dueAt ch n → t.lever n = { s.lever n with backlock := .due }) ∧
    (¬s.dueAt ch n → t.lever n = s.lever n) ∧ t.inbox.demands = s.inbox.demands ∧
    (n ∈ t.inbox.backReleases ↔ n ∈ s.inbox.backReleases ∨ (s.tableTest n = true ∧
      (s.dueAt ch n ∨ ((s.lever n).backlock = .due ∧ ∃ m, ch = .lever m)))) := by
  have hspec := approachChecks_lever ch allLevers s
  have hsent := mem_approachChecks ch allLevers s n
  have hleaves := Leaves.forLevers (approachCheck_leaves ch) allLevers s
  generalize forLevers (approachCheck ch) allLevers s = u at hspec hsent hleaves ⊢
  obtain ⟨hlast, hlastSent⟩ := releaseChecks ch allLevers u n
  have hdem := Leaves.forLevers (releaseCheckAt_leaves ch) allLevers u .demands (by simp)
  generalize forLevers (releaseCheckAt ch) allLevers u = t at hlast hlastSent hdem ⊢
  have hpos : ∀ m, (u.lever m).pos = (s.lever m).pos := by
    intro m
    by_cases hd : s.dueAt ch m
    · rw [(hspec m).1 (mem_allLevers m) hd]
    · rw [(hspec m).2 (.inr hd)]
  have htest : u.tableTest n = s.tableTest n := tableTest_congr (hleaves .locking (by simp [everyLever])) hpos n
  refine ⟨fun h => ?_, fun h => ?_, ?_, ?_⟩
  · rw [hlast, (hspec n).1 (mem_allLevers n) h]
  · rw [hlast, (hspec n).2 (.inr h)]
  · exact hdem.trans (hleaves .demands (by simp [everyLever]))
  · rw [hlastSent, hsent, htest]
    by_cases hd : s.dueAt ch n
    · simp [(hspec n).1 (mem_allLevers n) hd, mem_allLevers, hd]
      tauto
    · simp [(hspec n).2 (.inr hd), mem_allLevers, hd]
      tauto

/-- What the taking of one change does: to each lever, to the demands and to the releases. -/
theorem takeChange_spec (ch : Change) (s : State) (n : Lever) :
    (s.dueAt ch n → (takeChange ch s).lever n = { s.lever n with backlock := .due }) ∧
    (¬s.dueAt ch n → (takeChange ch s).lever n = s.lever n) ∧
    (n ∈ (takeChange ch s).inbox.demands ↔ n ∈ s.inbox.demands ∨
      ((s.lever n).pos.isFree = true ∧ s.freedomTest n = false)) ∧
    (n ∈ (takeChange ch s).inbox.backReleases ↔ n ∈ s.inbox.backReleases ∨ (s.tableTest n = true ∧
      (s.dueAt ch n ∨ ((s.lever n).backlock = .due ∧ ∃ m, ch = .lever m)))) := by
  obtain ⟨hdue, hnot, hdem, hsent⟩ :=
    changeChecks_spec ch (s.setInbox { s.inbox with demands := addDemands s.inbox.demands s.failing }) n
  refine ⟨hdue, hnot, ?_, hsent⟩
  unfold takeChange
  rw [hdem]
  simp only [State.setInbox_inbox, mem_addDemands, mem_failing]

end Sys2Proof.Machine


/-! ### Every command's moves of the levers, and the agreement of locks and timers (O16, O57) -/

namespace Sys2Proof.Machine

/-- A move reads of the state only the lever, the service state, the tests and the moments. -/
theorem LeverMove.of_agree {c : Instr} {s t : State} {n : Lever} {l : LeverData} (h : LeverMove c t n l)
    (hl : t.lever n = s.lever n) (hv : t.service.state = s.service.state) (hf : t.freedomTest n = s.freedomTest n)
    (ht : t.tableTest n = s.tableTest n) (hlim : t.travelLimit = s.travelLimit) (hnow : t.now = s.now) :
    LeverMove c s n l := by
  cases h with
  | stays => exact hl ▸ .stays
  | flags r f => exact hl ▸ .flags r f
  | relocks r => exact hl ▸ .relocks r
  | freed hc h₁ h₂ h₃ h₄ =>
    rw [hl, hlim]
    exact .freed hc (hv ▸ h₁) (hl ▸ h₂) (hl ▸ h₃) (hf ▸ h₄)
  | granted hp =>
    rw [hl, hlim]
    exact .granted (hl ▸ hp)
  | caught pos f st b hp hb => exact hl ▸ .caught pos f st b hp (hl ▸ hb)
  | backLocked d hp => exact hl ▸ .backLocked d (hl ▸ hp)
  | released hc hp hb h₄ =>
    rw [hl, hlim]
    exact .released hc (hl ▸ hp) (hl ▸ hb) (ht ▸ h₄)
  | due hb => exact hl ▸ .due (hl ▸ hb)
  | recorded r h₁ => exact hl ▸ .recorded r (hv ▸ h₁)
  | settled k h₁ => exact hl ▸ .settled k (hv ▸ h₁)
  | started k hc h₁ h₂ =>
    rw [hl, hnow]
    exact .started k hc (hv ▸ h₁) (hl ▸ h₂)

/-- The step of a lever makes the move its own operation makes. -/
theorem leverStep_move {c : Instr} {n : Lever} {e : LeverEvent} {f : State → State} (s : State)
    (hf : ∀ t, LeverMove c t n ((f t).lever n)) : LeverMove c s n ((leverStep n e f s).lever n) := by
  obtain h | ⟨rest, h | h⟩ := leverStep_cases n e f s <;> rw [h]
  · exact .stays
  · exact .stays
  · exact (hf _).of_agree rfl rfl rfl rfl rfl rfl

theorem startSection_lever (x : Sec) (s : State) (n : Lever) : (startSection x s).lever n = s.lever n :=
  startSection_leaves s x (.lever n) (by simp [everySection])

theorem enterService_lever (s : State) (n : Lever) : (enterService s).lever n = startLever s n := by
  simp only [enterService, startSection_lever, State.enter_lever, State.setService_lever, State.report_lever]
  simp [State.lever]

theorem clearChangesAtStart_lever (s t : State) (n : Lever) : (clearChangesAtStart s t).lever n = t.lever n :=
  clearChangesAtStart_keeps s t (.lever n) (by simp)

/-- What a request's step makes of the levers: nothing, or what its accepted handling makes of them. -/
theorem requestStep_move {c : Instr} {row : Instr} {accept : ServiceState → Bool} {f : Handler} {s : State} {n : Lever}
    (hf : ∀ ws t r, accept s.service.state = true → f ws s = .ok (t, r) → LeverMove c s n (t.lever n)) :
    LeverMove c s n ((requestStep row accept f s).lever n) :=
  requestStep_keeps (P := fun t => LeverMove c s n (t.lever n)) .stays (fun ws t r _ => hf ws t r) fun _ _ h => h

theorem enterService_move (s : State) (n : Lever) (hv : s.service.state = .configure) :
    LeverMove .start s n ((enterService s).lever n) := by
  rw [enterService_lever, startLever]
  split
  · exact .started _ rfl hv ‹_›
  · exact .settled _ (by simp [hv])

theorem start_move (s : State) (n : Lever) : LeverMove .start s n
    ((commit s (requestStep .start inConfigure handleStart s)).lever n) := by
  rw [commit_lever]
  refine requestStep_move fun ws t r hv ht => ?_
  obtain rfl := handleStart_ok ht
  exact enterService_move s n (by simpa [inConfigure] using hv)

/-- Every command but a reset makes one of the moves of each lever. -/
theorem exec_move {c : Instr} {s t : State} (hc : ∀ b, c ≠ .reset b ∧ c ≠ .restartPowerUp b) (h : exec c s = .next t)
    (n : Lever) : LeverMove c s n (t.lever n) := by
  by_cases hn : .lever n ∉ writes c
  · rw [exec_lever hc h hn]
    exact .stays
  cases c with
  | reset b => exact absurd rfl (hc b).1
  | restartPowerUp b => exact absurd rfl (hc b).2
  | grip m =>
    obtain rfl : n = m := by simpa [writes] using hn
    cases h
    rw [commit_lever]
    exact leverStep_move s fun t => takeGrip_move n t rfl
  | gripEnd m =>
    obtain rfl : n = m := by simpa [writes] using hn
    cases h
    rw [commit_lever]
    exact leverStep_move s fun t => takeGripEnd_move n t
  | leavingN m =>
    obtain rfl : n = m := by simpa [writes] using hn
    cases h
    rw [commit_lever]
    exact leverStep_move s fun t => leaveN_move n t
  | leavingR m =>
    obtain rfl : n = m := by simpa [writes] using hn
    cases h
    rw [commit_lever]
    exact leverStep_move s fun t => leaveR_move n t
  | arrivalAtN m =>
    obtain rfl : n = m := by simpa [writes] using hn
    cases h
    rw [commit_lever]
    exact leverStep_move s fun t => arrive_move n t _ (.inl rfl)
  | arrivalAtR m =>
    obtain rfl : n = m := by simpa [writes] using hn
    cases h
    rw [commit_lever]
    exact leverStep_move s fun t => arriveR_lever n t n ▸ arrive_move n t _ (.inr rfl)
  | bothMade m =>
    obtain rfl : n = m := by simpa [writes] using hn
    cases h
    rw [commit_lever]
    exact leverStep_move s fun t => takeBothMade_move n t
  | bothContactsBreak m =>
    obtain rfl : n = m := by simpa [writes] using hn
    cases h
    rw [commit_lever]
    exact leverStep_move s fun t => takeBothBreak_move n t
  | freedomWithdrawn m =>
    obtain rfl : n = m := by simpa [writes] using hn
    cases h
    simp only [commit_lever, freedomWithdrawn]
    split
    · exact .stays
    · exact (takeDemand_move n _).of_agree rfl rfl rfl rfl rfl rfl
  | backLockRelease m =>
    obtain rfl : n = m := by simpa [writes] using hn
    cases h
    simp only [commit_lever, backLockRelease]
    split
    · exact .stays
    · exact (takeBackRelease_move n _ rfl).of_agree rfl rfl rfl rfl rfl rfl
  | travelLimitExpiry m =>
    obtain rfl : n = m := by simpa [writes] using hn
    cases h
    rw [commit_lever]
    exact travelLimitExpiry_move n s
  | timeReleaseExpiry m =>
    obtain rfl : n = m := by simpa [writes] using hn
    cases h
    simp only [commit_lever, timeReleaseExpiry]
    split
    · split
      · rw [becomeDue_lever, if_pos rfl]
        exact .due (by simp [*, BackLock.isTiming])
      · exact .stays
    · exact .stays
  | reTest =>
    cases h
    simp only [commit_lever, reTest]
    split
    · exact .stays
    · rename_i ch rest _
      obtain ⟨hdue, hnot, -, -⟩ := takeChange_spec ch (s.setInbox { s.inbox with changes := rest }) n
      by_cases hd : (s.setInbox { s.inbox with changes := rest }).dueAt ch n
      · rw [hdue hd]
        exact .due hd.1
      · rw [hnot hd]
        exact .stays
  | initialisationComplete =>
    cases h
    simp only [commit_lever, completeInit]
    split
    · rename_i hp
      have hv : s.service.state = .powerUp := by simp_all [State.isIn]
      have : (initialise s).lever n = (s.lever n).settle s.contacts.levers[n] := by
        simp [initialise, State.lever]
      rw [this]
      exact .settled _ (by simp [hv])
    · exact .stays
  | lev =>
    cases h
    rw [commit_lever]
    refine requestStep_move fun ws t r hv ht => ?_
    obtain ⟨m, rec_, rfl⟩ := handleLev_ok ht
    by_cases hm : n = m
    · subst hm
      simpa [storeLev] using LeverMove.recorded (some rec_) (by simpa [inConfigure] using hv)
    · simpa [storeLev, hm] using LeverMove.stays
  | eraseLev =>
    cases h
    rw [commit_lever]
    refine requestStep_move fun ws t r hv ht => ?_
    obtain rfl := handleErase_ok ht
    have : (eraseLevers s).lever n = { s.lever n with record := none, backlock := .idle } := by
      simp [eraseLevers, State.lever]
    rw [this]
    exact .recorded none (by simpa [inConfigure] using hv)
  | clearLev =>
    cases h
    rw [commit_lever]
    refine requestStep_move fun ws t r hv ht => ?_
    obtain ⟨m, rfl⟩ := handleClearLev_ok ht
    by_cases hm : n = m
    · subst hm
      simpa [clearForced] using LeverMove.flags (s.lever n).refused false
    · simpa [clearForced, hm] using LeverMove.stays
  | start =>
    cases h
    rw [clearChangesAtStart_lever]
    exact start_move s n
  | _ => exact absurd hn (by simp [writes, everySection, portAndPair, lineParts])

end Sys2Proof.Machine


/-! ### Locks and timers agree with the lever states (O16, O57) -/

namespace Sys2Proof.Machine

/-- A lever's lock and timers agree with its state in a service state. -/
def LeverData.okIn (l : LeverData) (v : ServiceState) : Prop :=
  (l.pos.isFree = true → l.lock = true) ∧
    (l.lock = true → (l.pos.isFree = true ∨ l.pos = .travel) ∧ l.loaded = true ∧ v = .inService) ∧
    (l.limit.isSome = true ↔ l.pos = .travel ∧ l.lock = true) ∧
    (l.pos = .backlocked ↔ l.backlock ≠ .idle) ∧
    (l.pos = .backlocked → l.loaded = true ∧ v = .inService)

theorem leverOk_iff (s : State) (n : Lever) : s.leverOk n ↔ (s.lever n).okIn s.service.state := Iff.rfl

/-- A lever with its lock off, no limit and its back-lock record idle, not free and not back-locked, agrees with every
service state. -/
theorem LeverData.okIn_of_off {l : LeverData} (hl : l.lock = false) (ht : l.limit = none) (hb : l.backlock = .idle)
    (hf : l.pos.isFree = false) (hp : l.pos ≠ .backlocked) (v : ServiceState) : l.okIn v := by
  simp [LeverData.okIn, hl, ht, hb, hf, hp]

/-- Outside IN_SERVICE a lever that agrees is off. -/
theorem LeverData.okIn.off {l : LeverData} {v : ServiceState} (h : l.okIn v) (hv : v ≠ .inService) :
    l.lock = false ∧ l.limit = none ∧ l.backlock = .idle ∧ l.pos.isFree = false ∧ l.pos ≠ .backlocked := by
  obtain ⟨hfree, hlock, hlim, hb, hbl⟩ := h
  have hl : l.lock = false := by
    cases hk : l.lock with
    | false => rfl
    | true => exact absurd (hlock hk).2.2 hv
  have hp : l.pos ≠ .backlocked := fun hp => hv (hbl hp).2
  have hf : l.pos.isFree = false := by
    cases hk : l.pos.isFree with
    | false => rfl
    | true => exact absurd (hfree hk) (by simp [hl])
  refine ⟨hl, ?_, ?_, hf, hp⟩
  · simpa [hl] using hlim
  · simpa [hp] using hb

/-- A lever locked at an end or in FAULT that agrees with one service state agrees with every one. -/
theorem LeverData.okIn.settledAt {l : LeverData} {v : ServiceState} (h : l.okIn v)
    (hp : l.pos = .nLocked ∨ l.pos = .rLocked ∨ l.pos = .fault) (w : ServiceState) : l.okIn w := by
  obtain ⟨-, hlock, hlim, hb, -⟩ := h
  have hl : l.lock = false := by
    cases hk : l.lock with
    | false => rfl
    | true => exact absurd (hlock hk).1 (by obtain h | h | h := hp <;> simp [h, LeverPos.isFree])
  refine LeverData.okIn_of_off hl ?_ ?_ ?_ ?_ w <;> obtain h | h | h := hp <;> simp_all [LeverPos.isFree]

theorem posOfContacts_cases (a b : Bool) : posOfContacts a b ∈ [LeverPos.nLocked, .rLocked, .fault, .travel] := by
  cases a <;> cases b <;> simp [posOfContacts]

/-- A move of a lever that agrees leaves one that agrees, in the service state it is made in, or, where it settles the lever
by its contacts, in the one entered. -/
theorem LeverMove.okIn {c : Instr} {s : State} {n : Lever} {l : LeverData} (h : LeverMove c s n l)
    (hok : (s.lever n).okIn s.service.state) :
    l.okIn s.service.state ∨ (c = .start ∧ s.service.state = .configure ∧ l.okIn .inService) := by
  have hparts := hok
  obtain ⟨hfree, hlock, hlim, hb, hbl⟩ := hparts
  cases h with
  | stays => exact .inl hok
  | flags r f => exact .inl hok
  | relocks r =>
    left
    unfold LeverData.relock
    split
    · simp_all [LeverData.okIn, LeverData.enter, LeverPos.isFree]
    · simp_all [LeverData.okIn, LeverData.enter, LeverPos.isFree]
    · exact hok
  | freed hc hv hl hp ht =>
    left
    unfold LeverData.free
    split <;>
      simp_all [LeverData.okIn, LeverData.enter, LeverData.grantTravel, LeverPos.isFree, LeverPos.isLocked,
        LeverData.loaded]
  | granted hp =>
    have hidle : (s.lever n).backlock = .idle := by
      cases hq : (s.lever n).pos <;> simp_all [LeverPos.isFree]
    left
    simp_all [LeverData.okIn, LeverData.enter, LeverData.grantTravel, LeverPos.isFree, LeverData.loaded]
  | caught pos f st b hp hb' =>
    left
    have hidle : b = .idle := by
      obtain rfl | ⟨rfl, hq⟩ := hb'
      · rfl
      · simpa [hq] using hb
    refine LeverData.okIn_of_off rfl rfl hidle ?_ ?_ _ <;>
      simp only [List.mem_cons, List.not_mem_nil, or_false] at hp <;>
      obtain rfl | rfl | rfl | rfl := hp <;> simp [LeverData.caught, LeverData.enter, LeverPos.isFree]
  | backLocked d hp =>
    left
    simp_all [LeverData.okIn, LeverData.enter, LeverData.caught, LeverPos.isFree, LeverData.loaded]
  | released hc hp hb' ht =>
    left
    simp_all [LeverData.okIn, LeverData.enter, LeverData.grantTravel, LeverPos.isFree, LeverData.loaded]
  | due hb' =>
    left
    have hp : (s.lever n).pos = .backlocked := hb.2 fun h => by simp [h, BackLock.isTiming] at hb'
    simp_all [LeverData.okIn, LeverPos.isFree, LeverData.loaded]
  | recorded r hv =>
    obtain ⟨hl, ht, -, hf, hp⟩ := hok.off (by simp [hv])
    exact .inl (LeverData.okIn_of_off (l := { s.lever n with record := r, backlock := .idle }) hl ht rfl hf hp _)
  | settled k hv =>
    obtain ⟨hl, ht, hi, -, -⟩ := hok.off hv
    have hc := posOfContacts_cases k.n.made k.r.made
    refine .inl (LeverData.okIn_of_off (l := (s.lever n).settle k) hl ht hi ?_ ?_ _) <;>
      simp only [LeverData.settle, List.mem_cons, List.not_mem_nil, or_false] at hc ⊢ <;>
      obtain h | h | h | h := hc <;> simp [h, LeverPos.isFree]
  | started k hc hv hl =>
    refine .inr ⟨hc, hv, ?_⟩
    have hcase := posOfContacts_cases k.n.made k.r.made
    unfold LeverData.start
    dsimp only
    split
    · simpa [LeverData.okIn, LeverPos.isFree, LeverData.loaded] using hl
    · refine LeverData.okIn_of_off rfl rfl rfl ?_ ?_ _ <;>
        simp only [List.mem_cons, List.not_mem_nil, or_false] at hcase ⊢ <;>
        obtain h | h | h | h := hcase <;> simp [h, LeverPos.isFree]

/-- A lever that agrees with a service state other than IN_SERVICE agrees with every one. -/
theorem LeverData.okIn.anywhere {l : LeverData} {v : ServiceState} (h : l.okIn v) (hv : v ≠ .inService)
    (w : ServiceState) : l.okIn w := by
  obtain ⟨hl, ht, hb, hf, hp⟩ := h.off hv
  exact LeverData.okIn_of_off hl ht hb hf hp w

/-- A lever that agrees and, if it has a record, is locked at an end or in FAULT agrees with every service state. -/
theorem LeverData.okIn.atRest {l : LeverData} {v : ServiceState} (h : l.okIn v)
    (hp : l.loaded = true → l.pos = .nLocked ∨ l.pos = .rLocked ∨ l.pos = .fault) (w : ServiceState) : l.okIn w := by
  cases hl : l.loaded with
  | true => exact h.settledAt (hp hl) w
  | false =>
    obtain ⟨hfree, hlock, hlim, hb, hbl⟩ := h
    have hk : l.lock = false := by
      cases hk : l.lock with
      | false => rfl
      | true => exact absurd (hlock hk).2.1 (by simp [hl])
    have hq : l.pos ≠ .backlocked := fun hq => by simp [hl] at hbl; exact hbl hq
    refine LeverData.okIn_of_off hk (by simpa [hk] using hlim) (by simpa [hq] using hb) ?_ hq w
    cases hf : l.pos.isFree with
    | false => rfl
    | true => exact absurd (hfree hf) (by simp [hk])

/-! The steps that change the service state. -/

theorem firstRefusal_none {rs : List (Option BoxRefusal)} : firstRefusal rs = none ↔ ∀ r ∈ rs, r = none := by
  induction rs with
  | nil => simp [firstRefusal]
  | cons r rs ih => cases r <;> simp [firstRefusal, ih]

theorem refuseLever_of_switchOut {s : State} (h : s.switchOutRefusal = none) : s.refuseLever = none :=
  firstRefusal_none.1 h _ (by simp)

theorem refuseLever_none (s : State) : s.refuseLever = none ↔
    ∀ n, (s.lever n).loaded = true → (s.lever n).pos.unsettled = false := by
  simp [State.refuseLever, allLevers]

theorem unsettled_false {p : LeverPos} : p.unsettled = false ↔ p = .nLocked ∨ p = .rLocked ∨ p = .fault := by
  cases p <;> simp [LeverPos.unsettled]

theorem atRest_iff (s : State) : s.atRest = true ↔
    (∀ n, (s.lever n).loaded = true → (s.lever n).pos.isLocked = true) ∧
      ∀ x, (s.section_ x).record.isSome = true → (s.section_ x).state = .blocked := by
  have hx : (∀ x ∈ allSections, ((s.section_ x).record.isNone || decide ((s.section_ x).state = .blocked)) = true) ↔
      ∀ x, (s.section_ x).record.isSome = true → (s.section_ x).state = .blocked := by
    constructor
    · intro h x hr
      have := h x (by cases x <;> simp [allSections])
      simpa [Option.isSome_iff_ne_none.1 hr] using this
    · intro h x _
      cases hr : (s.section_ x).record with
      | none => simp
      | some r => simp [h x (by simp [hr])]
  simp only [State.atRest, Bool.and_eq_true, List.all_eq_true, hx]
  refine and_congr_left fun _ => ⟨fun h n hl => ?_, fun h n _ => ?_⟩
  · simpa [hl] using h n (mem_allLevers n)
  · cases hl : (s.lever n).loaded with
    | false => simp
    | true => simp [h n hl]

/-- An arrival of the box switch at OUT changes the service state only where no lever with a record is unsettled. -/
theorem turnOut_service (s : State) : (turnOut s).service.state = s.service.state ∨
    (s.service.state = .inService ∧ s.switchOutRefusal = none) := by
  unfold turnOut
  split
  · exact .inl rfl
  · exact .inl rfl
  · exact .inl rfl
  · rename_i hv
    split
    · exact .inl rfl
    · exact .inr ⟨hv, ‹_›⟩

theorem turnIn_service (s : State) : (turnIn s).service.state = s.service.state ∨ s.service.state = .switchedOut := by
  unfold turnIn
  split
  · exact .inl rfl
  · exact .inl rfl
  · exact .inl rfl
  · exact .inr ‹_›

theorem arrivalAtOut_service (s : State) : (arrivalAtOut s).service.state = s.service.state ∨
    ∀ n, (s.lever n).loaded = true →
      (s.lever n).pos = .nLocked ∨ (s.lever n).pos = .rLocked ∨ (s.lever n).pos = .fault := by
  unfold arrivalAtOut
  split
  · exact .inl rfl
  · rename_i u hu
    obtain ⟨rest, -, rfl⟩ := takeBox_some s hu
    obtain hs | ⟨-, hr⟩ := turnOut_service ((s.setInbox { s.inbox with box := rest }).setService
      { s.service with position := .out })
    · exact .inl hs
    · exact .inr fun n hl => unsettled_false.1 ((refuseLever_none _).1 (refuseLever_of_switchOut hr) n hl)

theorem arrivalAtIn_service (s : State) : (arrivalAtIn s).service.state = s.service.state ∨
    s.service.state = .switchedOut := by
  unfold arrivalAtIn
  split
  · exact .inl rfl
  · rename_i u hu
    obtain ⟨rest, -, rfl⟩ := takeBox_some s hu
    exact turnIn_service ((s.setInbox { s.inbox with box := rest }).setService { s.service with position := .inn })

theorem startSection_service (x : Sec) (s : State) : (startSection x s).service.state = s.service.state :=
  startSection_leaves s x .serviceState (by simp [everySection])

/-- START is accepted in CONFIGURE only and then enters IN_SERVICE; otherwise it moves no lever. -/
theorem exec_start_cases {s t : State} (h : exec .start s = .next t) :
    (t.service.state = s.service.state ∧ ∀ n, t.lever n = s.lever n) ∨
      (s.service.state = .configure ∧ t.service.state = .inService) := by
  cases h
  have hk := clearChangesAtStart_keeps s (commit s (requestStep .start inConfigure handleStart s))
  have hv : _ = _ := hk .serviceState (by simp)
  have hl := fun n => hk (.lever n) (by simp)
  simp only [Part.kept] at hl
  simp only [hv, hl, commit_service, commit_lever]
  refine requestStep_keeps (P := fun u => (u.service.state = s.service.state ∧ ∀ n, u.lever n = s.lever n) ∨
    (s.service.state = .configure ∧ u.service.state = .inService)) (.inl ⟨rfl, fun _ => rfl⟩)
    (fun ws u r _ ha hu => .inr ⟨by simpa [inConfigure] using ha, ?_⟩) fun _ _ h => h
  rw [handleStart_ok hu, enterService, startSection_service, startSection_service, startSection_service]
  rfl

/-- A command other than a reset or START changes the service state from IN_SERVICE only where every lever with a record is
locked at an end or in FAULT, and then moves no lever. -/
theorem exec_service_cases {c : Instr} {s t : State} (hc : ∀ b, c ≠ .reset b ∧ c ≠ .restartPowerUp b)
    (hs : c ≠ .start) (h : exec c s = .next t) : t.service.state = s.service.state ∨ s.service.state ≠ .inService ∨
      ∀ n, t.lever n = s.lever n ∧ ((s.lever n).loaded = true →
        (s.lever n).pos = .nLocked ∨ (s.lever n).pos = .rLocked ∨ (s.lever n).pos = .fault) := by
  by_cases hv : .serviceState ∉ writes c
  · exact .inl (exec_serviceState hc h hv)
  cases c with
  | initialisationComplete =>
    cases h
    simp only [commit_service, completeInit]
    split
    · rename_i hp
      exact .inr (.inl (by simp_all [State.isIn]))
    · exact .inl rfl
  | arrivalAtOut =>
    have hlever := fun n => exec_lever (n := n) hc h (by simp [writes, everySection])
    cases h
    exact (arrivalAtOut_service s).imp id fun hp => .inr fun n => ⟨hlever n, hp n⟩
  | arrivalAtIn =>
    cases h
    exact (arrivalAtIn_service s).imp id fun hp => .inl (by simp [hp])
  | start => exact absurd rfl hs
  | withdraw =>
    have hlever := fun n => exec_lever (n := n) hc h (by simp [writes, everySection, lineParts])
    by_cases hr : s.atRest = true
    · refine .inr (.inr fun n => ⟨hlever n, fun hl => ?_⟩)
      have := ((atRest_iff s).1 hr).1 n hl
      cases hp : (s.lever n).pos <;> simp_all [LeverPos.isLocked]
    · left
      cases h
      rw [commit_service]
      refine requestStep_keeps (P := fun u => u.service.state = s.service.state) rfl (fun ws u r _ _ hu => ?_)
        fun _ _ h => h
      exact absurd (handleWithdraw_ok hu).1 hr
  | _ => exact absurd hv (by simp [writes, everySection, portAndPair, lineParts, everyLever])

/-- After a reset no lever has a record and every lever is in caught travel. -/
theorem powerUp_leversOk (held : Bool) (strap : Fin 4) (s : State) : (powerUp held strap s).leversOk := by
  intro n
  have : (powerUp held strap s).lever n = .reset := by simp [powerUp, State.reset, State.lever]
  rw [leverOk_iff, this]
  exact LeverData.okIn_of_off rfl rfl rfl rfl (by simp [LeverData.reset]) _

/-- Every command keeps each lever's lock and timers in agreement with its state. -/
theorem exec_leversOk {c : Instr} {s t : State} (hs : s.leversOk) (h : exec c s = .next t) : t.leversOk := by
  by_cases hc : ∀ b, c ≠ .reset b ∧ c ≠ .restartPowerUp b
  · intro n
    rw [leverOk_iff]
    have hmove := (exec_move hc h n).okIn (hs n)
    by_cases hstart : c = .start
    · subst hstart
      obtain ⟨hv, hl⟩ | ⟨hconf, hv⟩ := exec_start_cases h
      · rw [hv, hl]
        exact hs n
      · rw [hv]
        obtain hok | ⟨-, -, hok⟩ := hmove
        · exact hok.anywhere (by simp [hconf]) _
        · exact hok
    · have hok := hmove.resolve_right fun h => hstart h.1
      obtain hv | hv | hv := exec_service_cases hc hstart h
      · rw [hv]
        exact hok
      · exact hok.anywhere hv _
      · rw [(hv n).1]
        exact LeverData.okIn.atRest (hs n) (hv n).2 _
  · cases c with
    | reset b =>
      cases h
      exact powerUp_leversOk true b s
    | restartPowerUp b =>
      cases h
      split
      · exact powerUp_leversOk false b s
      · exact hs
    | _ => exact absurd (fun b => ⟨by simp, by simp⟩) hc

/-- Settles O57: what each move of a lever leaves agrees, and the service state changes from IN_SERVICE only with every
loaded lever locked at an end or in FAULT. -/
theorem everyStepKeepsLeversOk : Obligations.EveryStepKeepsLeversOk := by
  intro s t hs h
  unfold step at h
  split at h
  · cases h
    exact hs
  · rename_i c rest _
    exact exec_leversOk (s := { s with pending := rest }) hs h

/-- Settles O16: of the moves of a lever only a freeing and a release turn a lock on; a granted travel begins from a free
state, whose lock is on. -/
theorem lockEnergisedOnlyByTest : Obligations.LockEnergisedOnlyByTest := by
  intro c s t n hs h hoff hon
  by_cases hc : ∀ b, c ≠ .reset b ∧ c ≠ .restartPowerUp b
  · have hmove := exec_move hc h n
    have hfree := (hs n).1
    generalize t.lever n = l at hmove hon
    cases hmove with
    | freed hg hv hl hp ht =>
      refine ⟨?_, .inl ⟨hg, hv, ht⟩⟩
      unfold State.freedomTest at ht
      split at ht
      · cases ht
      · simp only [Bool.and_eq_true] at ht
        exact ht.1.1.1
    | released hg hp hb ht => exact ⟨ht, .inr ⟨hg, hp, hb⟩⟩
    | granted hp => exact absurd (hfree hp) (by simp [hoff])
    | relocks r =>
      have : ((s.lever n).relock).lock = false := by
        unfold LeverData.relock
        split <;> simp [hoff]
      exact absurd hon (by simp [this])
    | started k =>
      have : ((s.lever n).start k s.now).lock = false := by
        unfold LeverData.start
        dsimp only
        split <;> rfl
      exact absurd hon (by simp [this])
    | caught | backLocked => cases hon
    | stays | flags | due | recorded | settled => exact absurd hon (by simp [LeverData.settle, hoff])
  · have hreset : ∀ held strap, ((powerUp held strap s).lever n).lock = false := by
      intro held strap
      simp [powerUp, State.reset, State.lever, LeverData.reset]
    cases c with
    | reset b =>
      cases h
      exact absurd hon (by simp [hreset])
    | restartPowerUp b =>
      cases h
      split at hon
      · exact absurd hon (by simp [hreset])
      · exact absurd hon (by simp [hoff])
    | _ => exact absurd (fun b => ⟨by simp, by simp⟩) hc

end Sys2Proof.Machine

/-! ### What a step makes of a section, and the entries that tell it -/

namespace Sys2Proof.Machine

/-- An entry that is no DISAGREE and no change of section `x`. -/
def RegBody.quiet (x : Sec) : RegBody → Prop
  | .change y .. => y ≠ x
  | .disagree _ => False
  | _ => True

theorem RegBody.quiet_of_within {ps : List Part} {x : Sec} {e : RegBody} (h : e.within ps) (hx : .section_ x ∉ ps) :
    e.quiet x := by
  cases e with
  | change y => exact fun hy => hx (hy ▸ h)
  | disagree y => exact h
  | _ => trivial

/-- What the entries of a train record's end and of its section's changes say of it. -/
def Train.told (t : Train) : Nat × Bool × Nat × ClockTime × Option ClockTime :=
  (t.ident, t.inward, t.cls, t.offered, t.entered)

theorem Train.told_progressed (t : Train) (clear : Circuit → Bool) (tracks : List Circuit) :
    (t.progressed clear tracks).told = t.told := rfl

/-- The entries of a change depend on the states and on what is told of the records. -/
theorem sectionEntries_congr {x : Sec} {a b a' b' : SectionData} {o : TrainEnd} {auto : Bool} (ha : a'.state = a.state)
    (hb : b'.state = b.state) (hta : a'.train.map Train.told = a.train.map Train.told)
    (htb : b'.train.map Train.told = b.train.map Train.told) :
    sectionEntries x a' b' o auto = sectionEntries x a b o auto := by
  unfold sectionEntries trainIdOf trainEntry
  rw [ha, hb]
  cases h₁ : a.train <;> cases h₂ : a'.train <;> cases h₃ : b.train <;> cases h₄ : b'.train <;>
    simp_all [Train.told]

/-- Entries that tell how section `x` passes from `a` to `b`: of its changes, only the one it makes, once, and behind it the
end of the record it ends. -/
def Told (x : Sec) (auto : Bool) (a b : SectionData) (own : List (RegUnit × RegBody)) : Prop :=
  (∀ old new ident au, (RegUnit.block, RegBody.change x old new ident au) ∈ own → old = a.state ∧ new = b.state) ∧
  (a.state ≠ b.state → ∃ before after outcome,
    own = before ++ (sectionEntries x a b outcome auto).map (RegUnit.block, ·) ++ after ∧
      ∀ e ∈ before ++ after, e.2.quiet x)

/-- A step with no entry of section `x`, after which its state and what is told of its record are as before. -/
structure Quiet (x : Sec) (s t : State) : Prop where
  quiet : EntersOnly (fun e => e.2.quiet x) s t
  state : (t.section_ x).state = (s.section_ x).state
  train : (t.section_ x).train.map Train.told = (s.section_ x).train.map Train.told

/-- A quiet step that gives no release. -/
structure Still (x : Sec) (s t : State) : Prop extends Quiet x s t where
  release : (t.section_ x).releaseUnused = true → (s.section_ x).releaseUnused = true

/-- A step whose entries tell what it makes of section `x`, with no DISAGREE among them. -/
def Tells (x : Sec) (auto : Bool) (s t : State) : Prop :=
  ∃ own, t.inbox.entries = s.inbox.entries ++ own ∧ (∀ u y, (u, RegBody.disagree y) ∉ own) ∧
    Told x auto (s.section_ x) (t.section_ x) own

/-- No acceptance and no release is given to section `x`. -/
def Calm (x : Sec) (s t : State) : Prop :=
  ((t.section_ x).state = .clearIn → (s.section_ x).state = .clearIn) ∧
    ((t.section_ x).releaseUnused = true → (s.section_ x).releaseUnused = true)

/-- A step that tells what it makes of section `x` and gives it no acceptance and no release. -/
structure SecStep (x : Sec) (auto : Bool) (s t : State) : Prop where
  tells : Tells x auto s t
  calm : Calm x s t

section
variable {x : Sec} {auto : Bool} {s t u : State}

theorem Calm.trans (h₁ : Calm x s t) (h₂ : Calm x t u) : Calm x s u :=
  ⟨fun h => h₁.1 (h₂.1 h), fun h => h₁.2 (h₂.2 h)⟩

theorem Still.calm (h : Still x s t) : Calm x s t :=
  ⟨fun hs => h.state ▸ hs, h.release⟩

theorem Still.refl (x : Sec) (s : State) : Still x s s :=
  ⟨⟨EntersOnly.refl _ s, rfl, rfl⟩, id⟩

theorem Still.trans (h₁ : Still x s t) (h₂ : Still x t u) : Still x s u :=
  ⟨⟨h₁.quiet.trans h₂.quiet, h₂.state.trans h₁.state, h₂.train.trans h₁.train⟩, fun h => h₁.release (h₂.release h)⟩

/-- A step that writes no part of section `x` leaves it still. -/
theorem Still.of_leaves {ps : List Part} (h : Leaves ps s t) (hx : .section_ x ∉ ps) (he : .entries ∉ ps) :
    Still x s t := by
  have hs : t.section_ x = s.section_ x := h (.section_ x) hx
  exact ⟨⟨(h .entries he : EntersOnly _ s t).mono fun _ hw => RegBody.quiet_of_within hw hx, by rw [hs], by rw [hs]⟩,
    fun hr => hs ▸ hr⟩

/-- A step that adds no entry and leaves the section's state and record leaves it still. -/
theorem Still.of_eq (he : t.inbox.entries = s.inbox.entries) (hs : (t.section_ x).state = (s.section_ x).state)
    (ht : (t.section_ x).train = (s.section_ x).train)
    (hr : (t.section_ x).releaseUnused = true → (s.section_ x).releaseUnused = true) : Still x s t :=
  ⟨⟨EntersOnly.of_eq he, hs, by rw [ht]⟩, hr⟩

theorem not_disagree_of_quiet {es : List (RegUnit × RegBody)} (h : ∀ e ∈ es, e.2.quiet x) (v : RegUnit) (y : Option Sec) :
    (v, RegBody.disagree y) ∉ es :=
  fun hm => h _ hm

theorem not_change_of_quiet {es : List (RegUnit × RegBody)} (h : ∀ e ∈ es, e.2.quiet x) (v : RegUnit) (a b : SecState)
    (k : Option Nat) (au : Bool) : (v, RegBody.change x a b k au) ∉ es :=
  fun hm => h _ hm rfl

theorem Quiet.tells (h : Quiet x s t) : Tells x auto s t := by
  obtain ⟨es, hes, hq⟩ := h.quiet
  exact ⟨es, hes, not_disagree_of_quiet hq, fun _ _ _ _ hm => absurd hm (not_change_of_quiet hq _ _ _ _ _),
    fun hne => absurd h.state.symm hne⟩

/-- Entries that leave the section still may go before those that tell its change. -/
theorem Tells.before (h₁ : Quiet x s t) (h₂ : Tells x auto t u) : Tells x auto s u := by
  obtain ⟨es, hes, hq⟩ := h₁.quiet
  obtain ⟨own, hown, hd, hc, ho⟩ := h₂
  refine ⟨es ++ own, by rw [hown, hes, List.append_assoc], fun v y hm => ?_, fun old new k au hm => ?_, fun hne => ?_⟩
  · exact (List.mem_append.1 hm).elim (not_disagree_of_quiet hq v y) (hd v y)
  · rw [← h₁.state]
    exact hc _ _ k au ((List.mem_append.1 hm).resolve_left (not_change_of_quiet hq _ _ _ _ _))
  · obtain ⟨b, a, o, rfl, hba⟩ := ho (by rwa [h₁.state])
    rw [sectionEntries_congr h₁.state rfl h₁.train rfl]
    refine ⟨es ++ b, a, o, by simp, fun e he => ?_⟩
    simp only [List.append_assoc, List.mem_append] at he hba
    exact he.elim (hq e) (hba e)

/-- Entries that leave the section still may go behind those that tell its change. -/
theorem Tells.after (h₁ : Tells x auto s t) (h₂ : Quiet x t u) : Tells x auto s u := by
  obtain ⟨es, hes, hq⟩ := h₂.quiet
  obtain ⟨own, hown, hd, hc, ho⟩ := h₁
  refine ⟨own ++ es, by rw [hes, hown, List.append_assoc], fun v y hm => ?_, fun old new k au hm => ?_, fun hne => ?_⟩
  · exact (List.mem_append.1 hm).elim (hd v y) (not_disagree_of_quiet hq v y)
  · rw [h₂.state]
    exact hc _ _ k au ((List.mem_append.1 hm).resolve_right (not_change_of_quiet hq _ _ _ _ _))
  · obtain ⟨b, a, o, rfl, hba⟩ := ho (by rwa [← h₂.state])
    refine ⟨b, a ++ es, o, by rw [sectionEntries_congr rfl h₂.state rfl h₂.train]; simp, fun e he => ?_⟩
    simp only [← List.append_assoc] at he
    exact (List.mem_append.1 he).elim (hba e) (hq e)

theorem Still.step (h : Still x s t) : SecStep x auto s t :=
  ⟨h.toQuiet.tells, h.calm⟩

theorem SecStep.before (h₁ : Still x s t) (h₂ : SecStep x auto t u) : SecStep x auto s u :=
  ⟨h₂.tells.before h₁.toQuiet, h₁.calm.trans h₂.calm⟩

theorem SecStep.after (h₁ : SecStep x auto s t) (h₂ : Still x t u) : SecStep x auto s u :=
  ⟨h₁.tells.after h₂.toQuiet, h₁.calm.trans h₂.calm⟩

end

/-! The operations of the Block unit on their own section. -/

section
variable (x : Sec) (s : State)

theorem enterSec_tells (st : SecState) (train : Option Train) (o : TrainEnd) (auto : Bool) :
    Tells x auto s (enterSec x st train o auto s) := by
  refine ⟨_, enterSec_entries x st train o auto s, fun v y => ?_, fun old new k au hm => ?_, fun _ => ⟨[], [], o, ?_⟩⟩
  · unfold sectionEntries trainEntry
    split <;> simp
  · rw [enterSec_section]
    unfold sectionEntries trainEntry at hm
    split at hm <;> simp_all [SectionData.enter]
  · simp

theorem enterSec_step {st : SecState} (hst : st ≠ .clearIn) (train : Option Train) (o : TrainEnd) (auto : Bool) :
    SecStep x auto s (enterSec x st train o auto s) := by
  refine ⟨enterSec_tells x s st train o auto, ?_⟩
  rw [Calm, enterSec_section]
  exact ⟨fun h => absurd h hst, fun h => by cases h⟩

theorem endSec_step {st : SecState} (hst : st ≠ .clearIn) (o : TrainEnd) : SecStep x false s (endSec x st o s) :=
  enterSec_step x s hst none o false

theorem progressCheck_still : Still x s (progressCheck x s) := by
  simp only [progressCheck]
  repeat' split
  · exact Still.refl x s
  · rename_i t ht _
    exact ⟨⟨EntersOnly.of_eq rfl, by simp, by simp [ht, Train.told_progressed]⟩, by simp⟩
  · exact Still.refl x s

theorem enterEnteredIn_step (auto : Bool) : SecStep x auto s (enterEnteredIn x auto s) :=
  (enterSec_step x s (by simp) _ _ auto).after (progressCheck_still x _)

theorem setInbox_still {b : Inbox} (h : b.entries = s.inbox.entries) : Still x s (s.setInbox b) :=
  Still.of_eq h rfl rfl id

theorem takeProgress_still : Still x s (takeProgress x s) := by
  simp only [takeProgress]
  split
  · exact Still.refl x s
  · split
    · exact Still.refl x s
    · split
      · refine Still.trans (t := s.setInbox _) ?_ (progressCheck_still x _)
        exact setInbox_still x s rfl
      · exact setInbox_still x s rfl

theorem autoTol_step : SecStep x true s (autoTol x s) := by
  simp only [autoTol]
  split
  · exact (Still.refl x s).step
  · split
    · refine SecStep.before (t := s.setInbox _) ?_ (enterEnteredIn_step x _ true)
      exact setInbox_still x s rfl
    · refine (Still.trans (t := s.setInbox _) ?_ (progressCheck_still x _)).step
      exact setInbox_still x s rfl

theorem indicatorSample_still (cls : IndClass) : Still x s (indicatorSample x cls s) := by
  simp only [indicatorSample]
  split
  · exact Still.refl x s
  · refine Still.of_eq rfl ?_ ?_ ?_ <;> simp [SectionData.sampled]

/-- A section's data replaced by data of the same state and record. -/
theorem setSection_still {k : SectionData} (hs : k.state = (s.section_ x).state) (ht : k.train = (s.section_ x).train)
    (hr : k.releaseUnused = true → (s.section_ x).releaseUnused = true) : Still x s (s.setSection x k) :=
  Still.of_eq rfl (by simp [hs]) (by simp [ht]) (by simpa using hr)

theorem noteReading_step : SecStep x false s (noteReading x s) := by
  refine ⟨⟨_, rfl, by simp, fun old new k au hm => ?_, fun hne => absurd rfl hne⟩, id, id⟩
  simp only [List.mem_singleton, Prod.mk.injEq, RegBody.change.injEq, true_and] at hm
  exact ⟨hm.1, hm.2.1⟩

theorem enterClearOut_tells : Tells x false s (enterClearOut x s) :=
  (enterSec_tells x s .clearOut ((s.section_ x).train.map (Train.accept s.register.clock)) .void false).after
    ⟨EntersOnly.of_eq rfl, by simp [enterClearOut], by simp [enterClearOut]⟩

/-- A reading taken tells what it makes of the section; but for LC in OFFER_OUT it gives no release. -/
theorem takeReading_step (reading : Option Ind) :
    Tells x false s (takeReading x reading s) ∧
      (¬((s.section_ x).state = .offerOut ∧ reading = some .lc) → Calm x s (takeReading x reading s)) := by
  have hstep : ∀ t, SecStep x false s t → Tells x false s t ∧
      (¬((s.section_ x).state = .offerOut ∧ reading = some .lc) → Calm x s t) :=
    fun t h => ⟨h.tells, fun _ => h.calm⟩
  simp only [takeReading]
  split
  · exact ⟨enterClearOut_tells x s, fun h => absurd ⟨‹_›, rfl⟩ h⟩
  · exact hstep _ (enterSec_step x s (by simp) _ _ _)
  · exact hstep _ (endSec_step x s (by simp) _)
  · exact hstep _ ((noteReading_step x _).before (setSection_still x s (by rfl) (by rfl) (by simp)))
  · exact hstep _ (endSec_step x s (by simp) _)
  · exact hstep _ (endSec_step x s (by simp) _)
  · exact hstep _ (endSec_step x s (by simp) _)
  · exact hstep _ (noteReading_step x s)
  · exact hstep _ (Still.refl x s).step

theorem settleReading_step (reading : Option Ind) :
    Tells x false s (settleReading x reading s) ∧
      (¬((s.section_ x).state = .offerOut ∧ (s.section_ x).reading ≠ reading ∧ reading = some .lc) →
        Calm x s (settleReading x reading s)) := by
  have h₁ : Still x s (s.setSection x { s.section_ x with unsettled := none }) := setSection_still x s rfl rfl id
  simp only [settleReading]
  split
  · exact ⟨h₁.toQuiet.tells, fun _ => h₁.calm⟩
  · rename_i hr
    have h₂ : Still x s (((s.setSection x { s.section_ x with unsettled := none }).setSection x
        { (s.setSection x { s.section_ x with unsettled := none }).section_ x with reading := reading }).setInbox
          { s.inbox with readings := s.inbox.readings ++ [x] }) :=
      Still.of_eq rfl (by simp) (by simp) (by simp)
    obtain ⟨ht, hc⟩ := takeReading_step x _ reading
    refine ⟨ht.before h₂.toQuiet, fun h => h₂.calm.trans (hc fun ⟨ho, hl⟩ => h ⟨?_, hr, hl⟩)⟩
    rwa [h₂.state] at ho

theorem indicatorSettled_step :
    Tells x false s (indicatorSettled x s) ∧
      (¬((s.section_ x).state = .offerOut ∧ (s.section_ x).reading ≠ some .lc) → Calm x s (indicatorSettled x s)) := by
  have hs := (Still.refl x s).step (auto := false)
  simp only [indicatorSettled]
  repeat' split
  · rename_i i _ _ _
    obtain ⟨ht, hc⟩ := settleReading_step x s (some i)
    exact ⟨ht, fun h => hc fun ⟨ho, hr, hl⟩ => h ⟨ho, hl ▸ hr⟩⟩
  · exact ⟨hs.tells, fun _ => hs.calm⟩
  · exact ⟨hs.tells, fun _ => hs.calm⟩

theorem unsettledTimeout_step : SecStep x false s (unsettledTimeout x s) := by
  simp only [unsettledTimeout]
  repeat' split
  · obtain ⟨ht, hc⟩ := settleReading_step x s none
    exact ⟨ht, hc (by simp)⟩
  · exact (Still.refl x s).step
  · exact (Still.refl x s).step

/-- The switch's position taken leaves the section still. -/
theorem takeSwitch_still {i : Ind} {t : State} (h : takeSwitch x i s = some t) : Still x s t := by
  obtain ⟨rest, -, rfl⟩ := takeSwitch_some x s h
  refine Still.of_eq rfl ?_ ?_ ?_ <;> simp

theorem switchLC_tells : Tells x false s (switchLC x s) := by
  simp only [switchLC]
  split
  · exact enterSec_tells x s _ _ _ _
  · exact (Still.refl x s).toQuiet.tells

theorem arrivalAtLC_tells : Tells x false s (arrivalAtLC x s) := by
  simp only [arrivalAtLC]
  split
  · exact (Still.refl x s).toQuiet.tells
  · exact (switchLC_tells x _).before (takeSwitch_still x s ‹_›).toQuiet

theorem switchTOL_step : SecStep x false s (switchTOL x s) := by
  simp only [switchTOL]
  split
  · exact enterEnteredIn_step x s false
  iterate 6 exact endSec_step x s (by simp) _
  iterate 4 exact (Still.refl x s).step

theorem arrivalAtTOL_step : SecStep x false s (arrivalAtTOL x s) := by
  simp only [arrivalAtTOL]
  split
  · exact (Still.refl x s).step
  · exact (switchTOL_step x _).before (takeSwitch_still x s ‹_›)

theorem switchLB_step : SecStep x false s (switchLB x s) := by
  have hs := (Still.refl x s).step (auto := false)
  have hb := fun o => endSec_step x s (st := .blocked) (by simp) o
  simp only [switchLB]
  split
  · split
    · exact enterEnteredIn_step x s false
    · split
      · exact hb _
      · exact hs
  · split
    · exact hb _
    · split
      · exact hb _
      · exact hs
  · exact hb _
  iterate 8 exact hs

theorem arrivalAtLB_step : SecStep x false s (arrivalAtLB x s) := by
  simp only [arrivalAtLB]
  split
  · exact (Still.refl x s).step
  · exact (switchLB_step x _).before (takeSwitch_still x s ‹_›)

/-- A step that adds no entry, and after which every section stands as it did but for spent releases. -/
theorem blockControlArrival_still (n : Lever) : Still x s (blockControlArrival n s) := by
  simp only [blockControlArrival]
  split
  · exact Still.refl x s
  · split
    · rename_i y hy
      by_cases h : x = y
      · subst h
        refine Still.of_eq rfl ?_ ?_ ?_ <;> simp
      · refine Still.of_eq rfl ?_ ?_ ?_ <;> simp [h]
    · exact Still.of_eq rfl rfl rfl id

theorem takeOffer_step (inward : Bool) (cls : Nat) : SecStep x false s (takeOffer x inward cls s) :=
  SecStep.before (t := countTrain s) (Still.of_eq rfl rfl rfl id)
    (enterSec_step x (countTrain s) (by cases inward <;> simp) _ _ _)

theorem crossOffers_step : SecStep x false s (crossOffers x s) :=
  SecStep.before (t := s.enter .block (.crossed x))
    ⟨⟨⟨[(.block, .crossed x)], rfl, by simp [RegBody.quiet]⟩, rfl, rfl⟩, id⟩ (endSec_step x _ (by simp) _)

theorem outCodeResult_step {c : Classification} {t : State} (h : outCodeResult x c s = some t) : SecStep x false s t := by
  unfold outCodeResult at h
  split at h
  · cases h; exact takeOffer_step x s _ _
  · cases h; exact crossOffers_step x s
  · cases h; exact endSec_step x s (by simp) _
  · cases h

theorem inCodeResult_step {c : Classification} {t : State} (h : inCodeResult x c s = some t) : SecStep x false s t := by
  unfold inCodeResult at h
  dsimp only at h
  split at h
  · cases h; exact takeOffer_step x s _ _
  · cases h; exact crossOffers_step x s
  · cases h; exact endSec_step x s (by simp) _
  · split at h
    · cases h
    · cases h; exact (setSection_still x s (by rfl) (by rfl) (by simp)).step
  · split at h
    · cases h
    · cases h; exact (setSection_still x s (by rfl) (by rfl) (by simp)).step
  · cases h

theorem setMark_still {k : SectionData} (m : Option Mark) (hs : k.state = (s.section_ x).state)
    (ht : k.train = (s.section_ x).train) (hr : k.releaseUnused = (s.section_ x).releaseUnused) :
    Still x s (s.setMark x k m) :=
  Still.of_eq rfl (by simp [hs]) (by simp [ht]) (by simp [hr])

/-- A code's result, or the state as it was where it has none. -/
theorem SecStep.getD {x : Sec} {auto : Bool} {s : State} {r : Option State} (h : ∀ t, r = some t → SecStep x auto s t) :
    SecStep x auto s (r.getD s) := by
  cases r with
  | none => exact (Still.refl x s).step
  | some t => exact h t rfl

theorem outCodeTaken_step : SecStep x false s (outCodeTaken x s) := by
  simp only [outCodeTaken]
  split
  · exact (Still.refl x s).step
  · rename_i h t ht
    obtain ⟨rest, -, -, rfl⟩ := takeCode_some x s ht
    have h₁ : Still x s (s.setInbox { s.inbox with codes := rest }) := Still.of_eq rfl rfl rfl id
    refine ((SecStep.getD fun t ht => ?_).before h₁).after (setMark_still x _ _ rfl rfl rfl)
    exact outCodeResult_step x _ ht

theorem inCodeTaken_step : SecStep x false s (inCodeTaken x s) := by
  simp only [inCodeTaken]
  split
  · exact (Still.refl x s).step
  · rename_i h t ht
    obtain ⟨rest, -, -, rfl⟩ := takeCode_some x s ht
    have h₁ : Still x s (s.setInbox { s.inbox with codes := rest }) := Still.of_eq rfl rfl rfl id
    refine ((SecStep.getD fun t ht => ?_).before h₁).after (setMark_still x _ _ rfl rfl rfl)
    split at ht
    · exact inCodeResult_step x _ ht
    · cases ht

theorem pressPlunger_still : Still x s (pressPlunger x s) := by
  simp only [pressPlunger]
  split
  · exact ⟨⟨⟨[_], rfl, by simp [RegBody.quiet]⟩, by simp, by simp⟩, by simp⟩
  · exact Still.refl x s

theorem releasePlungerPress_still : Still x s (releasePlungerPress x s) := by
  simp only [releasePlungerPress]
  split
  · exact Still.refl x s
  · refine Still.trans (t := s.setInbox _) ?_ (pressPlunger_still x _)
    exact setInbox_still x s rfl

theorem emergencyTimerExpiry_still : Still x s (emergencyTimerExpiry x s) := by
  simp only [emergencyTimerExpiry]
  repeat' split
  · exact setSection_still x s rfl rfl id
  · exact Still.refl x s
  · exact Still.refl x s

theorem enterLoaded_step {st : SecState} (hst : st ≠ .clearIn) : SecStep x false s (enterLoaded st x s) := by
  simp only [enterLoaded]
  split
  · exact endSec_step x s hst _
  · exact (Still.refl x s).step

theorem startSection_step : SecStep x false s (startSection x s) := by
  have hc : Still x s (countTrain s) := Still.of_eq rfl rfl rfl id
  simp only [startSection]
  repeat' split
  · exact (Still.refl x s).step
  · exact ((enterSec_step x _ (by simp) _ _ _).before hc).after (progressCheck_still x _)
  · exact endSec_step x s (by simp) _
  · exact endSec_step x s (by simp) _
  · exact (enterSec_step x _ (by simp) _ _ _).before hc
  · exact endSec_step x s (by simp) _

end

end Sys2Proof.Machine

/-! ### What every command makes of every section -/

namespace Sys2Proof.Machine

/-- What a command's own part tells and gives of every section: no acceptance but at an arrival at LC, no release but at the
settling of the indicator. -/
def SecSteps (c : Instr) (s t : State) : Prop :=
  ∀ x, Tells x (decide (c = .autoTol x)) s t ∧ (c ≠ .arrivalAtLC x → c ≠ .indicatorSettled x → Calm x s t)

theorem SecSteps.of_still {c : Instr} {s t : State} (h : ∀ x, Still x s t) : SecSteps c s t :=
  fun x => ⟨(h x).toQuiet.tells, fun _ _ => (h x).calm⟩

theorem SecSteps.of_steps {c : Instr} {s t : State} (h : ∀ x, SecStep x false s t) (hc : ∀ x, c ≠ .autoTol x) :
    SecSteps c s t :=
  fun x => ⟨by rw [decide_eq_false (hc x)]; exact (h x).tells, fun _ _ => (h x).calm⟩

/-- A command that writes no section. -/
theorem SecSteps.of_leaves {c : Instr} {ps : List Part} {s t : State} (h : Leaves ps s t)
    (hx : ∀ x, .section_ x ∉ ps) (he : .entries ∉ ps) : SecSteps c s t :=
  .of_still fun x => .of_leaves h (hx x) he

/-- A command that writes one section. -/
theorem SecSteps.of_one {c : Instr} {ps : List Part} {s t : State} (y : Sec) (h : Leaves ps s t)
    (hx : ∀ x, x ≠ y → .section_ x ∉ ps) (he : .entries ∉ ps)
    (hy : Tells y (decide (c = .autoTol y)) s t ∧ (c ≠ .arrivalAtLC y → c ≠ .indicatorSettled y → Calm y s t)) :
    SecSteps c s t := by
  intro x
  by_cases hxy : x = y
  · exact hxy ▸ hy
  · have hs := Still.of_leaves h (hx x hxy) he
    exact ⟨hs.toQuiet.tells, fun _ _ => hs.calm⟩

theorem SecSteps.after {c : Instr} {s t u : State} (h₁ : SecSteps c s t) (h₂ : ∀ x, Still x t u) : SecSteps c s u :=
  fun x => ⟨(h₁ x).1.after (h₂ x).toQuiet, fun ha hi => ((h₁ x).2 ha hi).trans (h₂ x).calm⟩

/-- One thing done to A, then to B, then to C, each of them writing no other section. -/
theorem SecStep.each {fa fb fc : State → State} {ps : Sec → List Part} (ha : ∀ s, SecStep .a false s (fa s))
    (hb : ∀ s, SecStep .b false s (fb s)) (hc : ∀ s, SecStep .c false s (fc s)) (la : ∀ s, Leaves (ps .a) s (fa s))
    (lb : ∀ s, Leaves (ps .b) s (fb s)) (lc : ∀ s, Leaves (ps .c) s (fc s))
    (hx : ∀ x y, x ≠ y → .section_ x ∉ ps y) (he : ∀ y, .entries ∉ ps y) (s : State) (x : Sec) :
    SecStep x false s (fc (fb (fa s))) := by
  have sa := fun t (h : x ≠ .a) => Still.of_leaves (la t) (hx x .a h) (he .a)
  have sb := fun t (h : x ≠ .b) => Still.of_leaves (lb t) (hx x .b h) (he .b)
  have sc := fun t (h : x ≠ .c) => Still.of_leaves (lc t) (hx x .c h) (he .c)
  cases x with
  | a => exact ((ha s).after (sb _ (by simp))).after (sc _ (by simp))
  | b => exact ((hb _).before (sa s (by simp))).after (sc _ (by simp))
  | c => exact ((hc _).before (sb _ (by simp))).before (sa s (by simp))

theorem repeatReading_still (p x : Sec) (s : State) : Still x s (repeatReading p s) := by
  simp only [repeatReading]
  split
  · rename_i q _
    by_cases h : x = q
    · subst h
      exact setSection_still x s (by rfl) (by rfl) (by simp)
    · exact Still.of_leaves (Leaves.setSection (Leaves.refl [.section_ q] s) (by simp)) (by simpa using h) (by simp)
  · exact Still.refl x s

theorem throughIndicatorRepeat_still (p x : Sec) (s : State) : Still x s (throughIndicatorRepeat p s) := by
  simp only [throughIndicatorRepeat]
  repeat' split
  · exact Still.refl x s
  · refine Still.trans (t := s.setInbox _) ?_ (repeatReading_still p x _)
    exact setInbox_still x s rfl
  · exact setInbox_still x s rfl

theorem clearMarks_still (x : Sec) (s : State) : Still x s (clearMarks s) :=
  .of_leaves (clearMarks_leaves s) (by simp) (by simp)

theorem cutTapper_still (p x : Sec) (s : State) : Still x s (cutTapper p s) :=
  .of_leaves (cutTapper_leaves p s) (by simp) (by simp)

theorem cutRepeat_still (p x : Sec) (s : State) : Still x s (cutRepeat p s) :=
  .of_leaves (cutRepeat_leaves p s) (by simp [portAndPair]) (by simp [portAndPair])

/-- A change of service state with its entry. -/
theorem enterBox_still (x : Sec) (s : State) (v : ServiceUnit) (e : BoxEntry) :
    Still x s ((s.setService v).enter .service (.box e)) :=
  ⟨⟨⟨[_], rfl, by simp [RegBody.quiet]⟩, rfl, rfl⟩, id⟩

theorem enterSwitchedOut_step (x : Sec) (s : State) : SecStep x false s (enterSwitchedOut s) := by
  have h := SecStep.each (ps := fun y => [.section_ y]) (fun s => endSec_step .a s (st := .through) (by simp) .cancelled)
    (fun s => endSec_step .b s (st := .through) (by simp) .cancelled)
    (fun s => enterLoaded_step .c s (st := .closed) (by simp)) (fun s => endSec_leaves .a s _ _)
    (fun s => endSec_leaves .b s _ _) (fun s => enterLoaded_leaves .c s _) (by simp) (by simp) s x
  have h₂ := (h.after (repeatReading_still .a x _)).after (repeatReading_still .b x _)
  exact (((h₂.after (cutTapper_still .a x _)).after (cutTapper_still .b x _)).after (clearMarks_still x _)).after
    (enterBox_still x _ _ _)

/-- Every loaded section enters a state without an acceptance, one after another. -/
theorem enterLoaded_each {st : SecState} (hst : st ≠ .clearIn) (x : Sec) (s : State) :
    SecStep x false s (enterLoaded st .c (enterLoaded st .b (enterLoaded st .a s))) :=
  SecStep.each (ps := fun y => [.section_ y]) (fun s => enterLoaded_step .a s hst) (fun s => enterLoaded_step .b s hst)
    (fun s => enterLoaded_step .c s hst) (fun s => enterLoaded_leaves .a s _) (fun s => enterLoaded_leaves .b s _)
    (fun s => enterLoaded_leaves .c s _) (by simp) (by simp) s x

theorem enterSwitchedIn_step (x : Sec) (s : State) : SecStep x false s (enterSwitchedIn s) :=
  ((((enterLoaded_each (by simp) x s).after (cutRepeat_still .a x _)).after (cutRepeat_still .b x _)).after
    (clearMarks_still x _)).after (enterBox_still x _ _ _)

theorem leaveService_step (x : Sec) (s : State) : SecStep x false s (leaveService s) :=
  ((((enterLoaded_each (by simp) x s).after (cutTapper_still .a x _)).after (cutTapper_still .b x _)).after
    (cutTapper_still .c x _)).after (enterBox_still x _ _ _)

theorem enterService_step (x : Sec) (s : State) : SecStep x false s (enterService s) := by
  have h := SecStep.each (fa := startSection .a) (fb := startSection .b) (fc := startSection .c)
    (ps := fun y => [.lastTrain, .section_ y]) (startSection_step .a) (startSection_step .b) (startSection_step .c)
    (startSection_own_leaves · .a) (startSection_own_leaves · .b) (startSection_own_leaves · .c) (by simp) (by simp)
  refine SecStep.before ?_ (h _ x)
  refine Still.trans (t := State.report _ _) ?_ (enterBox_still x _ _ _)
  exact Still.of_leaves (ps := .reports :: everyLever)
    (Leaves.report (Leaves.levers (Leaves.refl _ s) (by simp)) (by simp)) (by simp [everyLever]) (by simp [everyLever])

theorem takeBox_still {b : BoxPos} (x : Sec) {s t : State} (h : takeBox b s = some t) : Still x s t := by
  obtain ⟨rest, -, rfl⟩ := takeBox_some s h
  exact Still.of_eq rfl rfl rfl id

theorem setRefusal_step (x : Sec) (s : State) (r : Option BoxRefusal) : SecStep x false s (s.setRefusal r) :=
  (show Still x s (s.setRefusal r) from Still.of_eq rfl rfl rfl id).step

theorem arrivalAtOut_step (x : Sec) (s : State) : SecStep x false s (arrivalAtOut s) := by
  simp only [arrivalAtOut, turnOut]
  split
  · exact (Still.refl x s).step
  · refine SecStep.before (takeBox_still x ‹_›) ?_
    repeat' split
    · exact (Still.refl x _).step
    · exact (Still.refl x _).step
    · exact setRefusal_step x _ _
    · exact setRefusal_step x _ _
    · exact enterSwitchedOut_step x _

theorem arrivalAtIn_step (x : Sec) (s : State) : SecStep x false s (arrivalAtIn s) := by
  simp only [arrivalAtIn, turnIn]
  split
  · exact (Still.refl x s).step
  · refine SecStep.before (takeBox_still x ‹_›) ?_
    repeat' split
    · exact (Still.refl x _).step
    · exact (Still.refl x _).step
    · exact setRefusal_step x _ _
    · exact setRefusal_step x _ _
    · exact enterSwitchedIn_step x _

/-- First readings set positions only. -/
theorem scanContacts_still (made : List Contact) (x : Sec) (s : State) : Still x s (scanContacts made s) := by
  have hp : ∀ (a b : SwitchContacts) (k : SectionData), (takePosition a b k).state = k.state ∧
      (takePosition a b k).train = k.train ∧ (takePosition a b k).releaseUnused = k.releaseUnused := by
    intro a b k
    obtain h | ⟨-, -, h⟩ := takePosition_cases a b k <;> rw [h] <;> exact ⟨rfl, rfl, rfl⟩
  simp only [scanContacts]
  split
  · exact Still.refl x s
  · obtain ⟨hs, ht, hr⟩ := hp (s.contacts.switches.get x) ((s.contacts.scan made).switches.get x) (s.section_ x)
    refine Still.of_eq rfl ?_ ?_ fun h => ?_
    · cases x <;> exact hs
    · cases x <;> exact ht
    · cases x <;> exact hr.symm.trans h

theorem storeSec_still (x y : Sec) (r : Option SecRecord) (s : State) : Still x s (storeSec y r s) := by
  by_cases h : x = y
  · subst h
    exact setSection_still x s (by rfl) (by rfl) (by simp)
  · exact Still.of_leaves (Leaves.setSection (Leaves.refl [.section_ y] s) (by simp)) (by simpa using h) (by simp)

theorem reply_still (x : Sec) (ws : List Text) (s : State) : Still x s (reply ws s) :=
  .of_leaves (reply_leaves ws s) (by simp [lineParts]) (by simp [lineParts])

/-- A request's step makes of the sections what its accepted handling makes of them. -/
theorem requestStep_secSteps {c row : Instr} {accept : ServiceState → Bool} {f : Handler} (s : State)
    (hf : ∀ ws t r, f ws s = .ok (t, r) → SecSteps c s t) : SecSteps c s (requestStep row accept f s) :=
  requestStep_keeps (SecSteps.of_still fun x => Still.refl x s) (fun ws t r _ _ => hf ws t r)
    fun ws t h => h.after fun x => reply_still x ws t

/-- Every plain command's own part tells what it makes of the sections. -/
theorem exec_plain_secSteps (c : Instr) (s : State) (hc : Instr.isPlain c = true) (hr : ∀ u, c ≠ .registerAppend u) :
    ∃ u, exec c s = .next (commit s u) ∧ SecSteps c s u := by
  have hone : ∀ {y : Sec} {c : Instr} {t : State}, SecStep y false s t → c ≠ .autoTol y →
      Tells y (decide (c = .autoTol y)) s t ∧ (c ≠ .arrivalAtLC y → c ≠ .indicatorSettled y → Calm y s t) :=
    fun h hc => ⟨by rw [decide_eq_false hc]; exact h.tells, fun _ _ => h.calm⟩
  have hnone : ∀ x, Part.section_ x ∉ everyLever := by simp [everyLever]
  have hother : (∀ x, .section_ x ∉ ownParts c) → .entries ∉ ownParts c →
      ∃ u, exec c s = .next (commit s u) ∧ SecSteps c s u := by
    intro hx he
    obtain ⟨u, hu, hl⟩ := exec_plain c s hc
    exact ⟨u, hu, .of_leaves hl hx he⟩
  cases c with
  | contactScan made => exact ⟨_, rfl, .of_still fun x => scanContacts_still made x s⟩
  | outCodeTaken x =>
    exact ⟨_, rfl, .of_one x (outCodeTaken_leaves x s) (by simp [codeParts]) (by simp [codeParts])
      (hone (outCodeTaken_step x s) (by simp))⟩
  | inCodeTaken x =>
    exact ⟨_, rfl, .of_one x (inCodeTaken_leaves x s) (by simp [codeParts]) (by simp [codeParts])
      (hone (inCodeTaken_step x s) (by simp))⟩
  | indicatorSample x cls =>
    exact ⟨_, rfl, .of_one x (indicatorSample_leaves x s cls) (by simp) (by simp)
      (hone (indicatorSample_still x s cls).step (by simp))⟩
  | indicatorSettled x =>
    exact ⟨_, rfl, .of_one x (indicatorSettled_leaves x s) (by simp) (by simp)
      ⟨by simpa using (indicatorSettled_step x s).1, fun _ h => absurd rfl h⟩⟩
  | unsettledTimeout x =>
    exact ⟨_, rfl, .of_one x (unsettledTimeout_leaves x s) (by simp) (by simp)
      (hone (unsettledTimeout_step x s) (by simp))⟩
  | arrivalAtLC x =>
    exact ⟨_, rfl, .of_one x (arrivalAtLC_leaves x s) (by simp) (by simp)
      ⟨by simpa using arrivalAtLC_tells x s, fun h _ => absurd rfl h⟩⟩
  | arrivalAtTOL x =>
    exact ⟨_, rfl, .of_one x (arrivalAtTOL_leaves x s) (by simp) (by simp) (hone (arrivalAtTOL_step x s) (by simp))⟩
  | arrivalAtLB x =>
    exact ⟨_, rfl, .of_one x (arrivalAtLB_leaves x s) (by simp) (by simp) (hone (arrivalAtLB_step x s) (by simp))⟩
  | blockControlArrival n => exact ⟨_, rfl, .of_still fun x => blockControlArrival_still x s n⟩
  | autoTol x =>
    exact ⟨_, rfl, .of_one x (autoTol_leaves x s) (by simp) (by simp)
      ⟨by simpa using (autoTol_step x s).tells, fun _ _ => (autoTol_step x s).calm⟩⟩
  | progressCheck x =>
    exact ⟨_, rfl, .of_one x (takeProgress_leaves x s) (by simp) (by simp)
      (hone (takeProgress_still x s).step (by simp))⟩
  | releasePlungerPress x =>
    exact ⟨_, rfl, .of_one x (releasePlungerPress_leaves x s) (by simp) (by simp)
      (hone (releasePlungerPress_still x s).step (by simp))⟩
  | emergencyTimerExpiry x =>
    exact ⟨_, rfl, .of_one x (emergencyTimerExpiry_leaves x s) (by simp) (by simp)
      (hone (emergencyTimerExpiry_still x s).step (by simp))⟩
  | throughIndicatorRepeat p => exact ⟨_, rfl, .of_still fun x => throughIndicatorRepeat_still p x s⟩
  | arrivalAtOut => exact ⟨_, rfl, .of_steps (fun x => arrivalAtOut_step x s) (by simp)⟩
  | arrivalAtIn => exact ⟨_, rfl, .of_steps (fun x => arrivalAtIn_step x s) (by simp)⟩
  | registerAppend u => exact absurd rfl (hr u)
  | sec =>
    refine ⟨_, rfl, requestStep_secSteps s fun ws t r h => ?_⟩
    obtain ⟨y, rec_, rfl⟩ := handleSec_ok h
    exact .of_still fun x => storeSec_still x y _ s
  | eraseSec =>
    refine ⟨_, rfl, requestStep_secSteps s fun ws t r h => ?_⟩
    obtain rfl := handleErase_ok h
    exact .of_still fun x => ((storeSec_still x .a none s).trans (storeSec_still x .b none _)).trans
      (storeSec_still x .c none _)
  | withdraw =>
    refine ⟨_, rfl, requestStep_secSteps s fun ws t r h => ?_⟩
    obtain ⟨-, rfl⟩ := handleWithdraw_ok h
    exact .of_steps (fun x => leaveService_step x s) (by simp)
  | reset | restartPowerUp | resetRelease | scanFrameStart | start => cases hc
  | codeExchangeUpdate p | startOfBeat p | endOfBeat p | repeatEnd p | repeatClash p =>
    exact hother (by cases p <;> simp [ownParts, writes, portAndPair, Sec.throughPair])
      (by cases p <;> simp [ownParts, writes, portAndPair, Sec.throughPair])
  | _ => exact hother (by simp [ownParts, writes, lineParts, everyLever]) (by simp [ownParts, writes, lineParts, everyLever])

end Sys2Proof.Machine

/-! ### Acceptance, release, and the tracks a section has taken -/

namespace Sys2Proof.Machine

theorem powerUp_section (held : Bool) (strap : Fin 4) (s : State) (x : Sec) :
    (powerUp held strap s).section_ x = State.reset.section_ x := rfl

theorem reset_section (x : Sec) : (State.reset.section_ x).state = .closed ∧
    (State.reset.section_ x).releaseUnused = false := by
  cases x <;> exact ⟨rfl, rfl⟩

theorem calm_powerUp (held : Bool) (strap : Fin 4) (s : State) (x : Sec) : Calm x s (powerUp held strap s) := by
  rw [Calm, powerUp_section, (reset_section x).1, (reset_section x).2]
  exact ⟨fun h => (by cases h), fun h => (by cases h)⟩

/-- Nothing but an arrival at LC gives an acceptance, and nothing but a settled indicator a release. -/
theorem exec_calm {c : Instr} {s t : State} {x : Sec} (h : exec c s = .next t) (ha : c ≠ .arrivalAtLC x)
    (hi : c ≠ .indicatorSettled x) : Calm x s t := by
  have hkeep : (∀ b, c ≠ .reset b ∧ c ≠ .restartPowerUp b) → .section_ x ∉ writes c → Calm x s t := fun hc hx => by
    rw [Calm, exec_section hc h hx]
    exact ⟨id, id⟩
  cases hp : Instr.isPlain c with
  | true =>
    by_cases hr : ∀ u, c ≠ .registerAppend u
    · obtain ⟨u, hu, hs⟩ := exec_plain_secSteps c s hp hr
      cases hu.symm.trans h
      rw [Calm, commit_section]
      exact (hs x).2 ha hi
    · simp only [not_forall, not_not] at hr
      obtain ⟨u, rfl⟩ := hr
      exact hkeep (by simp) (by simp [writes])
  | false =>
    cases c with
    | reset b =>
      cases h
      exact calm_powerUp true b s x
    | restartPowerUp b =>
      cases h
      split
      · exact calm_powerUp false b s x
      · exact ⟨id, id⟩
    | resetRelease => exact hkeep (by simp) (by simp [writes])
    | scanFrameStart => exact hkeep (by simp) (by simp [writes])
    | start =>
      have hs : SecSteps .start s (requestStep .start inConfigure handleStart s) := requestStep_secSteps s fun ws t r h => by
        obtain rfl := handleStart_ok h
        exact .of_steps (fun x => enterService_step x s) (by simp)
      cases h
      have hk : _ = _ := clearChangesAtStart_keeps s (commit s (requestStep .start inConfigure handleStart s))
        (.section_ x) (by simp)
      rw [Calm, hk, commit_section]
      exact (hs x).2 ha hi
    | _ => cases hp

/-! An acceptance is given by the switch's arrival at LC. -/

/-- The taking of a waiting arrival is of the one that waits first. -/
theorem switchWaits_of_takeFirst {s : State} {x : Sec} {i : Ind} {rest : List (Sec × Ind)}
    (h : takeFirst (fun e => decide (e.1 = x)) s.inbox.switches = some ((x, i), rest)) : s.switchWaits x i := by
  rw [State.switchWaits, ← takeFirst_find, h]
  rfl

theorem mayAccept_iff (s : State) (x : Sec) : s.mayAccept x = true ↔ ∀ r, (s.section_ x).record = some r →
    (∀ d ∈ r.clearing, s.blockTrack x d = .clear) ∧
      ∀ n ∈ r.accept, (s.lever n).pos = .nLocked ∨ (s.lever n).pos = .nFree := by
  have hn : ∀ p : LeverPos, p.atEnd = some .n ↔ p = .nLocked ∨ p = .nFree := by
    intro p
    cases p <;> simp [LeverPos.atEnd]
  unfold State.mayAccept
  cases (s.section_ x).record <;> simp [hn]

/-- An arrival at LC leads to CLEAR_IN under an offer that may be accepted, and leaves the release as it was or spends it. -/
theorem arrivalAtLC_cases (x : Sec) (s : State) : Calm x s (arrivalAtLC x s) ∨
    (s.switchWaits x .lc ∧ (s.section_ x).state = .offerIn ∧ s.mayAccept x = true ∧
      ((arrivalAtLC x s).section_ x).releaseUnused = false) := by
  simp only [arrivalAtLC]
  split
  · exact .inl ⟨id, id⟩
  · rename_i u hu
    have hstill := takeSwitch_still x s hu
    obtain ⟨rest, hw, rfl⟩ := takeSwitch_some x s hu
    simp only [switchLC]
    split
    · rename_i hc
      simp only [Bool.and_eq_true, decide_eq_true_eq] at hc
      obtain ⟨ho, hm⟩ := hc
      refine .inr ⟨switchWaits_of_takeFirst hw, by simpa using ho, ?_, by simp [SectionData.enter]⟩
      rw [mayAccept_iff] at hm ⊢
      intro r hr
      exact hm r (by simpa using hr)
    · exact .inl hstill.calm

/-! A release is given by LC settling in OFFER_OUT. -/

theorem enterClearOut_section (x : Sec) (s : State) : (enterClearOut x s).section_ x =
    { (s.section_ x).enter .clearOut ((s.section_ x).train.map (Train.accept s.register.clock)) with
      releaseUnused := true } := by
  simp [enterClearOut]

/-- In OFFER_OUT a settled reading does nothing to the state and the release, but for LC, with which CLEAR_OUT is entered. -/
theorem settleReading_offerOut {x : Sec} {s : State} (h : (s.section_ x).state = .offerOut) (r : Option Ind) :
    (((settleReading x r s).section_ x).releaseUnused = (s.section_ x).releaseUnused ∧
      ((settleReading x r s).section_ x).state = .offerOut) ∨
    ((s.section_ x).reading ≠ some .lc ∧ r = some .lc ∧ ((settleReading x r s).section_ x).state = .clearOut ∧
      ((settleReading x r s).section_ x).reading = some .lc) := by
  simp only [settleReading]
  split
  · exact .inl (by simp [h])
  · rename_i hr
    by_cases hl : r = some .lc
    · subst hl
      exact .inr ⟨hr, rfl, by simp [changeReading, takeReading, h, enterClearOut_section, SectionData.enter],
        by simp [changeReading, takeReading, h, enterClearOut_section, SectionData.enter]⟩
    · left
      simp only [changeReading, takeReading]
      split <;> simp_all

theorem indicatorSettled_offerOut {x : Sec} {s : State} (h : (s.section_ x).state = .offerOut) :
    (((indicatorSettled x s).section_ x).releaseUnused = (s.section_ x).releaseUnused ∧
      ((indicatorSettled x s).section_ x).state = .offerOut) ∨
    ((s.section_ x).reading ≠ some .lc ∧ ((indicatorSettled x s).section_ x).state = .clearOut ∧
      ((indicatorSettled x s).section_ x).reading = some .lc) := by
  simp only [indicatorSettled]
  repeat' split
  · rename_i i _ _ _
    exact (settleReading_offerOut h (some i)).imp id fun ⟨hr, _, hs⟩ => ⟨hr, hs⟩
  · exact .inl ⟨rfl, h⟩
  · exact .inl ⟨rfl, h⟩

/-- A release is given by nothing but LC settling in OFFER_OUT. -/
theorem indicatorSettled_release {x : Sec} {s : State} (h₀ : (s.section_ x).releaseUnused = false)
    (h₁ : ((indicatorSettled x s).section_ x).releaseUnused = true) :
    (s.section_ x).state = .offerOut ∧ ((indicatorSettled x s).section_ x).state = .clearOut ∧
      (s.section_ x).reading ≠ some .lc ∧ ((indicatorSettled x s).section_ x).reading = some .lc := by
  by_cases ho : (s.section_ x).state = .offerOut
  · obtain ⟨hr, -⟩ | ⟨hne, hst, hrd⟩ := indicatorSettled_offerOut ho
    · simp [hr, h₀] at h₁
    · exact ⟨ho, hst, hne, hrd⟩
  · exact absurd (((indicatorSettled_step x s).2 fun h => ho h.1).2 h₁) (by simp [h₀])

theorem indicatorSettled_clearIn {x : Sec} {s : State} (h : ((indicatorSettled x s).section_ x).state = .clearIn) :
    (s.section_ x).state = .clearIn := by
  by_cases ho : (s.section_ x).state = .offerOut
  · obtain ⟨-, hst⟩ | ⟨-, hst, -⟩ := indicatorSettled_offerOut ho <;> simp [hst] at h
  · exact ((indicatorSettled_step x s).2 fun h => ho h.1).1 h

/-! The tracks a section has taken. -/

/-- Removing from the changes handed to the sections some of another section leaves those of this one. -/
theorem trackWas_of_took {x : Sec} {d : Circuit} {ys pre post zs : List TrackHanded} {h : TrackHanded} (hx : h.sec ≠ x)
    (hy : ys = pre ++ h :: post) (hz : zs = pre ++ post) :
    zs.findSome? (·.trackWas x d) = ys.findSome? (·.trackWas x d) := by
  have : h.trackWas x d = none := if_neg fun hc => hx hc.1
  simp [hy, hz, List.findSome?_append, this]

theorem dropFirst_trackWas {x : Sec} {d : Circuit} {p : TrackHanded → Bool} (hp : ∀ h, p h = true → h.sec ≠ x)
    (ys : List TrackHanded) : (dropFirst p ys).findSome? (·.trackWas x d) = ys.findSome? (·.trackWas x d) := by
  unfold dropFirst
  split
  · rename_i z zs hz
    obtain ⟨pre, post, hy, hzs, hpz, -⟩ := takeFirst_some hz
    exact trackWas_of_took (hp _ hpz) hy hzs
  · rfl

/-- PROGRESS_CHECK of another section takes no change of this one. -/
theorem takeProgress_trackWas {x y : Sec} (h : x ≠ y) (d : Circuit) (s : State) :
    (takeProgress y s).inbox.progress.findSome? (·.trackWas x d) = s.inbox.progress.findSome? (·.trackWas x d) := by
  have hp : ∀ t, (progressCheck y t).inbox.progress = t.inbox.progress := fun t =>
    progressCheck_leaves y t .progress (by simp)
  simp only [takeProgress]
  split
  · rfl
  · rename_i g rest hg
    obtain ⟨pre, post, hy, hzs, hpz, -⟩ := takeFirst_some hg
    have hrest := trackWas_of_took (d := d) (by simpa using fun hc => h (hc.symm.trans (by simpa using hpz))) hy hzs
    split
    · rfl
    · split
      · rw [hp]
        exact hrest
      · exact hrest

/-- AUTO_TOL of another section takes no change of this one. -/
theorem autoTol_trackWas {x y : Sec} (h : x ≠ y) (d : Circuit) (s : State) :
    (autoTol y s).inbox.progress.findSome? (·.trackWas x d) = s.inbox.progress.findSome? (·.trackWas x d) := by
  have hp : ∀ t, (progressCheck y t).inbox.progress = t.inbox.progress := fun t =>
    progressCheck_leaves y t .progress (by simp)
  have he : ∀ t, (enterEnteredIn y true t).inbox.progress = t.inbox.progress := fun t =>
    enterEnteredIn_leaves y t true .progress (by simp)
  have hd := dropFirst_trackWas (x := x) (d := d) (p := s.isFall y) (fun g hg => by
    rw [((isFall_iff s y g).1 hg).1]
    exact fun hc => h hc.symm) s.inbox.progress
  simp only [autoTol]
  repeat' split
  · rfl
  · rw [he]
    exact hd
  · rw [hp]
    exact hd

/-- The end of a step that takes no change handed to section `x` leaves what it holds of the tracks of its record. -/
theorem commit_blockTrack_of_trackWas {s t : State} {x : Sec} {d : Circuit}
    (h : t.inbox.progress.findSome? (·.trackWas x d) = s.inbox.progress.findSome? (·.trackWas x d))
    (hd : d ∈ (t.section_ x).clearings) : (commit s t).blockTrack x d = s.blockTrack x d := by
  have hc : (commit (s.setInbox t.inbox) t).blockTrack x d = (s.setInbox t.inbox).blockTrack x d :=
    commit_blockTrack (s := s.setInbox t.inbox) (t := t) rfl x d (.inr hd)
  have hs : (s.setInbox t.inbox).blockTrack x d = s.blockTrack x d := by
    simp only [State.blockTrack, State.setInbox_inbox, h]
    rfl
  exact hc.trans hs

/-- Each change of a circuit at a frame start is handed to the section with the state before it. -/
theorem handWaiting_blockTrack {s : State} {x : Sec} {d : Circuit} (hd : d ∈ ((handWaiting s).section_ x).clearings) :
    (handWaiting s).blockTrack x d = s.blockTrack x d := by
  have hkeep : ((handWaiting s).section_ x) = s.section_ x := handWaiting_keeps s (.section_ x) (by simp)
  rw [hkeep] at hd
  simp only [handWaiting]
  split
  · rfl
  · refine (handEach_keeps (fun t => t.section_ x = s.section_ x ∧ t.blockTrack x d = s.blockTrack x d)
      (fun t w h => ⟨h.1, ?_⟩) _ _ ⟨rfl, rfl⟩).2
    refine Eq.trans (commit_blockTrack_of_trackWas rfl ?_) h.2
    exact (congrArg (d ∈ SectionData.clearings ·) h.1).mpr hd

/-- What a section holds of the tracks of its record is changed by no command but its PROGRESS_CHECK, its AUTO_TOL and a
reset. -/
theorem exec_blockTrack {c : Instr} {s t : State} {x : Sec} {d : Circuit} (h : exec c s = .next t)
    (hc : ∀ b, c ≠ .reset b ∧ c ≠ .restartPowerUp b) (hp : c ≠ .progressCheck x) (ha : c ≠ .autoTol x)
    (hd : d ∈ (t.section_ x).clearings) : t.blockTrack x d = s.blockTrack x d := by
  cases hplain : Instr.isPlain c with
  | true =>
    by_cases hw : .progress ∉ ownParts c
    · obtain ⟨u, hu, hl⟩ := exec_plain c s hplain
      cases hu.symm.trans h
      have hpr : u.inbox.progress = s.inbox.progress := hl .progress hw
      exact commit_blockTrack_of_trackWas (by rw [hpr]) hd
    · cases c with
      | autoTol y =>
        cases h
        rw [commit_section] at hd
        exact commit_blockTrack_of_trackWas (autoTol_trackWas (fun hxy => ha (by rw [hxy])) d s) hd
      | progressCheck y =>
        cases h
        rw [commit_section] at hd
        exact commit_blockTrack_of_trackWas (takeProgress_trackWas (fun hxy => hp (by rw [hxy])) d s) hd
      | _ =>
        exact absurd hw (by simp [ownParts, codeParts, writes, everyLever, everySection, lineParts, portAndPair])
  | false =>
    cases c with
    | reset b => exact absurd rfl (hc b).1
    | restartPowerUp b => exact absurd rfl (hc b).2
    | resetRelease =>
      cases h
      rfl
    | scanFrameStart =>
      obtain ⟨u, hu, hl⟩ := exec_scanFrameStart s
      cases hu.symm.trans h
      have hus : u.section_ x = (handWaiting s).section_ x := hl (.section_ x) (by simp)
      have hup : u.inbox.progress = (handWaiting s).inbox.progress := hl .progress (by simp)
      rw [commit_section] at hd
      have hb : (commit (handWaiting s) u).blockTrack x d = (handWaiting s).blockTrack x d :=
        commit_blockTrack_of_trackWas (by rw [hup]) hd
      rw [hb]
      exact handWaiting_blockTrack (hus ▸ hd)
    | start =>
      obtain ⟨u, hu, hl⟩ := exec_start s
      cases hu.symm.trans h
      have hk := clearChangesAtStart_keeps s (commit s u)
      have hpr : u.inbox.progress = s.inbox.progress := hl .progress (by simp [startParts, writes, everyLever, everySection, lineParts])
      have hs : (clearChangesAtStart s (commit s u)).section_ x = (commit s u).section_ x := hk (.section_ x) (by simp)
      have hb : (clearChangesAtStart s (commit s u)).blockTrack x d = (commit s u).blockTrack x d := by
        simp only [clearChangesAtStart]
        split <;> rfl
      rw [hs] at hd
      rw [hb]
      exact commit_blockTrack_of_trackWas (by rw [hpr]) hd
    | _ => cases hplain

/-! A release spent stays so. -/

/-- The release of section `x` is spent: cleared, or the arrival at R that clears it is on its way. -/
def State.spent (s : State) (x : Sec) : Prop :=
  (s.section_ x).releaseUnused = false ∨ ∃ m ∈ s.inbox.atR, (s.lever m).blockControl = some x

theorem commit_spent (s t : State) (x : Sec) : (commit s t).spent x ↔ t.spent x := by
  simp only [State.spent, commit_section, commit_lever, commit_inbox_atR]

/-- Taking an arrival at R leaves the others, and clears the release of the section the lever is under. -/
theorem blockControlArrival_spent {n : Lever} {s : State} {x : Sec} (h : s.spent x) : (blockControlArrival n s).spent x := by
  have hl : ∀ m, (blockControlArrival n s).lever m = s.lever m := fun m =>
    blockControlArrival_leaves s n (.lever m) (by simp [everySection])
  have hr := (blockControlArrival_still x s n).release
  obtain h | ⟨m, hm, hb⟩ := h
  · left
    cases hx : ((blockControlArrival n s).section_ x).releaseUnused with
    | false => rfl
    | true => exact absurd (hr hx) (by simp [h])
  · by_cases hmn : m = n
    · subst hmn
      left
      obtain ⟨rest, ht⟩ := takeFirst_of_mem hm
      simp [blockControlArrival, ht, hb]
    · right
      refine ⟨m, ?_, by rw [hl, hb]⟩
      have hrest : ∀ rest, takeFirst (fun a => decide (a = n)) s.inbox.atR = some (n, rest) → m ∈ rest := by
        intro rest ht
        obtain ⟨pre, post, hs, hz, -, -⟩ := takeFirst_some ht
        rw [hs] at hm
        rw [hz]
        simp only [List.mem_append, List.mem_cons, hmn, false_or] at hm ⊢
        exact hm
      simp only [blockControlArrival]
      split
      · exact hm
      · rename_i z rest ht
        obtain ⟨_, _, _, _, hz, _⟩ := takeFirst_some ht
        have hz : z = n := by simpa using hz
        subst hz
        split <;> simpa using hrest rest ht

/-- The arrivals at R under block control are only added to by an arrival at R. -/
theorem arrivalAtR_atR {n m : Lever} {s : State} (h : m ∈ s.inbox.atR) :
    m ∈ (leverStep n .arrivalR (arriveR n) s).inbox.atR := by
  have ha : ∀ t, (arrive n .rLocked t).inbox.atR = t.inbox.atR := fun t => arrive_leaves n t .rLocked .atR (by simp)
  obtain he | ⟨rest, he | he⟩ := leverStep_cases n .arrivalR (arriveR n) s <;> rw [he]
  · exact h
  · exact h
  · simp only [arriveR]
    split <;> simp [ha, h]

/-- Of a lever under block control, an arrival at R out of travel is on its way to the section. -/
theorem arrivalAtR_spends {n : Lever} {s : State} {x : Sec} (hb : (s.lever n).blockControl = some x)
    (hp : (s.lever n).pos = .travel)
    (hr : ((leverStep n .arrivalR (arriveR n) s).lever n).pos = .rLocked) :
    n ∈ (leverStep n .arrivalR (arriveR n) s).inbox.atR ∧
      ((leverStep n .arrivalR (arriveR n) s).lever n).blockControl = some x := by
  obtain he | ⟨rest, he | he⟩ := leverStep_cases n .arrivalR (arriveR n) s <;> rw [he] at hr ⊢
  · simp [hp] at hr
  · simp [hp] at hr
  · constructor
    · simp [arriveR, hp, hb, LeverPos.canArrive]
    · rw [arriveR_lever]
      simpa [arrive, hp, LeverData.blockControl, LeverData.caught, LeverData.enter] using hb

/-- A release spent stays so until LC settles in OFFER_OUT again. -/
theorem exec_spent {c : Instr} {s t : State} {x : Sec} (h : exec c s = .next t) (hs : s.spent x)
    (hb : ∀ m, (t.lever m).blockControl = (s.lever m).blockControl) :
    t.spent x ∨ (c = .indicatorSettled x ∧ (s.section_ x).releaseUnused = false ∧
      (t.section_ x).releaseUnused = true) := by
  by_cases hi : c = .indicatorSettled x ∧ (s.section_ x).releaseUnused = false ∧ (t.section_ x).releaseUnused = true
  · exact .inr hi
  left
  obtain hs | ⟨m, hm, hx⟩ := hs
  · left
    cases hr : (t.section_ x).releaseUnused with
    | false => rfl
    | true =>
      have hne : c ≠ .indicatorSettled x := fun hc => hi ⟨hc, hs, hr⟩
      by_cases ha : c = .arrivalAtLC x
      · subst ha
        cases h
        rw [commit_section] at hr
        obtain hcalm | ⟨-, -, -, hf⟩ := arrivalAtLC_cases x s
        · simp [hcalm.2 hr] at hs
        · simp [hf] at hr
      · simp [(exec_calm h ha hne).2 hr] at hs
  · by_cases hc : ∀ b, c ≠ .reset b ∧ c ≠ .restartPowerUp b
    · by_cases hw : .atR ∉ writes c
      · have hat : t.inbox.atR = s.inbox.atR := exec_keeps hc h .atR hw
        exact .inr ⟨m, by rwa [hat], by rw [hb, hx]⟩
      · cases c with
        | arrivalAtR n =>
          cases h
          rw [commit_spent]
          exact .inr ⟨m, arrivalAtR_atR hm, by rw [← commit_lever, hb, hx]⟩
        | blockControlArrival n =>
          cases h
          rw [commit_spent]
          exact blockControlArrival_spent (.inr ⟨m, hm, hx⟩)
        | _ => exact absurd hw (by simp [writes, everyLever, everySection, lineParts, portAndPair])
    · cases c with
      | reset b =>
        cases h
        exact .inl (reset_section x).2
      | restartPowerUp b =>
        cases h
        split
        · exact .inl (reset_section x).2
        · exact .inr ⟨m, hm, hx⟩
      | _ => exact absurd (fun b => ⟨by simp, by simp⟩) hc

/-- Settles O35: acceptance and release by the operations that give them, the tracks by what is handed on and taken, the
release by the arrivals at R on their way. -/
theorem acceptanceAndReleaseOnlyAsGiven : Obligations.AcceptanceAndReleaseOnlyAsGiven := by
  intro c s t x h
  have hrelease : (s.section_ x).releaseUnused = false → (t.section_ x).releaseUnused = true →
      c = .indicatorSettled x ∧ (s.section_ x).state = .offerOut ∧ (t.section_ x).state = .clearOut ∧
        (s.section_ x).reading ≠ some .lc ∧ (t.section_ x).reading = some .lc := by
    intro h₀ h₁
    by_cases hi : c = .indicatorSettled x
    · subst hi
      cases h
      rw [commit_section] at h₁ ⊢
      exact ⟨rfl, indicatorSettled_release h₀ h₁⟩
    · by_cases ha : c = .arrivalAtLC x
      · subst ha
        cases h
        rw [commit_section] at h₁
        obtain hc | ⟨-, -, -, hf⟩ := arrivalAtLC_cases x s
        · simp [hc.2 h₁] at h₀
        · simp [hf] at h₁
      · simp [(exec_calm h ha hi).2 h₁] at h₀
  refine ⟨fun h₀ h₁ => ?_, hrelease, fun hp ha hc r d _ hr hd => ?_, ?_, fun hs hb => ?_⟩
  · by_cases ha : c = .arrivalAtLC x
    · subst ha
      cases h
      rw [commit_section] at h₁
      obtain hc | ⟨hw, ho, hm, -⟩ := arrivalAtLC_cases x s
      · exact absurd (hc.1 h₁) h₀
      · exact ⟨rfl, hw, ho, (mayAccept_iff s x).1 hm⟩
    · by_cases hi : c = .indicatorSettled x
      · subst hi
        cases h
        rw [commit_section] at h₁
        exact absurd (indicatorSettled_clearIn h₁) h₀
      · exact absurd ((exec_calm h ha hi).1 h₁) h₀
  · exact exec_blockTrack h hc hp ha (by simpa [SectionData.clearings, hr] using hd)
  · rintro n rfl hb hp hr
    cases h
    rw [commit_lever] at hr
    exact (commit_spent s _ x).2 (.inr ⟨n, arrivalAtR_spends hb hp hr⟩)
  · obtain hs | ⟨hi, h₀, h₁⟩ := exec_spent h hs hb
    · exact .inl hs
    · obtain ⟨-, ho, hcl, -⟩ := hrelease h₀ h₁
      exact .inr ⟨hi, ho, hcl⟩

end Sys2Proof.Machine

/-! ### The lever frame: grips, strokes, arrivals, limits and releases -/

namespace Sys2Proof.Machine

/-- The Locking unit's tests and the Lever Frame unit's clocks do not read the events waiting for the levers. -/
theorem setInbox_frame_freedomTest (s : State) (rest : List (Lever × LeverEvent)) (n : Lever) :
    (s.setInbox { s.inbox with frame := rest }).freedomTest n = s.freedomTest n := rfl

section
variable {n : Lever} {s : State}

theorem takeGrip_ignored (h : (s.lever n).loaded = false ∨ s.service.state = .configure) : takeGrip n s = s := by
  unfold takeGrip
  obtain h | h := h <;> simp [h]

theorem takeGrip_switchedOut (hl : (s.lever n).loaded = true) (h : s.service.state = .switchedOut) :
    (takeGrip n s).lever n = (s.lever n).refuse := by
  simp [takeGrip, hl, h]

theorem takeGrip_inService (hl : (s.lever n).loaded = true) (h : s.service.state = .inService) :
    takeGrip n s = gripInService n s := by
  simp [takeGrip, hl, h]

/-- The states in which a grip in service requests freedom. -/
def LeverData.asksFreedom (l : LeverData) : Prop :=
  l.pos = .nLocked ∨ l.pos = .rLocked ∨ (l.pos = .travel ∧ l.lock = false)

/-- A request for freedom is granted where the lever is not SPARE and its test passes. -/
theorem gripInService_asks (h : (s.lever n).asksFreedom) : (gripInService n s).lever n =
    if (s.lever n).isSpare = false ∧ s.freedomTest n = true then (s.lever n).free s.travelLimit
    else (s.lever n).refuse := by
  have ha : gripInService n s = if (s.lever n).isSpare then s.setLever n (s.lever n).refuse else requestFreedom n s := by
    obtain hp | hp | ⟨hp, hk⟩ := h <;> simp [gripInService, hp]
    simp [hk]
  rw [ha, requestFreedom]
  cases (s.lever n).isSpare <;> cases s.freedomTest n <;> simp

theorem gripInService_fault (h : (s.lever n).pos = .fault) : (gripInService n s).lever n = (s.lever n).refuse := by
  simp [gripInService, h]

theorem gripInService_elsewhere (h : ((s.lever n).pos = .travel ∧ (s.lever n).lock = true) ∨
    (s.lever n).pos = .backlocked ∨ (s.lever n).pos = .nFree ∨ (s.lever n).pos = .rFree) : gripInService n s = s := by
  obtain ⟨hp, hk⟩ | hp | hp | hp := h <;> simp [gripInService, hp]
  simp [hk]

end

/-- Settles O9: by the service state, and in service by the lever's state and the answer to its request. -/
theorem gripFreesOrIsRefused : Obligations.GripFreesOrIsRefused := by
  intro n s hw hv
  obtain ⟨rest, hr⟩ := leverStep_of_waits (takeGrip n) hw hv
  refine ⟨_, rfl, ?_⟩
  simp only [commit_lever, hr]
  have hlever : ∀ m, (s.setInbox { s.inbox with frame := rest }).lever m = s.lever m := fun _ => rfl
  have htest := setInbox_frame_freedomTest s rest n
  have hlimit : (s.setInbox { s.inbox with frame := rest }).travelLimit = s.now + s.times.travel * 1000 := rfl
  have hservice : (s.setInbox { s.inbox with frame := rest }).service = s.service := rfl
  generalize s.setInbox { s.inbox with frame := rest } = u at hlever htest hlimit hservice
  rw [← hlever n, ← htest, ← hservice]
  have hasks : (u.lever n).asksFreedom → (gripInService n u).lever n =
      if (u.lever n).isSpare = false ∧ u.freedomTest n = true then (u.lever n).free (s.now + s.times.travel * 1000)
      else (u.lever n).refuse := fun h => hlimit ▸ gripInService_asks h
  refine ⟨fun h => by rw [takeGrip_ignored h], takeGrip_switchedOut, fun hl hs => ?_⟩
  rw [takeGrip_inService hl hs]
  refine ⟨fun hp hpass => ?_, fun hp hpass => ?_, fun hp hk hpass => ?_, fun h hpass => ?_, gripInService_fault,
    fun h => by rw [gripInService_elsewhere h]⟩
  · rw [hasks (.inl hp), if_pos hpass]
    simp [LeverData.free, hp, LeverData.enter]
  · rw [hasks (.inr (.inl hp)), if_pos hpass]
    simp [LeverData.free, hp, LeverData.enter]
  · rw [hasks (.inr (.inr ⟨hp, hk⟩)), if_pos hpass]
    simp [LeverData.free, hp, LeverData.grantTravel, LeverData.enter]
  · rw [hasks h, if_neg hpass]
    rfl

/-- Settles O10: a free lever is relocked at its end, any other keeps its state and lock. -/
theorem gripEndLocksAFreeLever : Obligations.GripEndLocksAFreeLever := by
  intro n s hw hv
  obtain ⟨rest, hr⟩ := leverStep_of_waits (takeGripEnd n) hw hv
  refine ⟨_, rfl, ?_⟩
  simp only [commit_lever, hr, takeGripEnd, State.lever_setLever, if_true, State.setInbox_lever]
  refine ⟨fun hp => ?_, fun hp => ?_, fun hn hr => ?_⟩
  · simp [LeverData.relock, hp, LeverData.enter]
  · simp [LeverData.relock, hp, LeverData.enter]
  · have : (s.lever n).relock = s.lever n := by
      unfold LeverData.relock
      split <;> simp_all
    rw [this]

/-! The entries of a step that leaves the sections and the Service controller as they were are those of its own part. -/

theorem commit_entries_of_leaves {ps : List Part} {s u : State} (h : Leaves ps s u) (hx : ∀ x, .section_ x ∉ ps)
    (hv : .serviceState ∉ ps) (hb : .boxSwitch ∉ ps) : (commit s u).inbox.entries = u.inbox.entries := by
  have hs : ∀ x, u.section_ x = s.section_ x := fun x => h (.section_ x) (hx x)
  have hst : u.service.state = s.service.state := h .serviceState hv
  have hpos : u.service.position = s.service.position ∧ u.service.refusal = s.service.refusal := h .boxSwitch hb
  rw [commit_entries]
  have hd : disagreeFor s u = [] := by
    simp [disagreeFor, hs]
  have hbx : boxDisagreeFor s u = [] := by
    have : u.service.disagree = s.service.disagree := by simp only [ServiceUnit.disagree, hst, hpos.1]
    simp [boxDisagreeFor, this]
  simp [hd, hbx]

/-- The entries after a lever's step are those of the lever's own part. -/
theorem leverStep_entries {n : Lever} {e : LeverEvent} {f : State → State} {s : State} {ps : List Part}
    (hf : ∀ t, Leaves ps t (f t)) (hx : ∀ x, .section_ x ∉ ps) (hv : .serviceState ∉ ps) (hb : .boxSwitch ∉ ps) :
    (commit s (leverStep n e f s)).inbox.entries = (leverStep n e f s).inbox.entries :=
  commit_entries_of_leaves (ps := .frame :: ps) (Leaves.leverStep s (by simp) fun t => (hf t).mono (by simp))
    (by simp [hx]) (by simp [hv]) (by simp [hb])

section
variable {n : Lever} {s : State}

/-- What a move against the lock makes of a lever, forced where the box is worked. -/
theorem forceOut_worked (hw : s.working = true) (hl : (s.lever n).loaded = true) :
    (forceOut n s).lever n = { (s.lever n).caught .travel with forced := true } ∧
      (forceOut n s).inbox.entries = s.inbox.entries ++ [(.leverFrame, .lever n .forced)] := by
  have hc : ((s.lever n).caught .travel).loaded = true := hl
  have he : forceOut n s =
      (s.setLever n { (s.lever n).caught .travel with forced := true }).enter .leverFrame (.lever n .forced) := by
    simp [forceOut, hw, hc]
  rw [he]
  exact ⟨by simp, rfl⟩

theorem forceOut_unworked (h : ¬(s.working = true ∧ (s.lever n).loaded = true)) :
    (forceOut n s).lever n = (s.lever n).caught .travel ∧ (forceOut n s).inbox.entries = s.inbox.entries := by
  have hc : (s.working && ((s.lever n).caught .travel).loaded) = false := by
    rw [show ((s.lever n).caught .travel).loaded = (s.lever n).loaded from rfl]
    simpa using h
  have he : forceOut n s = s.setLever n ((s.lever n).caught .travel) := by
    simp [forceOut, hc]
  rw [he]
  exact ⟨by simp, rfl⟩

theorem working_iff : s.working = true ↔ s.service.state = .inService ∨ s.service.state = .switchedOut := by
  simp [State.working, State.isIn]

/-- The back-lock decision of a free signal at R (R36). -/
theorem leaveR_free {a : Approach} (hp : (s.lever n).pos = .rFree) (ha : (s.lever n).approach = some a) :
    (s.approachFree a = true → (leaveR n s).lever n = (s.lever n).grantTravel s.travelLimit) ∧
    (s.approachFree a = false → (leaveR n s).lever n =
      { (s.lever n).caught .backlocked with backlock := .timing (s.now + a.time * 1000) }) := by
  constructor <;> intro hf <;> simp [leaveR, hp, ha, hf, backLock]

/-- What an arrival at an end makes of a lever. -/
theorem arrive_spec (n : Lever) (pos : LeverPos) (s : State) :
    ((s.lever n).pos = .travel → (arrive n pos s).lever n = { (s.lever n).caught pos with stalled := false } ∧
      (arrive n pos s).inbox.entries = s.inbox.entries) ∧
    ((s.lever n).pos = .backlocked →
      (arrive n pos s).lever n = { (s.lever n).caught pos with forced := true, stalled := false, backlock := .idle } ∧
      (arrive n pos s).inbox.entries = s.inbox.entries ++ [(.leverFrame, .lever n .forced)]) ∧
    ((s.lever n).pos = .fault → (arrive n pos s).lever n = (s.lever n).caught pos ∧
      (arrive n pos s).inbox.entries = s.inbox.entries) := by
  refine ⟨fun h => ?_, fun h => ?_, fun h => ?_⟩ <;> simp only [arrive, h] <;> exact ⟨by simp, rfl⟩

end

/-- Settles O11: by the state the lever leaves from, the moves of `leaveN` and `leaveR`. -/
theorem leavingAnEnd : Obligations.LeavingAnEnd := by
  intro n s hv
  refine ⟨fun hw => ?_, fun hw => ?_⟩
  · obtain ⟨rest, hr⟩ := leverStep_of_waits (leaveN n) hw hv
    refine ⟨_, rfl, ?_⟩
    rw [leverStep_entries (leaveN_leaves n) (by simp) (by simp) (by simp)]
    simp only [commit_lever, hr]
    have hu : ∀ u : State, u = s.setInbox { s.inbox with frame := rest } → u.lever n = s.lever n ∧
      u.inbox.entries = s.inbox.entries ∧ u.travelLimit = s.now + s.times.travel * 1000 ∧ u.service = s.service := by
      rintro u rfl
      exact ⟨rfl, rfl, rfl, rfl⟩
    obtain ⟨hl, he, hlim, hs⟩ := hu _ rfl
    generalize s.setInbox { s.inbox with frame := rest } = u at hl he hlim hs
    rw [← hl, ← he, ← hs, ← working_iff]
    refine ⟨fun hp => ?_, fun hp ⟨hwk, hld⟩ => ?_, fun hp hwk => ?_⟩
    · simp only [leaveN, hp, hlim, State.lever_setLever, if_true]
      exact ⟨rfl, rfl⟩
    · simp only [leaveN, hp]
      exact forceOut_worked hwk hld
    · simp only [leaveN, hp]
      exact forceOut_unworked hwk
  · obtain ⟨rest, hr⟩ := leverStep_of_waits (leaveR n) hw hv
    refine ⟨_, rfl, ?_⟩
    rw [leverStep_entries (leaveR_leaves n) (by simp) (by simp) (by simp)]
    simp only [commit_lever, hr]
    have hu : ∀ u : State, u = s.setInbox { s.inbox with frame := rest } → u.lever n = s.lever n ∧
      u.inbox.entries = s.inbox.entries ∧ u.travelLimit = s.now + s.times.travel * 1000 ∧ u.service = s.service ∧
      u.now = s.now ∧ u.lockTrack = s.lockTrack ∧ u.lockSec = s.lockSec := by
      rintro u rfl
      exact ⟨rfl, rfl, rfl, rfl, rfl, rfl, rfl⟩
    obtain ⟨hl, he, hlim, hs, hnow, hlt, hls⟩ := hu _ rfl
    generalize s.setInbox { s.inbox with frame := rest } = u at hl he hlim hs hnow hlt hls
    rw [← hl, ← he, ← hs, ← hlt, ← hls, ← working_iff]
    refine ⟨fun hp ha => ?_, fun a hp ha => ⟨fun hc hx => ?_, fun hne => ?_⟩, fun hp ⟨hwk, hld⟩ => ?_, fun hp hwk => ?_⟩
    · simp only [leaveR, hp, ha, hlim, State.lever_setLever, if_true]
      rfl
    · rw [(leaveR_free hp ha).1 ((approachFree_iff u a).2 ⟨hc, hx⟩), hlim]
      rfl
    · have hf : u.approachFree a = false := by
        rw [← Bool.not_eq_true, approachFree_iff]
        rintro ⟨hc, hx⟩
        obtain ⟨c, hm, hnc⟩ | ⟨x, hax, hin⟩ := hne
        · exact hnc (hc c hm)
        · exact hx x hax hin
      rw [(leaveR_free hp ha).2 hf, hnow]
      rfl
    · simp only [leaveR, hp]
      exact forceOut_worked hwk hld
    · simp only [leaveR, hp]
      exact forceOut_unworked hwk

theorem arriveR_entries (n : Lever) (s : State) : (arriveR n s).inbox.entries = (arrive n .rLocked s).inbox.entries := by
  simp only [arriveR]
  split <;> rfl

/-- An arrival at R out of a state a lever can arrive from is handed on where the lever is under block control. -/
theorem arriveR_atR {n : Lever} {s : State} (h : (s.lever n).pos.canArrive = true) :
    (∀ x, (s.lever n).blockControl = some x → (arriveR n s).inbox.atR = s.inbox.atR ++ [n]) ∧
    ((s.lever n).blockControl = none → (arriveR n s).inbox.atR = s.inbox.atR) := by
  have ha : (arrive n .rLocked s).inbox.atR = s.inbox.atR := arrive_leaves n s .rLocked .atR (by simp)
  constructor
  · intro x hx
    simp [arriveR, h, hx, ha]
  · intro hx
    simp [arriveR, hx, ha]

/-- Both contacts made lead to FAULT, entered for a lever with a record. -/
theorem takeBothMade_spec (n : Lever) (s : State) :
    (takeBothMade n s).lever n = { (s.lever n).caught .fault with backlock := .idle } ∧
    ((s.lever n).loaded = true → (takeBothMade n s).inbox.entries = s.inbox.entries ++ [(.leverFrame, .lever n .fault)]) ∧
    ((s.lever n).loaded = false → (takeBothMade n s).inbox.entries = s.inbox.entries) := by
  have hl : ({ (s.lever n).caught .fault with backlock := .idle } : LeverData).loaded = (s.lever n).loaded := rfl
  simp only [takeBothMade, hl]
  split
  · exact ⟨by simp, fun _ => rfl, fun h => by simp_all⟩
  · exact ⟨by simp, fun h => by simp_all, fun _ => rfl⟩

theorem takeBothBreak_fault {n : Lever} {s : State} (h : (s.lever n).pos = .fault) :
    (takeBothBreak n s).lever n = (s.lever n).caught .travel ∧ (takeBothBreak n s).inbox.entries = s.inbox.entries := by
  simp only [takeBothBreak, h]
  exact ⟨by simp, rfl⟩

/-- Settles O12: what an arrival makes of a lever by the state it arrives from, FAULT and the leaving of it. -/
theorem arrivalsAndFaults : Obligations.ArrivalsAndFaults := by
  intro n s hv
  have hu : ∀ rest, (s.setInbox { s.inbox with frame := rest }).lever n = s.lever n ∧
      (s.setInbox { s.inbox with frame := rest }).inbox.entries = s.inbox.entries ∧
      (s.setInbox { s.inbox with frame := rest }).inbox.atR = s.inbox.atR := fun _ => ⟨rfl, rfl, rfl⟩
  refine ⟨fun hw => ?_, fun hw => ?_, fun hw => ?_, fun hw hp => ?_⟩
  · obtain ⟨rest, hr⟩ := leverStep_of_waits (arrive n .nLocked) hw hv
    refine ⟨_, rfl, ?_⟩
    dsimp only
    rw [leverStep_entries (fun t => arrive_leaves n t .nLocked) (by simp) (by simp) (by simp)]
    simp only [commit_lever, hr]
    obtain ⟨hl, he, -⟩ := hu rest
    rw [← hl, ← he]
    exact arrive_spec n .nLocked _
  · obtain ⟨rest, hr⟩ := leverStep_of_waits (arriveR n) hw hv
    refine ⟨_, rfl, ?_⟩
    dsimp only
    rw [leverStep_entries (arriveR_leaves n) (by simp) (by simp) (by simp)]
    simp only [commit_lever, commit_inbox_atR, hr, arriveR_lever, arriveR_entries]
    obtain ⟨hl, he, ha⟩ := hu rest
    rw [← hl, ← he, ← ha]
    refine ⟨arrive_spec n .rLocked _, fun hp => arriveR_atR ?_⟩
    obtain hp | hp | hp := hp <;> rw [hp] <;> rfl
  · obtain ⟨rest, hr⟩ := leverStep_of_waits (takeBothMade n) hw hv
    refine ⟨_, rfl, ?_⟩
    rw [leverStep_entries (takeBothMade_leaves n) (by simp) (by simp) (by simp)]
    simp only [commit_lever, hr]
    obtain ⟨hl, he, -⟩ := hu rest
    rw [← hl, ← he]
    exact takeBothMade_spec n _
  · obtain ⟨rest, hr⟩ := leverStep_of_waits (takeBothBreak n) hw hv
    refine ⟨_, rfl, ?_⟩
    rw [leverStep_entries (takeBothBreak_leaves n) (by simp) (by simp) (by simp)]
    simp only [commit_lever, hr]
    obtain ⟨hl, he, -⟩ := hu rest
    rw [← hl] at hp
    rw [← hl, ← he]
    exact takeBothBreak_fault hp

/-! What reaches a lever without its contacts. -/

section
variable {n : Lever} {s : State}

theorem takeDemand_lever (n : Lever) (s : State) : (takeDemand n s).lever n =
    if (s.lever n).pos.isFree then { (s.lever n).relock with refused := true } else s.lever n := by
  simp only [takeDemand]
  split <;> simp

theorem takeBackRelease_lever (n : Lever) (s : State) : (takeBackRelease n s).lever n =
    if (s.lever n).pos = .backlocked ∧ (s.lever n).backlock = .due ∧ s.tableTest n = true then
      { (s.lever n).grantTravel s.travelLimit with backlock := .idle } else s.lever n := by
  simp only [takeBackRelease, Bool.and_eq_true, decide_eq_true_eq, and_assoc]
  split <;> simp

theorem freedomWithdrawn_lever (h : n ∈ s.inbox.demands) : (freedomWithdrawn n s).lever n =
    if (s.lever n).pos.isFree then { (s.lever n).relock with refused := true } else s.lever n := by
  obtain ⟨rest, ht⟩ := takeFirst_of_mem h
  simp only [freedomWithdrawn, ht]
  exact takeDemand_lever n _

theorem backLockRelease_lever (h : n ∈ s.inbox.backReleases) : (backLockRelease n s).lever n =
    if (s.lever n).pos = .backlocked ∧ (s.lever n).backlock = .due ∧ s.tableTest n = true then
      { (s.lever n).grantTravel s.travelLimit with backlock := .idle } else s.lever n := by
  obtain ⟨rest, ht⟩ := takeFirst_of_mem h
  simp only [backLockRelease, ht]
  exact takeBackRelease_lever n _

/-- The expiry of a travel limit in granted travel. -/
theorem travelLimitExpiry_spec {d : Nat} (hp : (s.lever n).pos = .travel) (hk : (s.lever n).lock = true)
    (hd : (s.lever n).limit = some d) :
    (d ≤ s.now → (travelLimitExpiry n s).lever n = { (s.lever n).caught .travel with stalled := true } ∧
      (travelLimitExpiry n s).inbox.entries = s.inbox.entries ++ [(.leverFrame, .lever n .stalled)]) ∧
    (s.now < d → travelLimitExpiry n s = s) := by
  have hover : s.limitOver n = decide (d ≤ s.now) := by
    simp [State.limitOver, hd, LeverData.granted, hp, hk]
  constructor
  · intro h
    simp only [travelLimitExpiry, hover, h, decide_true, if_true]
    exact ⟨by simp, rfl⟩
  · intro h
    simp [travelLimitExpiry, hover, Nat.not_le.2 h]

/-- The expiry of a time release. -/
theorem timeReleaseExpiry_timing {d : Nat} (hb : (s.lever n).backlock = .timing d) :
    (d ≤ s.now → timeReleaseExpiry n s = becomeDue n s) ∧ (s.now < d → timeReleaseExpiry n s = s) := by
  constructor <;> intro h
  · simp [timeReleaseExpiry, hb, h]
  · simp [timeReleaseExpiry, hb, Nat.not_le.2 h]

end

/-- Settles O13: a demand, the two expiries and the release, each by the state it finds the lever in. -/
theorem withdrawalLimitsAndReleases : Obligations.WithdrawalLimitsAndReleases := by
  intro n s
  refine ⟨fun hm => ⟨_, rfl, ?_⟩, fun d hp hk hd => ⟨_, rfl, ?_⟩, fun d hb => ⟨_, rfl, ?_⟩, fun hm => ⟨_, rfl, ?_⟩⟩
  · simp only [commit_lever, freedomWithdrawn_lever hm]
    refine ⟨fun hp => ?_, fun hp => ?_, fun hn hr => ?_⟩
    · simp [hp, LeverPos.isFree, LeverData.relock, LeverData.enter]
    · simp [hp, LeverPos.isFree, LeverData.relock, LeverData.enter]
    · have : (s.lever n).pos.isFree = false := by
        cases hp : (s.lever n).pos <;> simp_all [LeverPos.isFree]
      simp [this]
  · obtain ⟨hover, hstill⟩ := travelLimitExpiry_spec hp hk hd
    rw [commit_lever, commit_entries_of_leaves (travelLimitExpiry_leaves n s) (by simp) (by simp) (by simp)]
    refine ⟨fun h => ?_, fun h => by rw [hstill h]; exact ⟨rfl, rfl⟩⟩
    obtain ⟨hl, he⟩ := hover h
    exact ⟨by simp [hl, LeverData.caught, LeverData.enter, hp], he⟩
  · obtain ⟨hdue, hstill⟩ := timeReleaseExpiry_timing hb
    rw [commit_lever, commit_inbox_backReleases]
    refine ⟨fun h => ?_, fun h => by rw [hstill h]⟩
    rw [hdue h]
    exact ⟨by simp [becomeDue_lever], fun ht => (mem_becomeDue n n s).2 (.inr ⟨rfl, ht⟩)⟩
  · simp only [commit_lever, backLockRelease_lever hm]
    refine ⟨fun hp hb ht => ?_, fun h => if_neg ?_⟩
    · rw [if_pos ⟨hp, hb, ht⟩]
      rfl
    · rintro ⟨hp, hb, ht⟩
      obtain h | h | h := h
      · exact h hp
      · exact h hb
      · simp [ht] at h

end Sys2Proof.Machine

/-! ### Reset, initialisation and the debouncing of the contacts -/

namespace Sys2Proof.Machine

/-! #### The contacts by name -/

@[simp] theorem contact_leverN (k : Contacts) (n : Lever) : k.contact (.leverN n) = k.levers[n].n := rfl
@[simp] theorem contact_leverR (k : Contacts) (n : Lever) : k.contact (.leverR n) = k.levers[n].r := rfl
@[simp] theorem contact_leverH (k : Contacts) (n : Lever) : k.contact (.leverH n) = k.levers[n].h := rfl
@[simp] theorem contact_proving (k : Contacts) (g : Input) : k.contact (.proving g) = k.proving[g] := rfl
@[simp] theorem contact_switchLC (k : Contacts) (x : Sec) : k.contact (.switchLC x) = (k.switches.get x).lc := rfl
@[simp] theorem contact_switchTOL (k : Contacts) (x : Sec) : k.contact (.switchTOL x) = (k.switches.get x).tol := rfl
@[simp] theorem contact_tapper (k : Contacts) (x : Sec) : k.contact (.tapper x) = k.tappers.get x := rfl
@[simp] theorem contact_plunger (k : Contacts) (x : Sec) : k.contact (.plunger x) = k.plungers.get x := rfl
@[simp] theorem contact_box (k : Contacts) : k.contact .box = k.box := rfl

/-- Each contact of the matrix is scanned by itself. -/
theorem scan_contact (k : Contacts) (made : List Contact) (c : Contact) :
    (k.scan made).contact c = (k.contact c).scan (decide (c ∈ made)) := by
  cases c with
  | leverN n | leverR n | leverH n | proving n => simp [Contacts.scan]
  | switchLC x | switchTOL x | tapper x | plunger x => cases x <;> rfl
  | box => rfl

/-- Every contact has its first reading exactly when none is without one. -/
theorem established_iff (k : Contacts) : k.established = true ↔ ∀ c, (k.contact c).reading ≠ none := by
  have hsome : ∀ o : Option Bool, o.isSome = true ↔ o ≠ none := fun o => Option.isSome_iff_ne_none
  simp only [Contacts.established, Bool.and_eq_true, List.all_eq_true, allLevers, allInputs, allSections,
    List.mem_finRange, hsome, forall_const]
  constructor
  · rintro ⟨⟨⟨hl, hp⟩, hx⟩, hb⟩ c
    cases c with
    | leverN n => exact (hl n).1.1
    | leverR n => exact (hl n).1.2
    | leverH n => exact (hl n).2
    | proving g => exact hp g
    | switchLC x => exact (hx x (by cases x <;> simp)).1.1.1
    | switchTOL x => exact (hx x (by cases x <;> simp)).1.1.2
    | tapper x => exact (hx x (by cases x <;> simp)).1.2
    | plunger x => exact (hx x (by cases x <;> simp)).2
    | box => exact hb
  · intro h
    exact ⟨⟨⟨fun n => ⟨⟨h (.leverN n), h (.leverR n)⟩, h (.leverH n)⟩, fun g => h (.proving g)⟩,
      fun x _ => ⟨⟨⟨h (.switchLC x), h (.switchTOL x)⟩, h (.tapper x)⟩, h (.plunger x)⟩⟩, h .box⟩

/-! #### Initialisation -/

theorem completeInit_ready {s : State} (hv : s.service.state = .powerUp) (hh : s.resetHeld = false)
    (hc : ∀ c, (s.contacts.contact c).reading ≠ none) : completeInit s = initialise s := by
  simp [completeInit, State.isIn, hv, hh, (established_iff s.contacts).2 hc]

theorem completeInit_waits {s : State} (h : s.resetHeld = true ∨ ∃ c, (s.contacts.contact c).reading = none) :
    completeInit s = s := by
  obtain h | ⟨c, hc⟩ := h
  · simp [completeInit, h]
  · have : s.contacts.established = false := by
      rw [← Bool.not_eq_true, established_iff]
      exact fun hall => hall c hc
    simp [completeInit, this]

theorem initialise_lever (s : State) (n : Lever) : (initialise s).lever n = (s.lever n).settle s.contacts.levers[n] := by
  simp [initialise, State.lever]

theorem initialise_section (s : State) (x : Sec) : (initialise s).section_ x = s.section_ x := by
  simp [initialise, State.section_]

/-- A contact with a reading is made exactly when it reads made. -/
theorem made_iff (k : ContactState) : k.made = true ↔ k.reading = some true := by
  unfold ContactState.made
  cases k.reading with
  | none => simp
  | some b => cases b <;> simp

/-- Settles O6: the part enters CONFIGURE when every contact is established and the pin is not held, each lever read from
its two contacts. -/
theorem initialisationReadsTheContacts : Obligations.InitialisationReadsTheContacts := by
  intro s hv
  refine ⟨fun h => ⟨_, rfl, ?_⟩, fun hh hc => ⟨_, rfl, ?_⟩⟩
  · rw [completeInit_waits h]
    exact ⟨hv, fun n => commit_lever s s n⟩
  · rw [completeInit_ready hv hh hc]
    simp only [commit_service, commit_diagram_idleFrom, commit_section, commit_lever, initialise_lever]
    refine ⟨rfl, rfl, rfl, initialise_section s, fun n => ?_⟩
    simp only [contact_leverN, contact_leverR, ← made_iff, LeverData.settle]
    refine ⟨fun hn hr => ?_, fun hn hr => ?_, fun hn hr => ?_, fun hn hr => ?_⟩ <;>
      simp_all [posOfContacts, LeverPos.freshEnd]

/-! #### Debouncing -/

/-- The count of a contact with a reading, by whether the scan senses it. -/
theorem scan_of_reading {a : ContactState} {r : Bool} (h : a.reading = some r) (v : Bool) :
    (v = r → (a.scan v).reading = some r ∧ (a.scan v).count = 0) ∧
    (v ≠ r → a.count < 2 → (a.scan v).reading = some r ∧ (a.scan v).count = a.count + 1) ∧
    (v ≠ r → a.count = 2 → (a.scan v).reading = some v ∧ (a.scan v).count = 0) := by
  refine ⟨fun hv => ?_, fun hv hc => ?_, fun hv hc => ?_⟩
  · simp [ContactState.scan, h, hv]
  · simp [ContactState.scan, h, hv, show a.count ≠ 2 by omega]
  · simp [ContactState.scan, h, hv, hc]

/-- The count before a first reading, by whether the scan agrees with those counted. -/
theorem scan_of_none {a : ContactState} (h : a.reading = none) (v : Bool) :
    (a.count = 0 → (a.scan v).reading = none ∧ (a.scan v).seen = v ∧ (a.scan v).count = 1) ∧
    (0 < a.count → v ≠ a.seen → (a.scan v).reading = none ∧ (a.scan v).seen = v ∧ (a.scan v).count = 1) ∧
    (a.count = 1 → v = a.seen → (a.scan v).reading = none ∧ (a.scan v).seen = v ∧ (a.scan v).count = 2) ∧
    (a.count = 2 → v = a.seen → (a.scan v).reading = some v) := by
  refine ⟨fun hc => ?_, fun hc hv => ?_, fun hc hv => ?_, fun hc hv => ?_⟩
  · simp [ContactState.scan, h, hc]
  · simp [ContactState.scan, h, hv, show a.count ≠ 0 by omega]
  · simp [ContactState.scan, h, hv, hc]
  · simp [ContactState.scan, h, hv, hc]

theorem scanContacts_contacts {s : State} (made : List Contact) (h : s.resetHeld = false) :
    (scanContacts made s).contacts = s.contacts.scan made := by
  simp [scanContacts, h, takePositions]

/-- Settles O7: each contact is scanned by itself, with or without a reading. -/
theorem debounceTakesThreeScans : Obligations.DebounceTakesThreeScans := by
  intro made s h
  refine ⟨_, rfl, fun c => ?_⟩
  simp only [commit_contacts, scanContacts_contacts made h, scan_contact]
  exact ⟨fun r hr => scan_of_reading hr _, fun hn => scan_of_none hn _⟩

end Sys2Proof.Machine


/-! ### The state right after reset -/

namespace Sys2Proof.Machine

section

@[simp] theorem reset_lever_eq (n : Lever) : State.reset.lever n = .reset := by
  simp [State.reset, State.lever]

@[simp] theorem reset_circuit_eq (c : Circuit) : State.reset.circuit c = .reset := by
  simp [State.reset, State.circuit, TrackUnit.reset]

@[simp] theorem reset_section_eq (x : Sec) : State.reset.section_ x = .reset := by
  cases x <;> rfl

@[simp] theorem reset_port_eq (p : Sec) : State.reset.port p = .reset := by
  cases p <;> rfl

theorem reset_contact (c : Contact) : (State.reset.contacts.contact c).reading = none := by
  cases c with
  | leverN n | leverR n | leverH n | proving n => simp [State.reset, Contacts.reset, Contacts.contact, ContactState.reset]
  | switchLC x | switchTOL x | tapper x | plunger x => cases x <;> rfl
  | box => rfl

theorem reset_memory (p : Sec) : State.reset.memory p = ⟨none, none, none, none⟩ := by
  cases p <;> rfl

theorem reset_outputs : State.reset.outputs = Outputs.cleared := by
  simp only [State.outputs, Outputs.cleared, reset_lever_eq, reset_circuit_eq, reset_section_eq, reset_port_eq]
  congr 1

end

theorem reset_leversOk : State.reset.leversOk := by
  intro n
  rw [leverOk_iff, reset_lever_eq]
  exact LeverData.okIn_of_off rfl rfl rfl rfl (by simp [LeverData.reset]) _

theorem reset_sectionsOk : State.reset.sectionsOk := by
  refine ⟨fun x => ⟨?_, ?_⟩, ?_, by decide⟩
  · rw [reset_section_eq]
    simp [SectionData.ok, SectionData.reset, driveOf, SecState.holdsNone]
  · rw [State.sectionFits, reset_section_eq]
    rfl
  · intro h
    obtain h | h := h <;> cases h

theorem reset_portsOk : State.reset.portsOk := by
  intro p
  rw [reset_port_eq]
  simp [PortData.ok, PortData.reset]

theorem reset_trackOk : State.reset.trackOk := by
  refine ⟨by decide, by simp [State.reset, TrackUnit.reset], fun c => ?_⟩
  rw [reset_circuit_eq]
  simp [CircuitData.reset]

theorem reset_registerOk : State.reset.registerOk := by
  refine ⟨⟨by decide, trivial, by decide, by decide⟩, ?_⟩
  simp [Link.ok, State.reset, Link.reset]

/-- Settles O56: each invariant of the values after reset. -/
theorem invariantsHoldAtReset : Obligations.InvariantsHoldAtReset :=
  ⟨reset_leversOk, reset_sectionsOk, reset_portsOk, reset_trackOk, reset_registerOk⟩

/-! #### The reset pin and RESTART -/

theorem powerUp_outputs (held : Bool) (strap : Fin 4) (s : State) : (powerUp held strap s).outputs = Outputs.cleared :=
  reset_outputs

theorem powerUp_lampLines (held : Bool) (strap : Fin 4) (s : State) (tick : Nat) :
    (powerUp held strap s).lampLines tick = LampLines.off := rfl

/-- RESTART ends the service when the time of its reply's line has passed. -/
theorem execRestartPowerUp_over {s : State} {k : Sending} (hr : s.link.restart = .replySending)
    (hk : s.link.sending = some k) (strap : Fin 4) :
    (k.line.length * 1000 ≤ (s.now - k.since) * 5760 →
      exec (.restartPowerUp strap) s = .next (powerUp false strap s)) ∧
    ((s.now - k.since) * 5760 < k.line.length * 1000 → exec (.restartPowerUp strap) s = .next s) := by
  have he : exec (.restartPowerUp strap) s = .next (if restartEnds s then powerUp false strap s else s) := rfl
  rw [he]
  constructor <;> intro h
  · have : restartEnds s = true := by simp [restartEnds, hr, hk, lineOver, h]
    rw [if_pos this]
  · have : restartEnds s = false := by simp [restartEnds, hr, hk, lineOver, h]
    rw [if_neg (by simp [this])]

/-- Settles O5: the values after reset, unit by unit, and the three ways a state is reset or its hold ended. -/
theorem resetEntersPowerUp : Obligations.ResetEntersPowerUp := by
  refine ⟨⟨rfl, reset_outputs, reset_contact, fun n => ?_, rfl, fun c => ?_, rfl, rfl, rfl, rfl, rfl, rfl, fun p => ?_,
    rfl, fun x => ?_, rfl, rfl, rfl, rfl, reset_memory, rfl, rfl, rfl, rfl, rfl, rfl, rfl, rfl, rfl, rfl, rfl, rfl, rfl, rfl,
    rfl, rfl, rfl, rfl, rfl, rfl, rfl, rfl, rfl, fun tick => rfl, rfl, rfl⟩, fun s strap => ⟨?_, fun k hr hk => ⟨fun h => ?_, ?_⟩, ?_⟩⟩
  · rw [reset_lever_eq]
    exact ⟨rfl, rfl, rfl, rfl, rfl, rfl, rfl⟩
  · rw [reset_circuit_eq]
    exact ⟨rfl, rfl, rfl, rfl, rfl⟩
  · rw [reset_port_eq]
    exact ⟨rfl, rfl, rfl, rfl, rfl, rfl, rfl, rfl, rfl⟩
  · rw [reset_section_eq]
    exact ⟨rfl, rfl, rfl, rfl, rfl, rfl, rfl, rfl, rfl, rfl, rfl, rfl⟩
  · exact ⟨_, rfl, powerUp_outputs true strap s, powerUp_lampLines true strap s, rfl⟩
  · exact ⟨_, (execRestartPowerUp_over hr hk strap).1 h, powerUp_outputs false strap s,
      powerUp_lampLines false strap s, rfl⟩
  · exact (execRestartPowerUp_over hr hk strap).2
  · exact ⟨_, rfl, rfl⟩

end Sys2Proof.Machine


/-! ### What a scan hands on -/

namespace Sys2Proof.Machine

/-! #### Lists with a part for each of some tags -/

section
variable {α β : Type} [DecidableEq α]

theorem flatMap_of_only {l : List α} (hl : l.Nodup) {a : α} (ha : a ∈ l) {f : α → List β} (hf : ∀ b, b ≠ a → f b = []) :
    l.flatMap f = f a := by
  induction l with
  | nil => cases ha
  | cons b l ih =>
    obtain ⟨hb, hl⟩ := List.nodup_cons.1 hl
    by_cases hab : b = a
    · subst hab
      have : l.flatMap f = [] := List.flatMap_eq_nil_iff.2 fun c hc => hf c fun h => hb (h ▸ hc)
      simp [this]
    · simp [hf b hab, ih hl ((List.mem_cons.1 ha).resolve_left fun h => hab h.symm)]

/-- Of the events handed on for each of some tags, those of one tag. -/
theorem filter_tagged {l : List α} (hl : l.Nodup) {a : α} (ha : a ∈ l) (f : α → List β) :
    (l.flatMap fun b => (f b).map (b, ·)).filter (fun h => decide (h.1 = a)) = (f a).map (a, ·) := by
  rw [List.filter_flatMap, flatMap_of_only hl ha]
  · simp [List.filter_map, Function.comp_def]
  · intro b hb
    simp [List.filter_map, Function.comp_def, hb]

theorem filter_filter_eq {l : List α} (hl : l.Nodup) {a : α} (ha : a ∈ l) (p : α → Bool) :
    (l.filter p).filter (fun b => decide (b = a)) = if p a then [a] else [] := by
  rw [List.filter_eq, (hl.filter p).count]
  by_cases hp : p a <;> simp [ha, hp]

end

theorem nodup_allLevers : allLevers.Nodup := List.nodup_finRange 48

theorem nodup_allSections : allSections.Nodup := by decide

theorem mem_allSections (x : Sec) : x ∈ allSections := by cases x <;> decide

/-! #### The events of a lever and of a block switch -/

theorem positionEvents_table (n r n' r' : Bool) : positionEvents n r n' r' =
    match n, r, n', r' with
    | true, false, false, false => [.leavingN]
    | true, false, false, true => [.leavingN, .arrivalR]
    | false, true, false, false => [.leavingR]
    | false, true, true, false => [.leavingR, .arrivalN]
    | false, false, true, false => [.arrivalN]
    | false, false, false, true => [.arrivalR]
    | true, true, true, false => [.arrivalN]
    | true, true, false, true => [.arrivalR]
    | true, true, false, false => [.bothBreak]
    | true, false, true, true => [.bothMade]
    | false, true, true, true => [.bothMade]
    | false, false, true, true => [.bothMade]
    | true, false, true, false => []
    | false, true, false, true => []
    | true, true, true, true => []
    | false, false, false, false => [] := by
  cases n <;> cases r <;> cases n' <;> cases r' <;> rfl

theorem switchArrivals_table (l o l' o' : Bool) : switchArrivals l o l' o' =
    match l, o, l', o' with
    | true, false, false, false => [.lb]
    | true, false, false, true => [.lb, .tol]
    | false, true, false, false => [.lb]
    | false, true, true, false => [.lb, .lc]
    | false, false, true, false => [.lc]
    | false, false, false, true => [.tol]
    | true, true, true, false => [.lc]
    | true, true, false, true => [.tol]
    | true, true, false, false => [.lb]
    | true, false, true, true => []
    | false, true, true, true => []
    | false, false, true, true => []
    | true, false, true, false => []
    | false, true, false, true => []
    | true, true, true, true => []
    | false, false, false, false => [] := by
  cases l <;> cases o <;> cases l' <;> cases o' <;> rfl

/-- A contact with a reading is made as it reads. -/
theorem made_of_reading {k : ContactState} {b : Bool} (h : k.reading = some b) : k.made = b := by
  cases b with
  | true => exact (made_iff k).2 h
  | false =>
    rw [← Bool.not_eq_true, made_iff, h]
    simp

theorem lever_unknown_iff (k : LeverContacts) : k.known = false ↔ k.n.reading = none ∨ k.r.reading = none := by
  unfold LeverContacts.known
  cases k.n.reading <;> cases k.r.reading <;> simp

theorem switch_unknown_iff (k : SwitchContacts) : k.known = false ↔ k.lc.reading = none ∨ k.tol.reading = none := by
  unfold SwitchContacts.known
  cases k.lc.reading <;> cases k.tol.reading <;> simp

theorem positionOfContacts_eq (l o : Bool) : positionOfContacts l o =
    if l = true ∧ o = false then .lc else if l = false ∧ o = true then .tol else .lb := by
  cases l <;> cases o <;> rfl

/-! #### What a scan makes of the state -/

section
variable {s : State} (made : List Contact) (h : s.resetHeld = false)
include h

theorem scanContacts_inbox : (scanContacts made s).inbox = handScan s.contacts (s.contacts.scan made) s.inbox := by
  simp [scanContacts, h]

theorem scanContacts_section (x : Sec) : (scanContacts made s).section_ x =
    takePosition (s.contacts.switches.get x) ((s.contacts.scan made).switches.get x) (s.section_ x) := by
  simp only [scanContacts, h]
  cases x <;> rfl

theorem scanContacts_service : (scanContacts made s).service =
    takeBoxPosition s.contacts.box (s.contacts.scan made).box s.service := by
  simp [scanContacts, h, takePositions]

end

/-! #### Signaller activity -/

/-- Grips are counted lever by lever. -/
theorem count_leverActivity (a b : LeverContacts) : (leverActivity a b).count .grip = if arrivedMade a.h b.h then 1 else 0 := by
  have : ∀ c : Bool, (if c then [Activity.other] else []).count .grip = 0 := by
    intro c
    cases c <;> rfl
  rw [leverActivity, List.count_append, this]
  split <;> rfl

theorem count_flatMap_grip {α : Type} {l : List α} {f : α → List Activity} {p : α → Bool}
    (hf : ∀ a, (f a).count .grip = if p a then 1 else 0) : (l.flatMap f).count .grip = (l.filter p).length := by
  induction l with
  | nil => rfl
  | cons a l ih =>
    rw [List.flatMap_cons, List.count_append, ih, hf, List.filter_cons]
    split <;> simp [Nat.add_comm]

theorem count_sectionActivity (a b : Contacts) (x : Sec) : (sectionActivity a b x).count .grip = 0 := by
  rw [List.count_eq_zero]
  simp only [sectionActivity, List.mem_append, List.mem_map]
  rintro ((⟨_, _, h⟩ | h) | h)
  · cases h
  · split at h <;> simp at h
  · split at h <;> simp at h

theorem other_mem_leverActivity (a b : LeverContacts) : .other ∈ leverActivity a b ↔
    arrivedMade a.n b.n ∨ arrivedBroken a.n b.n ∨ arrivedMade a.r b.r ∨ arrivedBroken a.r b.r ∨ arrivedBroken a.h b.h := by
  unfold leverActivity readingChanged
  simp only [List.mem_append]
  constructor
  · rintro (h | h) <;> split at h <;> simp_all [or_assoc]
  · intro h
    right
    rw [if_pos (by simpa [or_assoc] using h)]
    simp

theorem other_mem_sectionActivity (a b : Contacts) (x : Sec) : .other ∈ sectionActivity a b x ↔
    (∃ i, i ∈ switchEvents (a.switches.get x) (b.switches.get x)) ∨ arrivedMade (a.tappers.get x) (b.tappers.get x) ∨
      arrivedMade (a.plungers.get x) (b.plungers.get x) := by
  unfold sectionActivity
  simp only [List.mem_append, List.mem_map]
  constructor
  · rintro ((⟨i, hi, -⟩ | h) | h)
    · exact .inl ⟨i, hi⟩
    · split at h <;> simp_all
    · split at h <;> simp_all
  · rintro (⟨i, hi⟩ | h | h)
    · exact .inl (.inl ⟨i, hi, trivial⟩)
    · simp [h]
    · simp [h]

/-- The arrivals a scan hands on of one switch are those counted more after it. -/
theorem count_switches (l : List (Sec × Ind)) (f : Sec → List Ind) (x : Sec) (i : Ind) :
    (l ++ allSections.flatMap fun y => (f y).map (y, ·)).count (x, i) ≠ l.count (x, i) ↔ i ∈ f x := by
  have : (allSections.flatMap fun y => (f y).map (y, ·)).count (x, i) = 0 ↔ i ∉ f x := by
    rw [List.count_eq_zero]
    simp [mem_allSections]
  rw [List.count_append]
  constructor
  · intro h
    by_contra hn
    exact h (by rw [this.2 hn, Nat.add_zero])
  · intro hi h
    exact this.1 (by omega) hi

/-! #### What `handScan` adds, list by list -/

section
variable (a b : Contacts) (i : Inbox)

theorem handScan_frame (n : Lever) : (handScan a b i).frame.filter (fun h => decide (h.1 = n)) =
    i.frame.filter (fun h => decide (h.1 = n)) ++ (leverEvents a.levers[n] b.levers[n]).map (n, ·) := by
  rw [handScan, List.filter_append, filter_tagged nodup_allLevers (mem_allLevers n) fun m =>
    leverEvents a.levers[m] b.levers[m]]

theorem handScan_switches (x : Sec) : (handScan a b i).switches.filter (fun h => decide (h.1 = x)) =
    i.switches.filter (fun h => decide (h.1 = x)) ++ (switchEvents (a.switches.get x) (b.switches.get x)).map (x, ·) := by
  rw [handScan, List.filter_append, filter_tagged nodup_allSections (mem_allSections x) fun y =>
    switchEvents (a.switches.get y) (b.switches.get y)]

theorem handScan_tappers (x : Sec) : (handScan a b i).tappers.filter (fun h => decide (h.1 = x)) =
    i.tappers.filter (fun h => decide (h.1 = x)) ++
      (if arrivedMade (a.tappers.get x) (b.tappers.get x) then [(x, true)] else []) ++
      (if arrivedBroken (a.tappers.get x) (b.tappers.get x) then [(x, false)] else []) := by
  have htag : ∀ y, (if arrivedMade (a.tappers.get y) (b.tappers.get y) then [(y, true)] else []) ++
      (if arrivedBroken (a.tappers.get y) (b.tappers.get y) then [(y, false)] else []) =
      ((if arrivedMade (a.tappers.get y) (b.tappers.get y) then [true] else []) ++
        (if arrivedBroken (a.tappers.get y) (b.tappers.get y) then [false] else [])).map (y, ·) := by
    intro y
    split <;> split <;> rfl
  simp only [handScan, List.filter_append, htag]
  rw [filter_tagged nodup_allSections (mem_allSections x) fun y =>
    (if arrivedMade (a.tappers.get y) (b.tappers.get y) then [true] else []) ++
      (if arrivedBroken (a.tappers.get y) (b.tappers.get y) then [false] else []), ← htag, List.append_assoc]

theorem handScan_plungers (x : Sec) : (handScan a b i).plungers.filter (fun y => decide (y = x)) =
    i.plungers.filter (fun y => decide (y = x)) ++
      (if arrivedMade (a.plungers.get x) (b.plungers.get x) then [x] else []) := by
  rw [handScan, List.filter_append, filter_filter_eq nodup_allSections (mem_allSections x)]

theorem handScan_inputs (g : Input) : (handScan a b i).inputs.filter (fun h => decide (h = g)) =
    i.inputs.filter (fun h => decide (h = g)) ++ (if readingChanged a.proving[g] b.proving[g] then [g] else []) := by
  rw [handScan, List.filter_append, filter_filter_eq (l := allInputs) (List.nodup_finRange 16) (List.mem_finRange g)]

/-- The signaller activity of a scan. -/
def scanActivity : List Activity :=
  (allLevers.flatMap fun n => leverActivity a.levers[n] b.levers[n]) ++ allSections.flatMap (sectionActivity a b) ++
    (if readingChanged a.box b.box then [.other] else [])

theorem handScan_activity : (handScan a b i).activity = i.activity ++ scanActivity a b := by
  simp only [handScan, scanActivity, List.append_assoc]

theorem count_scanActivity : (scanActivity a b).count .grip =
    (allLevers.filter fun n => arrivedMade a.levers[n].h b.levers[n].h).length := by
  have hs : (allSections.flatMap (sectionActivity a b)).count .grip = 0 := by
    rw [count_flatMap_grip (p := fun _ => false) fun x => by simp [count_sectionActivity]]
    simp
  have hb : (if readingChanged a.box b.box then [Activity.other] else []).count .grip = 0 := by
    split <;> rfl
  rw [scanActivity, List.count_append, List.count_append, hs, hb]
  exact count_flatMap_grip fun n => count_leverActivity _ _

theorem other_mem_scanActivity : .other ∈ scanActivity a b ↔
    (∃ n : Lever, arrivedMade a.levers[n].n b.levers[n].n ∨ arrivedBroken a.levers[n].n b.levers[n].n ∨
      arrivedMade a.levers[n].r b.levers[n].r ∨ arrivedBroken a.levers[n].r b.levers[n].r ∨
      arrivedBroken a.levers[n].h b.levers[n].h) ∨
    (∃ x i, i ∈ switchEvents (a.switches.get x) (b.switches.get x)) ∨
    (∃ x, arrivedMade (a.tappers.get x) (b.tappers.get x) ∨ arrivedMade (a.plungers.get x) (b.plungers.get x)) ∨
    arrivedMade a.box b.box ∨ arrivedBroken a.box b.box := by
  have hb : .other ∈ (if readingChanged a.box b.box then [Activity.other] else []) ↔
      arrivedMade a.box b.box ∨ arrivedBroken a.box b.box := by
    simp [readingChanged]
  simp only [scanActivity, List.mem_append, List.mem_flatMap, other_mem_leverActivity, other_mem_sectionActivity, hb,
    mem_allLevers, mem_allSections, true_and, exists_or, or_assoc]

end

/-- The position a block switch's first readings give, at the scan that completes them. -/
theorem takePosition_completes {a b : SwitchContacts} {l o : Bool} (ha : a.known = false) (hl : b.lc.reading = some l)
    (ho : b.tol.reading = some o) (k : SectionData) : takePosition a b k = { k with position :=
      (if l = true ∧ o = false then .lc else if l = false ∧ o = true then .tol else .lb) } := by
  have hb : b.known = true := by simp [SwitchContacts.known, hl, ho]
  rw [takePosition, if_pos (by simp [ha, hb]), made_of_reading hl, made_of_reading ho, positionOfContacts_eq]

theorem takePosition_stands {a b : SwitchContacts} (h : a.known = true ∨ b.known = false) (k : SectionData) :
    takePosition a b k = k := by
  obtain h | h := h <;> simp [takePosition, h]

theorem takeBoxPosition_first {a b : ContactState} {v : Bool} (ha : a.reading = none) (hb : b.reading = some v)
    (k : ServiceUnit) : (takeBoxPosition a b k).position = if v then .out else .inn := by
  simp [takeBoxPosition, ha, hb, made_of_reading hb]

theorem takeBoxPosition_stands {a b : ContactState} (h : a.reading ≠ none ∨ b.reading = none) (k : ServiceUnit) :
    (takeBoxPosition a b k).position = k.position := by
  obtain h | h := h
  · simp [takeBoxPosition, h]
  · simp [takeBoxPosition, h]

/-- The position events of a lever whose two contacts have readings. -/
def leverMoves (a b : LeverContacts) : List LeverEvent :=
  if a.known then positionEvents a.n.made a.r.made b.n.made b.r.made else []

theorem leverMoves_of_readings {a b : LeverContacts} {n r n' r' : Bool} (hn : a.n.reading = some n)
    (hr : a.r.reading = some r) (hn' : b.n.reading = some n') (hr' : b.r.reading = some r') :
    leverMoves a b = positionEvents n r n' r' := by
  rw [leverMoves, if_pos (by simp [LeverContacts.known, hn, hr]), made_of_reading hn, made_of_reading hr,
    made_of_reading hn', made_of_reading hr']

theorem switchEvents_of_readings {a b : SwitchContacts} {l o l' o' : Bool} (hl : a.lc.reading = some l)
    (ho : a.tol.reading = some o) (hl' : b.lc.reading = some l') (ho' : b.tol.reading = some o') :
    switchEvents a b = switchArrivals l o l' o' := by
  rw [switchEvents, if_pos (by simp [SwitchContacts.known, hl, ho]), made_of_reading hl, made_of_reading ho,
    made_of_reading hl', made_of_reading ho']

/-- Settles O8: lever by lever, section by section and input by input, what `handScan` adds. -/
theorem scanHandsOnEventsInOrder : Obligations.ScanHandsOnEventsInOrder := by
  intro made s h
  refine ⟨_, rfl, ?_⟩
  simp only [commit_contacts, commit_inbox_frame, commit_inbox_switches, commit_inbox_tappers, commit_inbox_plungers,
    commit_inbox_inputs, commit_inbox_box, commit_inbox_activity, commit_section, commit_service,
    scanContacts_contacts made h, scanContacts_inbox made h, scanContacts_section made h, scanContacts_service made h]
  generalize s.contacts.scan made = k
  refine ⟨fun n => ⟨leverMoves s.contacts.levers[n] k.levers[n], handScan_frame s.contacts k s.inbox n, fun hn => ?_,
      fun n₀ r₀ n₁ r₁ hn₀ hr₀ hn₁ hr₁ => ?_⟩,
    fun x => ⟨switchEvents (s.contacts.switches.get x) (k.switches.get x), handScan_switches s.contacts k s.inbox x,
      fun hn => ?_, fun l₀ o₀ l₁ o₁ hl₀ ho₀ hl₁ ho₁ => ?_,
      fun l o hn hl ho => takePosition_completes ((switch_unknown_iff _).2 hn) hl ho _,
      fun hk => takePosition_stands ?_ _, handScan_tappers s.contacts k s.inbox x,
      handScan_plungers s.contacts k s.inbox x⟩,
    handScan_inputs s.contacts k s.inbox, rfl, fun b hn hb => takeBoxPosition_first hn hb _,
    fun hk => takeBoxPosition_stands hk _, scanActivity s.contacts k, handScan_activity s.contacts k s.inbox,
    count_scanActivity s.contacts k, ?_⟩
  · rw [leverMoves, (lever_unknown_iff _).2 hn]
    rfl
  · rw [leverMoves_of_readings hn₀ hr₀ hn₁ hr₁]
    exact positionEvents_table n₀ r₀ n₁ r₁
  · rw [switchEvents, (switch_unknown_iff _).2 hn]
    rfl
  · rw [switchEvents_of_readings hl₀ ho₀ hl₁ ho₁]
    exact switchArrivals_table l₀ o₀ l₁ o₁
  · refine hk.imp (fun hk => ?_) fun hk => (switch_unknown_iff _).2 hk
    rw [← Bool.not_eq_false, switch_unknown_iff, not_or]
    exact hk
  · refine (other_mem_scanActivity s.contacts k).trans (or_congr Iff.rfl (or_congr ?_ Iff.rfl))
    exact exists_congr fun x => exists_congr fun i =>
      (count_switches _ (fun y => switchEvents (s.contacts.switches.get y) (k.switches.get y)) x i).symm

end Sys2Proof.Machine


/-! ### Re-testing at each change, and what the Locking unit holds -/

namespace Sys2Proof.Machine

/-! #### A step that hands on no change -/

/-- A step after which every lever, circuit and section stands as before hands on no change. -/
theorem changesFor_nil {s t : State} (hl : ∀ n, (t.lever n).pos = (s.lever n).pos ∧ (t.lever n).lock = (s.lever n).lock)
    (hc : ∀ c, (t.circuit c).state = (s.circuit c).state)
    (hx : ∀ x, (t.section_ x).state = (s.section_ x).state ∧ (t.section_ x).releaseUnused = (s.section_ x).releaseUnused) :
    changesFor s t = [] := by
  have hlever : changedLevers s t = [] := by
    simp [changedLevers, leverStateChanged, LeverData.granted, hl]
  have hcircuit : changedCircuits s t = [] := by
    simp [changedCircuits, hc]
  have hsection : changedSections s t = [] := by
    simp [changedSections, hx]
  have hrelease : changedReleases s t = [] := by
    simp [changedReleases, hx]
  simp [changesFor, hlever, hcircuit, hsection, hrelease]

/-- A change of a circuit of an approach, or of its section's state, is one the approach follows. -/
theorem follows_iff (a : Approach) (ch : Change) : a.follows ch = true ↔
    (∃ c ∈ a.circuits, ∃ was, ch = .track c was) ∨ ∃ x was, a.sec = some x ∧ ch = .sec x was := by
  cases ch <;> simp [Approach.follows]

theorem isTiming_iff (b : BackLock) : b.isTiming = true ↔ ∃ d, b = .timing d := by
  cases b <;> simp [BackLock.isTiming]

theorem dueAt_iff (s : State) (ch : Change) (n : Lever) : s.dueAt ch n ↔
    (∃ d, (s.lever n).backlock = .timing d) ∧ ∃ a, (s.lever n).approach = some a ∧
      ((∀ c ∈ a.circuits, s.lockTrack c = .clear) ∧ ∀ x, a.sec = some x → s.lockSec x ≠ .enteredIn) ∧
      ((∃ c ∈ a.circuits, ∃ was, ch = .track c was) ∨ ∃ x was, a.sec = some x ∧ ch = .sec x was) := by
  simp only [State.dueAt, isTiming_iff, follows_iff, approachFree_iff]
  exact and_congr_right fun _ => exists_congr fun a => and_congr_right fun _ => and_comm

theorem takeChange_leverState (ch : Change) (s : State) (n : Lever) :
    ((takeChange ch s).lever n).pos = (s.lever n).pos ∧ ((takeChange ch s).lever n).lock = (s.lever n).lock := by
  obtain ⟨hdue, hnot, -, -⟩ := takeChange_spec ch s n
  by_cases h : s.dueAt ch n
  · rw [hdue h]
    exact ⟨rfl, rfl⟩
  · rw [hnot h]
    exact ⟨rfl, rfl⟩

/-- A change taken leaves the list of changes and hands on no other. -/
theorem reTest_changes {s : State} {ch : Change} {rest : List Change} (h : s.inbox.changes = ch :: rest) :
    (commit s (reTest s)).inbox.changes = rest := by
  have hr : reTest s = takeChange ch (s.setInbox { s.inbox with changes := rest }) := by
    simp [reTest, h]
  have hl := takeChange_leaves ch (s.setInbox { s.inbox with changes := rest })
  have hch : (takeChange ch (s.setInbox { s.inbox with changes := rest })).inbox.changes = rest :=
    hl .changes (by simp [everyLever])
  have htr : (takeChange ch (s.setInbox { s.inbox with changes := rest })).track = s.track :=
    hl .track (by simp [everyLever])
  have hsec : ∀ x, (takeChange ch (s.setInbox { s.inbox with changes := rest })).section_ x = s.section_ x := fun x =>
    hl (.section_ x) (by simp [everyLever])
  have hnil : changesFor s (takeChange ch (s.setInbox { s.inbox with changes := rest })) = [] :=
    changesFor_nil (fun n => takeChange_leverState ch (s.setInbox _) n)
      (fun c => by rw [State.circuit, htr, State.circuit]) fun x => by rw [hsec]; exact ⟨rfl, rfl⟩
  rw [commit_changes, hr, hch, hnil, List.append_nil]

/-! #### What the Locking unit holds of a circuit and of a section -/

theorem trackWas_of_ne {ch : Change} {k : Circuit} (h : ∀ was, ch ≠ .track k was) : ch.trackWas k = none := by
  cases ch with
  | track c was =>
    refine if_neg fun hc => h was ?_
    rw [hc]
  | _ => rfl

theorem secWas_of_ne {ch : Change} {x : Sec} (h : ∀ was, ch ≠ .sec x was) : ch.secWas x = none := by
  cases ch with
  | sec y was =>
    refine if_neg fun hy => h was ?_
    rw [hy]
  | _ => rfl

/-- Until its first change is taken, a circuit is held in the state before it. -/
theorem lockTrack_eq (s : State) (k : Circuit) :
    ((∀ was, .track k was ∉ s.inbox.changes) → s.lockTrack k = (s.circuit k).state) ∧
    ∀ was before after, s.inbox.changes = before ++ .track k was :: after → (∀ w, .track k w ∉ before) →
      s.lockTrack k = was := by
  have hnone : ∀ l : List Change, (∀ w, .track k w ∉ l) → l.findSome? (·.trackWas k) = none := fun l h =>
    List.findSome?_eq_none_iff.2 fun ch hch => trackWas_of_ne fun w hw => h w (hw ▸ hch)
  constructor
  · intro h
    rw [State.lockTrack, hnone _ h]
    rfl
  · intro was before after h hb
    rw [State.lockTrack, h, List.findSome?_append, hnone _ hb]
    simp

theorem lockSec_eq (s : State) (x : Sec) :
    ((∀ was, .sec x was ∉ s.inbox.changes) → s.lockSec x = (s.section_ x).state) ∧
    ∀ was before after, s.inbox.changes = before ++ .sec x was :: after → (∀ w, .sec x w ∉ before) →
      s.lockSec x = was := by
  have hnone : ∀ l : List Change, (∀ w, .sec x w ∉ l) → l.findSome? (·.secWas x) = none := fun l h =>
    List.findSome?_eq_none_iff.2 fun ch hch => secWas_of_ne fun w hw => h w (hw ▸ hch)
  constructor
  · intro h
    rw [State.lockSec, hnone _ h]
    rfl
  · intro was before after h hb
    rw [State.lockSec, h, List.findSome?_append, hnone _ hb]
    simp

/-- What the Locking unit holds is the same in two states. -/
def SameHeld (s t : State) : Prop :=
  (∀ k, t.lockTrack k = s.lockTrack k) ∧ ∀ x, t.lockSec x = s.lockSec x

theorem SameHeld.trans {s t u : State} (h₁ : SameHeld s t) (h₂ : SameHeld t u) : SameHeld s u :=
  ⟨fun k => (h₂.1 k).trans (h₁.1 k), fun x => (h₂.2 x).trans (h₁.2 x)⟩

/-- The end of a step whose own part takes no change leaves what the Locking unit holds. -/
theorem SameHeld.commit {s t : State} (h : t.inbox.changes = s.inbox.changes) : SameHeld s (commit s t) :=
  ⟨commit_lockTrack h, commit_lockSec h⟩

/-- A changed proving input is no change of a circuit or a section. -/
theorem provingInputChange_sameHeld (g : Input) (s : State) : SameHeld s (commit s (provingInputChange g s)) := by
  simp only [provingInputChange]
  split
  · exact .commit rfl
  · rename_i rest _
    refine ⟨fun k => ?_, fun x => ?_⟩
    · refine (commit_lockTrack (s := s.setInbox { s.inbox with changes := s.inbox.changes ++ [.input g] })
        (t := s.setInbox { s.inbox with inputs := rest, changes := s.inbox.changes ++ [.input g] }) rfl k).trans ?_
      simp [State.lockTrack, Change.trackWas]
    · refine (commit_lockSec (s := s.setInbox { s.inbox with changes := s.inbox.changes ++ [.input g] })
        (t := s.setInbox { s.inbox with inputs := rest, changes := s.inbox.changes ++ [.input g] }) rfl x).trans ?_
      simp [State.lockSec, Change.secWas]

theorem handWaiting_sameHeld (s : State) : SameHeld s (handWaiting s) := by
  simp only [handWaiting]
  split
  · exact ⟨fun _ => rfl, fun _ => rfl⟩
  · exact handEach_keeps (SameHeld s) (fun t w h => h.trans (SameHeld.commit rfl)) _ _ ⟨fun _ => rfl, fun _ => rfl⟩

/-- No command but RE_TEST, START and a reset changes what the Locking unit holds. -/
theorem exec_sameHeld {c : Instr} {s t : State} (hr : c ≠ .reTest) (hs : c ≠ .start)
    (hc : ∀ b, c ≠ .reset b ∧ c ≠ .restartPowerUp b) (h : exec c s = .next t) : SameHeld s t := by
  cases hp : Instr.isPlain c with
  | true =>
    by_cases hw : .changes ∉ ownParts c
    · obtain ⟨u, hu, hl⟩ := exec_plain c s hp
      cases hu.symm.trans h
      exact .commit (hl .changes hw)
    · cases c with
      | provingInputChange g =>
        cases h
        exact provingInputChange_sameHeld g s
      | reTest => exact absurd rfl hr
      | start => cases hp
      | _ => exact absurd hw (by simp [ownParts, codeParts, writes, everyLever, everySection, lineParts, portAndPair])
  | false =>
    cases c with
    | reset b => exact absurd rfl (hc b).1
    | restartPowerUp b => exact absurd rfl (hc b).2
    | resetRelease =>
      cases h
      exact ⟨fun _ => rfl, fun _ => rfl⟩
    | scanFrameStart =>
      obtain ⟨u, hu, hl⟩ := exec_scanFrameStart s
      cases hu.symm.trans h
      exact (handWaiting_sameHeld s).trans (.commit (hl .changes (by simp)))
    | start => exact absurd rfl hs
    | _ => cases hp

/-- Settles O18: the taking of a change by `takeChange_spec`, the rest by what is held until it is taken. -/
theorem reTestAtEachChange : Obligations.ReTestAtEachChange := by
  refine ⟨fun s ch rest h => ?_, fun s g hg => ?_, fun s k x => ?_, fun c s t hr hs hc h => exec_sameHeld hr hs hc h⟩
  · refine ⟨_, rfl, reTest_changes h, fun n => ?_⟩
    have hr : reTest s = takeChange ch (s.setInbox { s.inbox with changes := rest }) := by
      simp [reTest, h]
    obtain ⟨hdue, hnot, hdem, hsent⟩ := takeChange_spec ch (s.setInbox { s.inbox with changes := rest }) n
    have hd := dueAt_iff (s.setInbox { s.inbox with changes := rest }) ch n
    have hfree : ∀ p : LeverPos, p.isFree = true ↔ p = .nFree ∨ p = .rFree := by
      intro p
      cases p <;> simp [LeverPos.isFree]
    simp only [commit_inbox_demands, commit_lever, commit_inbox_backReleases, hr]
    rw [hfree] at hdem
    refine ⟨hdem, fun hdn => hdue (hd.2 hdn), fun hdn => hnot fun h => hdn (hd.1 h), ?_⟩
    rw [hd] at hsent
    exact hsent
  · refine ⟨_, rfl, ?_⟩
    obtain ⟨rest, ht⟩ := takeFirst_of_mem hg
    have hp : provingInputChange g s = s.setInbox { s.inbox with inputs := rest, changes := s.inbox.changes ++ [.input g] } := by
      simp [provingInputChange, ht]
    have hnil : changesFor s (provingInputChange g s) = [] := by
      rw [hp]
      exact changesFor_nil (fun _ => ⟨rfl, rfl⟩) (fun _ => rfl) fun _ => ⟨rfl, rfl⟩
    rw [commit_changes, hnil, hp, List.append_nil]
    rfl
  · exact ⟨(lockTrack_eq s k).1, (lockSec_eq s x).1, (lockTrack_eq s k).2, (lockSec_eq s x).2⟩

end Sys2Proof.Machine


/-! ### Requests: what an accepted and what a refused one answers -/

namespace Sys2Proof.Machine

section
variable {row : Instr} {accept : ServiceState → Bool} {f : Handler} {s t : State} {ws r : List Text} {e : Err}
  (hx : exec row s = .next (commit s (requestStep row accept f s))) (ha : s.asks row ws)
  (hv : accept s.service.state = true)
include hx ha hv

/-- An accepted request is answered with its success reply, laid on the state its handling makes. -/
theorem request_ok (hf : f ws s = .ok (t, r)) (hl : t.link = s.link) :
    exec row s = .next (commit s (reply (success r) t)) ∧ repliesWith (success r) s (commit s (reply (success r) t)) := by
  rw [hx, requestStep_of_asks ha, if_pos hv, handle_ok hf]
  refine ⟨rfl, repliesWith_commit ?_⟩
  have h := reply_replies (success r) t
  simp only [repliesWith, hl] at h ⊢
  exact h

/-- A refused request is answered with its refusal, and nothing else changes. -/
theorem request_error (hf : f ws s = .error e) : answersOnly row e.words s := by
  refine ⟨_, hx, ?_, ?_⟩
  · rw [requestStep_of_asks ha, if_pos hv, handle_error hf]
    exact repliesWith_commit (reply_replies _ s)
  · rw [requestStep_of_asks ha, if_pos hv, handle_error hf]
    exact (reply_leaves _ s).commit

/-- A request that is only answered changes nothing but the line it was. -/
theorem request_answer {g : List Text → State → Parsed (List Text)} (hg : f = answering g) (hf : g ws s = .ok r) :
    answersOnly row (success r) s := by
  have hf : f ws s = .ok (s, r) := by rw [hg, answering, hf]
  obtain ⟨he, hr⟩ := request_ok hx ha hv hf rfl
  exact ⟨_, he, hr, (reply_leaves _ s).commit⟩

theorem request_answer_error {g : List Text → State → Parsed (List Text)} (hg : f = answering g)
    (hf : g ws s = .error e) : answersOnly row e.words s :=
  request_error hx ha hv (by rw [hg, answering, hf])

end

@[simp] theorem reply_lever (ws : List Text) (s : State) (n : Lever) : (reply ws s).lever n = s.lever n := rfl
@[simp] theorem reply_section (ws : List Text) (s : State) (x : Sec) : (reply ws s).section_ x = s.section_ x := rfl
@[simp] theorem reply_circuit (ws : List Text) (s : State) (c : Circuit) : (reply ws s).circuit c = s.circuit c := rfl
@[simp] theorem reply_track (ws : List Text) (s : State) : (reply ws s).track = s.track := rfl
@[simp] theorem reply_locking (ws : List Text) (s : State) : (reply ws s).locking = s.locking := rfl
@[simp] theorem reply_codes (ws : List Text) (s : State) : (reply ws s).codes = s.codes := rfl
@[simp] theorem reply_service (ws : List Text) (s : State) : (reply ws s).service = s.service := rfl
@[simp] theorem reply_diagram (ws : List Text) (s : State) : (reply ws s).diagram = s.diagram := rfl

theorem inConfigure_of {v : ServiceState} (h : v = .configure) : inConfigure v = true := by
  simp [inConfigure, h]

theorem afterPowerUp_of {v : ServiceState} (h : v ≠ .powerUp) : afterPowerUp v = true := by
  simp [afterPowerUp, h]

/-! #### ERASE -/

theorem handleErase_words (w : Text) (f : State → State) (s : State) (a b : Text) :
    handleErase w f [a, b] s = .ok (f s, [W.ERASE, w]) := rfl

theorem eraseLevers_lever (s : State) (n : Lever) :
    (eraseLevers s).lever n = { s.lever n with record := none, backlock := .idle } := by
  simp [eraseLevers, State.lever]

theorem eraseCircuits_circuit (s : State) (c : Circuit) :
    (eraseCircuits s).circuit c = { s.circuit c with stored := none } := by
  simp [eraseCircuits, State.circuit]

theorem eraseSections_section (s : State) (x : Sec) :
    (eraseSections s).section_ x = { s.section_ x with record := none } := by
  cases x <;> simp [eraseSections, storeSec]

/-- Settles O50: each ERASE is accepted in CONFIGURE, and its effect is on its table. -/
theorem eraseClearsItsTable : Obligations.EraseClearsItsTable := by
  intro s hs
  have hv := inConfigure_of hs
  refine ⟨fun ha => ?_, fun ha => ?_, fun ha => ?_, fun ha => ?_, fun ha => ?_, fun ha => ?_, fun ha => ?_⟩
  · obtain ⟨hx, hr⟩ := request_ok (f := handleErase W.LEV eraseLevers) rfl ha hv (handleErase_words _ _ s _ _)
      (by simp only [eraseLevers])
    refine ⟨_, hx, hr, fun n => ?_⟩
    rw [commit_lever, reply_lever, eraseLevers_lever]
  · obtain ⟨hx, hr⟩ := request_ok (f := handleErase W.LOCK eraseLocking) rfl ha hv (handleErase_words _ _ s _ _)
      (by simp only [eraseLocking])
    refine ⟨_, hx, hr, ?_⟩
    rw [commit_locking, reply_locking, eraseLocking]
  · obtain ⟨hx, hr⟩ := request_ok (f := handleErase W.TC eraseCircuits) rfl ha hv (handleErase_words _ _ s _ _)
      (by simp only [eraseCircuits, State.setTrack_link])
    refine ⟨_, hx, hr, fun c => ?_, ?_⟩
    · rw [commit_circuit, reply_circuit, eraseCircuits_circuit]
    · rw [commit_track, reply_track, eraseCircuits, State.setTrack_track]
  · obtain ⟨hx, hr⟩ := request_ok (f := handleErase W.SEC eraseSections) rfl ha hv (handleErase_words _ _ s _ _)
      (by simp only [eraseSections, storeSec, State.setSection_link])
    refine ⟨_, hx, hr, fun x => ?_⟩
    rw [commit_section, reply_section, eraseSections_section]
  · obtain ⟨hx, hr⟩ := request_ok (f := handleErase W.CODE eraseCodes) rfl ha hv (handleErase_words _ _ s _ _)
      (by simp only [eraseCodes])
    refine ⟨_, hx, hr, ?_⟩
    rw [commit_codes, reply_codes, eraseCodes]
  · obtain ⟨hx, hr⟩ := request_ok (f := handleErase W.LAMP eraseLamps) rfl ha hv (handleErase_words _ _ s _ _)
      (by simp only [eraseLamps, State.setDiagram_link])
    refine ⟨_, hx, hr, ?_, ?_⟩
    · rw [commit_diagram_stored, reply_diagram, eraseLamps, State.setDiagram_diagram]
    · rw [commit_diagram_ops, reply_diagram, eraseLamps, State.setDiagram_diagram]
  · obtain ⟨hx, hr⟩ := request_ok (f := handleErase W.BOXOUT eraseBoxout) rfl ha hv (handleErase_words _ _ s _ _)
      (by simp only [eraseBoxout, storeBoxout, State.setService_link])
    refine ⟨_, hx, hr, ?_⟩
    rw [commit_service, reply_service, eraseBoxout, storeBoxout, State.setService_service]

end Sys2Proof.Machine


/-! ### The checks, CHECK and START -/

namespace Sys2Proof.Machine

/-! #### What each check asks -/

/-- The lever has a record, and not one of kind SPARE. -/
def State.worked (s : State) (n : Lever) : Prop := ∃ r, (s.lever n).record = some r ∧ r.kind ≠ .spare

def State.secLoaded (s : State) (x : Sec) : Prop := (s.section_ x).record ≠ none

def State.given (s : State) (m : Meaning) : Prop := ∃ e ∈ s.codes, e.meaning = m

def State.givenOffer (s : State) : Prop := ∃ cls, s.given (.offer cls)

/-- An entry naming a lever that is not worked. -/
def State.entryUndefined (s : State) (e : LockEntry) : Prop :=
  ¬s.worked e.x.lever ∨ ¬s.worked e.y.lever ∨ ∃ c ∈ e.conds, ¬s.worked c.lever

def LockEntry.selfLocked (e : LockEntry) : Prop :=
  e.x.lever = e.y.lever ∨ ∃ c ∈ e.conds, c.lever = e.x.lever ∨ c.lever = e.y.lever

/-- A record naming a circuit without a record. -/
def State.noTrack (s : State) (r : LevRecord) : Prop :=
  (∃ e ∈ r.tracks, (s.circuit e.circuit).stored = none) ∨
    ∃ a, r.approach = some a ∧ ∃ c ∈ a.circuits, (s.circuit c).stored = none

/-- A record naming a section without a record. -/
def State.noSection (s : State) (r : LevRecord) : Prop :=
  (∃ x, r.block = some x ∧ ¬s.secLoaded x) ∨ ∃ a x, r.approach = some a ∧ a.sec = some x ∧ ¬s.secLoaded x

/-- The `k`th entry, counted from 1, is the first bad one. -/
def FirstEntry (es : List LockEntry) (bad : LockEntry → Prop) (k : Nat) : Prop :=
  ∃ before e after, es = before ++ e :: after ∧ k = before.length + 1 ∧ bad e ∧ ∀ d ∈ before, ¬bad d

/-- Lever `n` is the first with a bad record. -/
def State.FirstLever (s : State) (bad : LevRecord → Prop) (n : Lever) : Prop :=
  (∃ r, (s.lever n).record = some r ∧ bad r) ∧ ∀ m < n, ∀ r, (s.lever m).record = some r → ¬bad r

section
variable {s : State} {why : List Text}

theorem undefinedLever_iff (n : Lever) : s.undefinedLever n = true ↔ ¬s.worked n := by
  unfold State.undefinedLever State.worked
  cases (s.lever n).record <;> simp

theorem loaded_iff (n : Lever) : (s.lever n).loaded = true ↔ (s.lever n).record ≠ none := by
  simp [LeverData.loaded, Option.isSome_iff_ne_none]

theorem entryUndefined_iff (e : LockEntry) : e.levers.any s.undefinedLever = true ↔ s.entryUndefined e := by
  simp [LockEntry.levers, undefinedLever_iff, State.entryUndefined]

theorem selfLocks_iff (e : LockEntry) : e.selfLocks = true ↔ e.selfLocked := by
  simp [LockEntry.selfLocks, LockEntry.selfLocked]

theorem undefinedTrack_iff (r : LevRecord) : s.undefinedTrack r = true ↔ s.noTrack r := by
  unfold State.undefinedTrack State.noTrack
  cases r.approach <;> simp

theorem missingSection_iff (o : Option Sec) : s.missingSection o = true ↔ ∃ x, o = some x ∧ ¬s.secLoaded x := by
  cases o <;> simp [State.missingSection, State.secLoaded]

theorem undefinedSection_iff (r : LevRecord) : s.undefinedSection r = true ↔ s.noSection r := by
  unfold State.undefinedSection State.noSection
  cases r.approach <;> simp [missingSection_iff]

theorem firstEntry_iff {bad : LockEntry → Bool} {P : LockEntry → Prop} (h : ∀ e, bad e = true ↔ P e)
    {es : List LockEntry} {k : Nat} : firstEntry bad es = some k ↔ FirstEntry es P k := by
  simp only [firstEntry_some, FirstEntry, ← h, Bool.not_eq_true]

theorem firstEntry_none_iff {bad : LockEntry → Bool} {P : LockEntry → Prop} (h : ∀ e, bad e = true ↔ P e)
    {es : List LockEntry} : firstEntry bad es = none ↔ ∀ e ∈ es, ¬P e := by
  simp only [firstEntry_none, ← h, Bool.not_eq_true]

theorem firstLever_iff {bad : LevRecord → Bool} {P : LevRecord → Prop} (h : ∀ r, bad r = true ↔ P r) {n : Lever} :
    s.firstLever bad = some n ↔ s.FirstLever P n := by
  simp only [State.firstLever_some, State.FirstLever, ← h, Bool.not_eq_true]

theorem firstLever_none_iff {bad : LevRecord → Bool} {P : LevRecord → Prop} (h : ∀ r, bad r = true ↔ P r) :
    s.firstLever bad = none ↔ ∀ n r, (s.lever n).record = some r → ¬P r := by
  simp only [State.firstLever_none, ← h, Bool.not_eq_true]

/-! Each check: when it fails and with what reason, and when it passes. -/

theorem checkNoLevers_some : checkNoLevers s = some why ↔ (∀ n, (s.lever n).record = none) ∧ why = [W.NO_LEVERS] := by
  have h : (allLevers.any fun n => (s.lever n).loaded) = true ↔ ∃ n, (s.lever n).record ≠ none := by
    simp [loaded_iff, mem_allLevers]
  unfold checkNoLevers
  split
  · rename_i ht
    obtain ⟨n, hn⟩ := h.1 ht
    simp only [reduceCtorEq, false_iff]
    exact fun hall => hn (hall.1 n)
  · rename_i ht
    rw [h] at ht
    push Not at ht
    simp only [Option.some.injEq, ht, implies_true, true_and]
    exact eq_comm

theorem checkNoLevers_none : checkNoLevers s = none ↔ ∃ n, (s.lever n).record ≠ none := by
  simp [checkNoLevers, loaded_iff, mem_allLevers]

theorem checkLevers_some : checkLevers s = some why ↔
    (∃ k, FirstEntry s.locking s.entryUndefined k ∧ why = [W.UNDEFINED_LEVER, digits k]) ∨
    ((∀ e ∈ s.locking, ¬s.entryUndefined e) ∧ (∃ ts, s.service.boxout = some ts ∧ ∃ e ∈ ts, ¬s.worked e.lever) ∧
      why = [W.UNDEFINED_LEVER, W.BOXOUT]) := by
  have hb : ((s.service.boxout.getD []).any fun t => s.undefinedLever t.lever) = true ↔
      ∃ ts, s.service.boxout = some ts ∧ ∃ e ∈ ts, ¬s.worked e.lever := by
    cases s.service.boxout <;> simp [undefinedLever_iff]
  unfold checkLevers
  cases hf : firstEntry (fun e => e.levers.any s.undefinedLever) s.locking with
  | some k =>
    have hk := (firstEntry_iff entryUndefined_iff).1 hf
    have hne : ¬∀ e ∈ s.locking, ¬s.entryUndefined e := fun h => by
      rw [(firstEntry_none_iff entryUndefined_iff).2 h] at hf
      cases hf
    simp only [Option.some.injEq, hne, false_and, or_false]
    constructor
    · rintro rfl
      exact ⟨k, hk, rfl⟩
    · rintro ⟨j, hj, rfl⟩
      rw [← firstEntry_iff entryUndefined_iff, hf] at hj
      cases hj
      rfl
  | none =>
    have hall := (firstEntry_none_iff entryUndefined_iff).1 hf
    have hno : ∀ k, ¬FirstEntry s.locking s.entryUndefined k := fun k hk => by
      rw [← firstEntry_iff entryUndefined_iff, hf] at hk
      cases hk
    simp only [hno, false_and, exists_false, false_or, ← hb]
    by_cases h : ((s.service.boxout.getD []).any fun t => s.undefinedLever t.lever) = true
    · rw [if_pos h]
      exact ⟨fun e => ⟨hall, h, (Option.some.inj e).symm⟩, fun ⟨_, _, e⟩ => congrArg some e.symm⟩
    · simp [h]

theorem checkLevers_none : checkLevers s = none ↔
    (∀ e ∈ s.locking, ¬s.entryUndefined e) ∧ ∀ ts, s.service.boxout = some ts → ∀ e ∈ ts, s.worked e.lever := by
  have hb : ((s.service.boxout.getD []).any fun t => s.undefinedLever t.lever) = true ↔
      ∃ ts, s.service.boxout = some ts ∧ ∃ e ∈ ts, ¬s.worked e.lever := by
    cases s.service.boxout <;> simp [undefinedLever_iff]
  unfold checkLevers
  cases hf : firstEntry (fun e => e.levers.any s.undefinedLever) s.locking with
  | some k =>
    have hne : ¬∀ e ∈ s.locking, ¬s.entryUndefined e := fun h => by
      rw [(firstEntry_none_iff entryUndefined_iff).2 h] at hf
      cases hf
    simp [hne]
  | none =>
    have hall := (firstEntry_none_iff entryUndefined_iff).1 hf
    simp only [ite_eq_right_iff, reduceCtorEq, imp_false, hb]
    push Not
    exact ⟨fun h => ⟨hall, h⟩, fun h => h.2⟩

theorem checkSelfLock_some : checkSelfLock s = some why ↔
    ∃ k, FirstEntry s.locking LockEntry.selfLocked k ∧ why = [W.SELF_LOCK, digits k] := by
  simp only [checkSelfLock, Option.map_eq_some_iff, firstEntry_iff selfLocks_iff]
  exact exists_congr fun _ => and_congr_right fun _ => eq_comm

theorem checkSelfLock_none : checkSelfLock s = none ↔ ∀ e ∈ s.locking, ¬e.selfLocked := by
  simp only [checkSelfLock, Option.map_eq_none_iff, firstEntry_none_iff selfLocks_iff]

theorem checkTracks_some : checkTracks s = some why ↔
    ∃ n, s.FirstLever s.noTrack n ∧ why = [W.UNDEFINED_TRACK, ordinal n] := by
  simp only [checkTracks, Option.map_eq_some_iff, firstLever_iff undefinedTrack_iff]
  exact exists_congr fun _ => and_congr_right fun _ => eq_comm

theorem checkTracks_none : checkTracks s = none ↔ ∀ n r, (s.lever n).record = some r → ¬s.noTrack r := by
  simp only [checkTracks, Option.map_eq_none_iff, firstLever_none_iff undefinedTrack_iff]

theorem checkSections_some : checkSections s = some why ↔
    (∃ n, s.FirstLever s.noSection n ∧ why = [W.UNDEFINED_SECTION, ordinal n]) ∨
    ((∀ n r, (s.lever n).record = some r → ¬s.noSection r) ∧ s.service.boxout ≠ none ∧
      ((¬s.secLoaded .a ∧ why = [W.UNDEFINED_SECTION, W.A]) ∨
        (s.secLoaded .a ∧ ¬s.secLoaded .b ∧ why = [W.UNDEFINED_SECTION, W.B]))) := by
  have hm : ∀ x, s.missingSection (some x) = true ↔ ¬s.secLoaded x := fun x => by simp [missingSection_iff]
  unfold checkSections
  cases hf : s.firstLever s.undefinedSection with
  | some n =>
    have hn := (firstLever_iff undefinedSection_iff).1 hf
    have hne : ¬∀ m r, (s.lever m).record = some r → ¬s.noSection r := fun h => by
      rw [(firstLever_none_iff undefinedSection_iff).2 h] at hf
      cases hf
    simp only [Option.some.injEq, hne, false_and, or_false]
    constructor
    · rintro rfl
      exact ⟨n, hn, rfl⟩
    · rintro ⟨m, hm, rfl⟩
      rw [← firstLever_iff undefinedSection_iff, hf] at hm
      cases hm
      rfl
  | none =>
    have hall := (firstLever_none_iff undefinedSection_iff).1 hf
    have hno : ∀ n, ¬s.FirstLever s.noSection n := fun n hn => by
      rw [← firstLever_iff undefinedSection_iff, hf] at hn
      cases hn
    simp only [hno, false_and, exists_false, false_or, Option.isNone_iff_eq_none]
    by_cases hb : s.service.boxout = none
    · simp [hb]
    rw [if_neg hb]
    by_cases ha : s.secLoaded .a
    · rw [if_neg ((hm .a).not.2 (not_not.2 ha))]
      by_cases hb' : s.secLoaded .b
      · rw [if_neg ((hm .b).not.2 (not_not.2 hb'))]
        simp [ha, hb']
      · rw [if_pos ((hm .b).2 hb')]
        exact ⟨fun e => ⟨hall, hb, .inr ⟨ha, hb', (Option.some.inj e).symm⟩⟩, fun e => by simp_all⟩
    · rw [if_pos ((hm .a).2 ha)]
      exact ⟨fun e => ⟨hall, hb, .inl ⟨ha, (Option.some.inj e).symm⟩⟩, fun e => by simp_all⟩

theorem checkSections_none : checkSections s = none ↔
    (∀ n r, (s.lever n).record = some r → ¬s.noSection r) ∧
      (s.service.boxout ≠ none → s.secLoaded .a ∧ s.secLoaded .b) := by
  have hm : ∀ x, s.missingSection (some x) = true ↔ ¬s.secLoaded x := fun x => by simp [missingSection_iff]
  unfold checkSections
  cases hf : s.firstLever s.undefinedSection with
  | some n =>
    have hne : ¬∀ m r, (s.lever m).record = some r → ¬s.noSection r := fun h => by
      rw [(firstLever_none_iff undefinedSection_iff).2 h] at hf
      cases hf
    simp [hne]
  | none =>
    have hall := (firstLever_none_iff undefinedSection_iff).1 hf
    simp only [Option.isNone_iff_eq_none]
    by_cases hb : s.service.boxout = none
    · simpa [hb] using hall
    rw [if_neg hb]
    by_cases ha : s.secLoaded .a
    · rw [if_neg ((hm .a).not.2 (not_not.2 ha))]
      by_cases hb' : s.secLoaded .b
      · rw [if_neg ((hm .b).not.2 (not_not.2 hb'))]
        exact iff_of_true rfl ⟨hall, fun _ => ⟨ha, hb'⟩⟩
      · rw [if_pos ((hm .b).2 hb')]
        exact iff_of_false nofun fun h => hb' (h.2 hb).2
    · rw [if_pos ((hm .a).2 ha)]
      exact iff_of_false nofun fun h => ha (h.2 hb).1

/-- The meaning of an offer code. -/
def Meaning.isOffer : Meaning → Bool
  | .offer _ => true
  | _ => false

theorem neededCodes_eq (s : State) : s.neededCodes =
    (if allSections.any fun x => (s.section_ x).record.isSome then
        [(W.OFFER, Meaning.isOffer), (W.ENTERING, fun m => decide (m = .entering)),
          (W.CANCEL, fun m => decide (m = .cancel))]
      else []) ++
    (if (s.section_ .a).record.isSome && (s.section_ .b).record.isSome then
        [(W.BOX_OUT, fun m => decide (m = .boxOut)), (W.BOX_IN, fun m => decide (m = .boxIn))] else []) := rfl

theorem hasCode_iff {P : Meaning → Bool} : (s.codes.any fun c => P c.meaning) = true ↔ ∃ m, P m = true ∧ s.given m := by
  simp only [List.any_eq_true, State.given]
  exact ⟨fun ⟨c, hc, h⟩ => ⟨_, h, c, hc, rfl⟩, fun ⟨_, h, c, hc, he⟩ => ⟨c, hc, he ▸ h⟩⟩

theorem hasOffer_iff : (s.codes.any fun c => c.meaning.isOffer) = true ↔ s.givenOffer := by
  rw [hasCode_iff]
  constructor
  · rintro ⟨m, hm, h⟩
    cases m <;> cases hm
    exact ⟨_, h⟩
  · rintro ⟨cls, h⟩
    exact ⟨_, rfl, h⟩

theorem hasMeaning_iff (m : Meaning) : (s.codes.any fun c => decide (c.meaning = m)) = true ↔ s.given m := by
  rw [hasCode_iff (P := fun n => decide (n = m))]
  simp

theorem missingCode_find (es : List (Text × (Meaning → Bool))) (e : Text × (Meaning → Bool)) :
    (e :: es).find? (fun e => !s.codes.any fun c => e.2 c.meaning) =
      if (s.codes.any fun c => e.2 c.meaning) = true then
        es.find? (fun e => !s.codes.any fun c => e.2 c.meaning) else some e := by
  rw [List.find?_cons]
  cases s.codes.any fun c => e.2 c.meaning <;> rfl

/-- What check 6 answers, as a chain of questions. -/
theorem checkCodes_eq [∀ p, Decidable p] : checkCodes s =
    if (∃ x, s.secLoaded x) ∧ ¬s.givenOffer then some [W.MISSING_CODE, W.OFFER]
    else if (∃ x, s.secLoaded x) ∧ ¬s.given .entering then some [W.MISSING_CODE, W.ENTERING]
    else if (∃ x, s.secLoaded x) ∧ ¬s.given .cancel then some [W.MISSING_CODE, W.CANCEL]
    else if (s.secLoaded .a ∧ s.secLoaded .b) ∧ ¬s.given .boxOut then some [W.MISSING_CODE, W.BOX_OUT]
    else if (s.secLoaded .a ∧ s.secLoaded .b) ∧ ¬s.given .boxIn then some [W.MISSING_CODE, W.BOX_IN]
    else none := by
  have hany : (allSections.any fun x => (s.section_ x).record.isSome) = true ↔ ∃ x, s.secLoaded x := by
    simp [State.secLoaded, Option.isSome_iff_ne_none, mem_allSections]
  have hab : ((s.section_ .a).record.isSome && (s.section_ .b).record.isSome) = true ↔
      s.secLoaded .a ∧ s.secLoaded .b := by
    simp [State.secLoaded, Option.isSome_iff_ne_none]
  unfold checkCodes
  rw [neededCodes_eq]
  simp only [hany, hab]
  by_cases h1 : ∃ x, s.secLoaded x <;> by_cases h2 : s.secLoaded .a ∧ s.secLoaded .b <;>
    simp only [h1, h2, if_true, if_false, List.append_nil, List.nil_append, List.cons_append, missingCode_find,
      List.find?_nil, hasOffer_iff, hasMeaning_iff, apply_ite (Option.map _), Option.map_some, Option.map_none,
      true_and, false_and] <;> split_ifs <;> rfl

theorem ite_eq_some {p : Prop} [Decidable p] {α : Type} {a b : α} {o : Option α} :
    (if p then some a else o) = some b ↔ (p ∧ a = b) ∨ (¬p ∧ o = some b) := by
  split <;> simp_all

theorem ite_some_eq_none {p : Prop} [Decidable p] {α : Type} {a : α} {o : Option α} :
    (if p then some a else o) = none ↔ ¬p ∧ o = none := by
  split <;> simp_all

theorem some_secLoaded : s.secLoaded .a ∧ s.secLoaded .b → ∃ x, s.secLoaded x := fun h => ⟨.a, h.1⟩

open Classical in
theorem checkCodes_some : checkCodes s = some why ↔ ∃ meaning, why = [W.MISSING_CODE, meaning] ∧
    (((∃ x, s.secLoaded x) ∧ ((¬s.givenOffer ∧ meaning = W.OFFER) ∨
        (s.givenOffer ∧ ¬s.given .entering ∧ meaning = W.ENTERING) ∨
        (s.givenOffer ∧ s.given .entering ∧ ¬s.given .cancel ∧ meaning = W.CANCEL))) ∨
      ((s.givenOffer ∧ s.given .entering ∧ s.given .cancel) ∧ (s.secLoaded .a ∧ s.secLoaded .b) ∧
        ((¬s.given .boxOut ∧ meaning = W.BOX_OUT) ∨ (s.given .boxOut ∧ ¬s.given .boxIn ∧ meaning = W.BOX_IN)))) := by
  rw [checkCodes_eq]
  simp only [ite_eq_some, reduceCtorEq, and_false, or_false]
  constructor
  · rintro (⟨⟨h, ho⟩, rfl⟩ | ⟨h1, ⟨⟨h, he⟩, rfl⟩ | ⟨h2, ⟨⟨h, hc⟩, rfl⟩ | ⟨h3, h | h⟩⟩⟩)
    · exact ⟨_, rfl, .inl ⟨h, .inl ⟨ho, rfl⟩⟩⟩
    · exact ⟨_, rfl, .inl ⟨h, .inr (.inl ⟨by simp_all, he, rfl⟩)⟩⟩
    · exact ⟨_, rfl, .inl ⟨h, .inr (.inr ⟨by simp_all, by simp_all, hc, rfl⟩)⟩⟩
    · obtain ⟨⟨h, hb⟩, rfl⟩ := h
      exact ⟨_, rfl, .inr ⟨by simp_all [some_secLoaded h], h, .inl ⟨hb, rfl⟩⟩⟩
    · obtain ⟨hb, ⟨h, hi⟩, rfl⟩ := h
      exact ⟨_, rfl, .inr ⟨by simp_all [some_secLoaded h], h, .inr ⟨by simp_all, hi, rfl⟩⟩⟩
  · rintro ⟨_, rfl, ⟨hx, h⟩ | ⟨⟨ho, he, hc⟩, hab, h⟩⟩
    · obtain ⟨ho, rfl⟩ | ⟨ho, he, rfl⟩ | ⟨ho, he, hc, rfl⟩ := h <;> simp [*]
    · obtain ⟨hb, rfl⟩ | ⟨hb, hi, rfl⟩ := h <;> simp [*]

open Classical in
theorem checkCodes_none : checkCodes s = none ↔
    ((∃ x, s.secLoaded x) → s.givenOffer ∧ s.given .entering ∧ s.given .cancel) ∧
      (s.secLoaded .a → s.secLoaded .b → s.given .boxOut ∧ s.given .boxIn) := by
  rw [checkCodes_eq]
  simp only [ite_some_eq_none]
  tauto

theorem checkViolation_some : checkViolation s = some why ↔
    ∃ k, FirstEntry s.locking (fun e => e.violated s.contactEnd = true) k ∧ why = [W.VIOLATION, digits k] := by
  simp only [checkViolation, Option.map_eq_some_iff, firstEntry_iff (fun _ => Iff.rfl)]
  exact exists_congr fun _ => and_congr_right fun _ => eq_comm

theorem checkViolation_none : checkViolation s = none ↔ ∀ e ∈ s.locking, ¬e.violated s.contactEnd = true := by
  simp only [checkViolation, Option.map_eq_none_iff, firstEntry_none_iff (fun _ => Iff.rfl)]

/-- What check `i` answers. -/
def State.checkAt (s : State) : Nat → Option (List Text)
  | 1 => checkNoLevers s
  | 2 => checkLevers s
  | 3 => checkSelfLock s
  | 4 => checkTracks s
  | 5 => checkSections s
  | 6 => checkCodes s
  | 7 => checkViolation s
  | _ => none

theorem find_some_bind {α : Type} (o : Option α) (os : List (Option α)) :
    ((o :: os).find? (·.isSome)).bind id = o.or ((os.find? (·.isSome)).bind id) := by
  cases o <;> rfl

theorem configError_eq (s : State) : s.configError = (s.checkAt 1).or ((s.checkAt 2).or ((s.checkAt 3).or
    ((s.checkAt 4).or ((s.checkAt 5).or ((s.checkAt 6).or (s.checkAt 7)))))) := by
  simp only [State.configError, find_some_bind, List.find?_nil, Option.bind_none, Option.or_none]
  rfl

/-- The configuration error is that of the first check that fails. -/
theorem configError_of_first {i : Nat} (h : s.checkAt i = some why) (hb : ∀ j < i, s.checkAt j = none) :
    s.configError = some why := by
  rw [configError_eq]
  match i with
  | 0 => cases h
  | 1 => simp [h]
  | 2 => simp [h, hb 1]
  | 3 => simp [h, hb 1, hb 2]
  | 4 => simp [h, hb 1, hb 2, hb 3]
  | 5 => simp [h, hb 1, hb 2, hb 3, hb 4]
  | 6 => simp [h, hb 1, hb 2, hb 3, hb 4, hb 5]
  | 7 => simp [h, hb 1, hb 2, hb 3, hb 4, hb 5, hb 6]
  | _ + 8 => cases h

/-- When check `i` fails, and with what reason and index (R162). -/
def State.failsAt (s : State) (i : Nat) (why : List Text) : Prop :=
  match i with
  | 1 => (∀ n, (s.lever n).record = none) ∧ why = [W.NO_LEVERS]
  | 2 => (∃ k, FirstEntry s.locking s.entryUndefined k ∧ why = [W.UNDEFINED_LEVER, digits k]) ∨
    ((∀ e ∈ s.locking, ¬s.entryUndefined e) ∧ (∃ ts, s.service.boxout = some ts ∧ ∃ e ∈ ts, ¬s.worked e.lever) ∧
      why = [W.UNDEFINED_LEVER, W.BOXOUT])
  | 3 => ∃ k, FirstEntry s.locking LockEntry.selfLocked k ∧ why = [W.SELF_LOCK, digits k]
  | 4 => ∃ n, s.FirstLever s.noTrack n ∧ why = [W.UNDEFINED_TRACK, ordinal n]
  | 5 => (∃ n, s.FirstLever s.noSection n ∧ why = [W.UNDEFINED_SECTION, ordinal n]) ∨
    ((∀ n r, (s.lever n).record = some r → ¬s.noSection r) ∧ s.service.boxout ≠ none ∧
      ((¬s.secLoaded .a ∧ why = [W.UNDEFINED_SECTION, W.A]) ∨
        (s.secLoaded .a ∧ ¬s.secLoaded .b ∧ why = [W.UNDEFINED_SECTION, W.B])))
  | 6 => ∃ meaning, why = [W.MISSING_CODE, meaning] ∧
    (((∃ x, s.secLoaded x) ∧ ((¬s.givenOffer ∧ meaning = W.OFFER) ∨
        (s.givenOffer ∧ ¬s.given .entering ∧ meaning = W.ENTERING) ∨
        (s.givenOffer ∧ s.given .entering ∧ ¬s.given .cancel ∧ meaning = W.CANCEL))) ∨
      (s.givenOffer ∧ s.given .entering ∧ s.given .cancel ∧ s.secLoaded .a ∧ s.secLoaded .b ∧
        ((¬s.given .boxOut ∧ meaning = W.BOX_OUT) ∨ (s.given .boxOut ∧ ¬s.given .boxIn ∧ meaning = W.BOX_IN))))
  | 7 => ∃ k, FirstEntry s.locking (fun e => e.violated s.contactEnd = true) k ∧ why = [W.VIOLATION, digits k]
  | _ => False

theorem checkAt_some (i : Nat) : s.checkAt i = some why ↔ s.failsAt i why := by
  match i with
  | 0 => exact iff_of_false nofun id
  | 1 => exact checkNoLevers_some
  | 2 => exact checkLevers_some
  | 3 => exact checkSelfLock_some
  | 4 => exact checkTracks_some
  | 5 => exact checkSections_some
  | 6 =>
    refine checkCodes_some.trans (exists_congr fun m => and_congr_right fun _ => ?_)
    simp only [and_assoc]
  | 7 => exact checkViolation_some
  | _ + 8 => exact iff_of_false nofun id

/-- Checks 1 to 7 pass exactly when the configuration is as they ask. -/
theorem configError_none_iff : s.configError = none ↔
    (∃ n, (s.lever n).record ≠ none) ∧
    ((∀ e ∈ s.locking, ¬s.entryUndefined e) ∧ ∀ ts, s.service.boxout = some ts → ∀ e ∈ ts, s.worked e.lever) ∧
    (∀ e ∈ s.locking, ¬e.selfLocked) ∧ (∀ n r, (s.lever n).record = some r → ¬s.noTrack r) ∧
    ((∀ n r, (s.lever n).record = some r → ¬s.noSection r) ∧
      (s.service.boxout ≠ none → s.secLoaded .a ∧ s.secLoaded .b)) ∧
    (((∃ x, s.secLoaded x) → s.givenOffer ∧ s.given .entering ∧ s.given .cancel) ∧
      (s.secLoaded .a → s.secLoaded .b → s.given .boxOut ∧ s.given .boxIn)) ∧
    ∀ e ∈ s.locking, ¬e.violated s.contactEnd = true := by
  simp only [configError_eq, Option.or_eq_none_iff]
  exact and_congr checkNoLevers_none (and_congr checkLevers_none (and_congr checkSelfLock_none
    (and_congr checkTracks_none (and_congr checkSections_none (and_congr checkCodes_none checkViolation_none)))))

end

end Sys2Proof.Machine


/-! ### CHECK and START -/

namespace Sys2Proof.Machine

/-! #### The entry decisions of START (R20, R164, R165) -/

theorem arrivedClear_occupiedRun (clear : Circuit → Bool) (ts : List Circuit) :
    arrivedClear clear ts (occupiedRun clear ts) = false := by
  cases ts with
  | nil => rfl
  | cons c cs => cases h : clear c <;> simp [arrivedClear, occupiedRun, h]

/-- A record that has counted no track yet does not become CLEARED by the check at the entry. -/
theorem progressed_stage {t : Train} (h : t.progress = 0) (clear : Circuit → Bool) (ts : List Circuit) :
    (t.progressed clear ts).stage = t.stage := by
  simp [Train.progressed, h, arrivedClear_occupiedRun]

/-- What START makes of a section with a record, by its switch and its reading (R165). -/
def SectionData.StartsAs (k k' : SectionData) (clock : ClockTime) : Prop :=
  (k.record = none → k' = k) ∧
  (k.record ≠ none → k.position = .tol → (k'.state = .enteredIn ∧ k'.drive = driveOf .enteredIn) ∧
    ∃ r, k'.train = some r ∧ r.inward = true ∧ r.cls = 0 ∧ r.stage = .entered ∧ r.offered = clock ∧
      r.accepted = none ∧ r.entered = some clock) ∧
  (k.record ≠ none → k.position = .lc → (k'.state = .blocked ∧ k'.drive = driveOf .blocked) ∧ k'.train = none) ∧
  (k.record ≠ none → k.position = .lb → k.reading = some .lc →
    (k'.state = .unofferedClear ∧ k'.drive = driveOf .unofferedClear) ∧ k'.train = none ∧ k'.releaseUnused = false) ∧
  (k.record ≠ none → k.position = .lb → k.reading = some .tol →
    (k'.state = .enteredOut ∧ k'.drive = driveOf .enteredOut) ∧ ∃ r, k'.train = some r ∧ r.inward = false ∧ r.cls = 0 ∧
      r.stage = .entered ∧ r.offered = clock ∧ r.entered = some clock ∧ r.progress = 0) ∧
  (k.record ≠ none → k.position = .lb → k.reading = some .lb ∨ k.reading = none →
    (k'.state = .blocked ∧ k'.drive = driveOf .blocked) ∧ k'.train = none)

section
variable (x : Sec) (s : State)

theorem progressCheck_enteredIn {k : SectionData} {t : Train} (hk : s.section_ x = k) (ht : k.train = some t)
    (hs : k.state = .enteredIn) (hi : t.inward = true) :
    (progressCheck x s).section_ x = { k with train := some (t.progressed s.clear k.arrivals) } := by
  simp [progressCheck, hk, ht, hs, hi]

theorem startSection_noRecord (h : (s.section_ x).record = none) : startSection x s = s := by
  simp [startSection, h]

/-- A section with its switch at TOL: the train is found in the section. -/
theorem startSection_atTol (hr : (s.section_ x).record ≠ none) (hp : (s.section_ x).position = .tol) :
    ∃ clear, (startSection x s).section_ x = { (s.section_ x).enter .enteredIn none with
      train := some ((s.startTrain true).progressed clear (s.section_ x).arrivals) } := by
  have hs : startSection x s =
      progressCheck x (enterSec x .enteredIn (some (s.startTrain true)) .void false (countTrain s)) := by
    simp [startSection, hr, hp]
  rw [hs]
  exact ⟨_, progressCheck_enteredIn x _ (k := (s.section_ x).enter .enteredIn (some (s.startTrain true)))
    (enterSec_section x ..) rfl rfl rfl⟩

/-- A section with its switch at LC or LB: what it enters, and the record it holds then. -/
theorem startSection_section (hr : (s.section_ x).record ≠ none) (hp : (s.section_ x).position ≠ .tol) :
    (startSection x s).section_ x =
      if (s.section_ x).position = .lc then (s.section_ x).enter .blocked none
      else if (s.section_ x).reading = some .lc then (s.section_ x).enter .unofferedClear none
      else if (s.section_ x).reading = some .tol then (s.section_ x).enter .enteredOut (some (s.startTrain false))
      else (s.section_ x).enter .blocked none := by
  have hn : ¬(s.section_ x).record.isNone = true := by simpa using hr
  simp only [startSection, if_neg hn]
  split
  · contradiction
  · rename_i h
    rw [endSec, enterSec_section, if_pos h]
  · rename_i h hl
    rw [endSec, enterSec_section, if_neg (by simp [h]), if_pos hl]
  · rename_i h hl
    rw [enterSec_section, if_neg (by simp [h]), if_neg (by simp [hl]), if_pos hl]
    rfl
  · rename_i h hlc htol
    rw [endSec, enterSec_section, if_neg (by simp [h]), if_neg hlc, if_neg htol]

theorem startSection_startsAs : (s.section_ x).StartsAs ((startSection x s).section_ x) s.register.clock := by
  refine ⟨fun h => by rw [startSection_noRecord x s h], fun hr hp => ?_, fun hr hp => ?_, fun hr hp hl => ?_,
    fun hr hp ht => ?_, fun hr hp hd => ?_⟩
  · obtain ⟨clear, h⟩ := startSection_atTol x s hr hp
    rw [h]
    exact ⟨⟨rfl, rfl⟩, _, rfl, rfl, rfl, progressed_stage rfl _ _, rfl, rfl, rfl⟩
  · rw [startSection_section x s hr (by simp [hp]), if_pos hp]
    exact ⟨⟨rfl, rfl⟩, rfl⟩
  · rw [startSection_section x s hr (by simp [hp]), if_neg (by simp [hp]), if_pos hl]
    exact ⟨⟨rfl, rfl⟩, rfl, rfl⟩
  · rw [startSection_section x s hr (by simp [hp]), if_neg (by simp [hp]), if_neg (by simp [ht]), if_pos ht]
    exact ⟨⟨rfl, rfl⟩, _, rfl, rfl, rfl, rfl, rfl, rfl, rfl⟩
  · rw [startSection_section x s hr (by simp [hp]), if_neg (by simp [hp]), if_neg (by obtain h | h := hd <;> simp [h]),
      if_neg (by obtain h | h := hd <;> simp [h])]
    exact ⟨⟨rfl, rfl⟩, rfl⟩

theorem startSection_section_ne {z : Sec} (h : z ≠ x) : (startSection x s).section_ z = s.section_ z :=
  startSection_own_leaves s x (.section_ z) (by simp [h])

theorem startSection_clock : (startSection x s).register.clock = s.register.clock :=
  startSection_own_leaves s x .clock (by simp)

end

section
variable (s : State)

/-- The state in which START's section decisions begin: the levers decided, the service state and its entry made. -/
def beginService (s : State) : State :=
  let s₁ := { s with levers := Vector.ofFn (startLever s) }
  let s₂ := s₁.report (foundAway s₁)
  (s₂.setService { s₂.service with state := .inService }).enter .service (.box .inService)

theorem enterService_eq : enterService s = startSection .c (startSection .b (startSection .a (beginService s))) := rfl

/-- Each section is decided as its own step decides it, at START's clock. -/
theorem beginService_section (x : Sec) : (beginService s).section_ x = s.section_ x := by
  simp only [beginService, State.section_, State.enter_sections, State.setService_sections, State.report_sections]

theorem beginService_clock : (beginService s).register.clock = s.register.clock := by
  simp only [beginService, State.enter_register, State.setService_register, State.report_register]

theorem enterService_startsAs (x : Sec) :
    (s.section_ x).StartsAs ((enterService s).section_ x) s.register.clock := by
  have step := startSection_startsAs x
  rw [enterService_eq, ← beginService_section, ← beginService_clock]
  generalize beginService s = u
  cases x with
  | a =>
    rw [startSection_section_ne _ _ (by simp), startSection_section_ne _ _ (by simp)]
    exact step _
  | b =>
    rw [startSection_section_ne _ _ (by simp), ← startSection_clock .a, ← startSection_section_ne .a _ (by simp)]
    exact step _
  | c =>
    rw [← startSection_clock .a, ← startSection_clock .b, ← startSection_section_ne .a _ (by simp),
      ← startSection_section_ne .b _ (by simp)]
    exact step _

theorem startSection_entries (x : Sec) {e : RegUnit × RegBody} (h : e ∈ s.inbox.entries) :
    e ∈ (startSection x s).inbox.entries :=
  (show EntersOnly _ s _ from startSection_own_leaves s x .entries (by simp)).grows.subset h

theorem enterService_entry : (.service, .box .inService) ∈ (enterService s).inbox.entries := by
  rw [enterService_eq]
  refine startSection_entries _ _ (startSection_entries _ _ (startSection_entries _ _ ?_))
  simp [beginService, State.enter]

theorem enterService_reports : (enterService s).link.reports = (beginService s).link.reports := by
  have h := fun x u => (show (startSection x u).link.reports = u.link.reports from
    startSection_own_leaves u x .reports (by simp))
  rw [enterService_eq, h, h, h]

theorem enterService_classes : (enterService s).link.classes = s.link.classes :=
  enterService_leaves s .classes (by simp [startParts, writes, lineParts, everyLever, everySection])

theorem enterService_queue : (enterService s).link.queue = s.link.queue := by
  have h := fun x u => (show (startSection x u).link.queue = u.link.queue from
    startSection_own_leaves u x .queue (by simp))
  rw [enterService_eq, h, h, h]
  simp only [beginService, State.enter_link, State.setService_link, State.report_link]

theorem enterService_state : (enterService s).service.state = .inService := by
  have h := fun x u => (show (startSection x u).service.state = u.service.state from
    startSection_own_leaves u x .serviceState (by simp))
  rw [enterService_eq, h, h, h]
  simp only [beginService, State.enter_service, State.setService_service]

/-! #### The levers found -/

theorem start_record (l : LeverData) (k : LeverContacts) (now : Nat) : (l.start k now).record = l.record := by
  unfold LeverData.start
  dsimp only
  split <;> rfl

/-- A lever with a record read from its contacts at START (R164). -/
theorem enterService_loaded {n : Lever} (h : (s.lever n).record ≠ none) :
    (enterService s).lever n = (s.lever n).start s.contacts.levers[n] s.now := by
  have hl : (s.lever n).loaded = true := by simpa [LeverData.loaded, Option.isSome_iff_ne_none] using h
  rw [enterService_lever, startLever, if_pos hl]

theorem foundAway_reported {n : Lever} (hl : (s.lever n).record ≠ none) (hc : s.link.classes.lev = true)
    (hp : ((enterService s).lever n).pos = .travel) : .lev n ∈ (enterService s).link.reports := by
  have hs : ∀ u : State, u.levers = Vector.ofFn (startLever s) → u.lever n = startLever s n := by
    intro u hu
    simp [State.lever, hu]
  rw [enterService_reports]
  simp only [beginService, State.enter_link, State.setService_link, State.report_link]
  rw [mem_addItems]
  refine .inr ⟨?_, hc⟩
  have hld : (startLever s n).loaded = true := by
    rw [← enterService_lever, enterService_loaded s hl, LeverData.loaded, start_record]
    exact Option.isSome_iff_ne_none.2 hl
  simp only [foundAway, List.mem_map, List.mem_filter, Item.lev.injEq, exists_eq_right, mem_allLevers, true_and,
    hs { s with levers := Vector.ofFn (startLever s) } rfl, hld]
  rw [← enterService_lever, hp]
  simp

/-- A lever at START before its contacts are read. -/
def LeverData.fresh (l : LeverData) : LeverData :=
  { l with lock := false, refused := false, stalled := false, limit := none, backlock := .idle }

/-- What START makes of a lever with a record, by its contacts (R20, R164). -/
def LeverData.StartsAs (l l' : LeverData) (n r : Prop) (now : Nat) : Prop :=
  (n → ¬r → l' = { l.fresh with pos := .nLocked, lastEnd := some .n }) ∧
  (¬n → r → l' = { l.fresh with pos := .rLocked, lastEnd := some .r }) ∧
  (n → r → l' = { l.fresh with pos := .fault, lastEnd := none }) ∧
  (¬n → ¬r → (l.approach = none → l' = { l.fresh with pos := .travel, lastEnd := none }) ∧
    ∀ a, l.approach = some a →
      l' = { l.fresh with pos := .backlocked, lastEnd := some .r, backlock := .timing (now + a.time * 1000) })

theorem start_startsAs (l : LeverData) (k : LeverContacts) (now : Nat) :
    l.StartsAs (l.start k now) (k.n.made = true) (k.r.made = true) now := by
  refine ⟨fun hn hr => ?_, fun hn hr => ?_, fun hn hr => ?_, fun hn hr => ⟨fun ha => ?_, fun a ha => ?_⟩⟩ <;>
    simp_all [LeverData.start, LeverData.fresh, posOfContacts, LeverPos.freshEnd]

/-- A lever with a record found away is reported, as one in travel or as one that has left it. -/
theorem enterService_reported {n : Lever} (hl : (s.lever n).record ≠ none) (hc : s.link.classes.lev = true)
    (hn : ¬s.contacts.levers[n].n.made = true) (hr : ¬s.contacts.levers[n].r.made = true)
    (ha : (s.lever n).pos = .travel ∨ (s.lever n).approach = none) (r : List Text) :
    .lev n ∈ (commit s (reply r (enterService s))).link.reports := by
  obtain ⟨-, -, -, h⟩ := start_startsAs (s.lever n) s.contacts.levers[n] s.now
  obtain ⟨hfree, hback⟩ := h hn hr
  rw [← enterService_loaded s hl] at hfree hback
  have hk : (reply r (enterService s)).link.classes.has (.lev n) = true := by
    show (enterService s).link.classes.lev = true
    rw [enterService_classes, hc]
  rw [commit_reports, mem_addItems]
  cases happ : (s.lever n).approach with
  | none => exact .inl (foundAway_reported s hl hc (by rw [hfree happ]))
  | some a =>
    have hp := ha.resolve_right (by simp [happ])
    refine .inr ⟨?_, hk⟩
    have hld : ((enterService s).lever n).loaded = true := by
      rw [hback a happ]
      exact Option.isSome_iff_ne_none.2 hl
    simp only [itemsFor, List.mem_append, List.mem_map, List.mem_filter, Item.lev.injEq, exists_eq_right,
      mem_allLevers, true_and, reply_lever, hld, leverItemChanged, hp]
    rw [hback a happ]
    simp

end

/-! #### Answers -/

section
variable {s : State} {ws : List Text}

/-- The reply of an accepted request, where its handling leaves the queue. -/
theorem repliesWith_commit_reply (r : List Text) {t : State} (hq : t.link.queue = s.link.queue) :
    repliesWith r s (commit s (reply r t)) := by
  refine repliesWith_commit ?_
  have h := reply_replies r t
  simp only [repliesWith, Link.frontTally, hq] at h ⊢
  exact h

theorem readDigest_malformed {a w : Text} {rest : List Text} (h : hex? 8 w = none) :
    readDigest (a :: w :: rest) = .error (.form (some 2)) := by
  show (match hex? 8 w with
    | none => (.error (.form (some 2)) : Parsed Nat)
    | some v => _) = _
  rw [h]

theorem readDigest_some {a w : Text} {v : Nat} (h : hex? 8 w = some v) : readDigest [a, w] = .ok v := by
  show (match hex? 8 w with
    | none => (.error (.form (some 2)) : Parsed Nat)
    | some v => _) = _
  rw [h]
  rfl

theorem handleStart_malformed {e : Err} (h : readDigest ws = .error e) : handleStart ws s = .error e := by
  rw [handleStart, h]
  rfl

theorem handleStart_failed {v : Nat} {why : List Text} (h : readDigest ws = .ok v) (hc : s.configError = some why) :
    handleStart ws s = .error (.start why) := by
  rw [handleStart, h, hc]
  rfl

theorem handleStart_otherDigest {v : Nat} (h : readDigest ws = .ok v) (hc : s.configError = none)
    (hv : v ≠ (crc32 (digestText s.storedItems)).toNat) :
    handleStart ws s = .error (.start [W.DIGEST, s.digestWord]) := by
  rw [handleStart, h, hc]
  exact if_neg hv

/-- A refused START. -/
theorem start_refused {e : Err} (hs : s.service.state = .configure) (ha : s.asks .start ws)
    (hf : handleStart ws s = .error e) :
    ∃ t, exec .start s = .next t ∧ repliesWith e.words s t ∧ keepsAllBut lineParts s t ∧ t.service.state = .configure := by
  have hr : requestStep .start inConfigure handleStart s = reply e.words s := by
    rw [requestStep_of_asks ha, if_pos (inConfigure_of hs), handle_error hf]
  have hv : (commit s (reply e.words s)).service = s.service := by rw [commit_service, reply_service]
  have hc : clearChangesAtStart s (commit s (reply e.words s)) = commit s (reply e.words s) :=
    if_pos (by rw [State.isIn, State.isIn, hv])
  refine ⟨commit s (reply e.words s), ?_, repliesWith_commit (reply_replies _ s), (reply_leaves _ s).commit, ?_⟩
  · show Host.Outcome.next (clearChangesAtStart s (commit s (requestStep .start inConfigure handleStart s))) = _
    rw [hr, hc]
  · rw [hv, hs]

/-- Taking back the changes START hands on changes nothing else. -/
theorem clearChangesAtStart_eq (t : State) :
    ∃ is, clearChangesAtStart s t = t.setInbox { t.inbox with changes := is } := by
  unfold clearChangesAtStart
  split
  · exact ⟨t.inbox.changes, rfl⟩
  · exact ⟨[], rfl⟩

/-- The end of an accepted START. -/
theorem start_accepted_spec {t : State} {r : List Text}
    (ht : t = clearChangesAtStart s (commit s (reply r (enterService s)))) :
    repliesWith r s t ∧ t.service.state = .inService ∧ (.service, .box .inService) ∈ t.inbox.entries ∧
      t.link.reports = (commit s (reply r (enterService s))).link.reports ∧
      (∀ n, t.lever n = (enterService s).lever n) ∧ ∀ x, t.section_ x = (enterService s).section_ x := by
  obtain ⟨is, h⟩ := clearChangesAtStart_eq (s := s) (commit s (reply r (enterService s)))
  rw [h] at ht
  have hr := repliesWith_commit_reply r (enterService_queue s)
  subst ht
  simp only [repliesWith, State.setInbox_link, State.setInbox_service, State.setInbox_lever, State.setInbox_section_,
    commit_service, commit_lever, commit_section, reply_service, reply_lever, reply_section] at hr ⊢
  refine ⟨hr, enterService_state s, ?_, trivial, fun _ => trivial, fun _ => trivial⟩
  show _ ∈ (commit s (reply r (enterService s))).inbox.entries
  rw [commit_entries]
  exact List.mem_append_left _ (List.mem_append_left _ (enterService_entry s))

theorem handleCheck_failed {why : List Text} (h : s.configError = some why) :
    (do
      only [W.CHECK] 1
      match s.configError with
      | some why => .error (.start why)
      | none => return [W.CHECK, s.digestWord] : Parsed (List Text)) = .error (.start why) := by
  rw [h]
  rfl

theorem handleCheck_passed (h : s.configError = none) :
    (do
      only [W.CHECK] 1
      match s.configError with
      | some why => .error (.start why)
      | none => return [W.CHECK, s.digestWord] : Parsed (List Text)) = .ok [W.CHECK, s.digestWord] := by
  rw [h]
  rfl

/-- Settles O51: the checks one by one, and the answers of CHECK and START with what an accepted START does. -/
theorem checkAndStart : Obligations.CheckAndStart := by
  refine ⟨fun s => ?_, fun s => ?_, fun s hs => ⟨fun ha => ?_, fun w rest hw ha => ?_, fun ha => ?_, fun w v ha hv => ?_⟩⟩
  · rw [configError_none_iff]
    simp only [State.entryUndefined, LockEntry.selfLocked, State.noTrack, State.noSection]
    push Not
    constructor
    · rintro ⟨hn, ⟨hu, hbw⟩, hself, htr, ⟨hsec, hbs⟩, ⟨hc, hab⟩, hv⟩
      refine ⟨hn, fun e he => ?_, fun ts hts => ⟨hbw ts hts, hbs (by simp [hts])⟩, fun n r hr => ?_, hc, hab⟩
      · obtain ⟨hx, hy, hcs⟩ := hu e he
        exact ⟨hx, hy, hcs, (hself e he).1, (hself e he).2, by simpa using hv e he⟩
      · exact ⟨(htr n r hr).1, (hsec n r hr).1, fun a ha => ⟨(htr n r hr).2 a ha, fun x hx => (hsec n r hr).2 a x ha hx⟩⟩
    · rintro ⟨hn, he, hb, hl, hc, hab⟩
      refine ⟨hn, ⟨fun e h => ?_, fun ts hts => (hb ts hts).1⟩, fun e h => ?_, fun n r hr => ?_,
        ⟨fun n r hr => ?_, fun hb' => ?_⟩, ⟨hc, hab⟩, fun e h => ?_⟩
      · obtain ⟨hx, hy, hcs, -⟩ := he e h
        exact ⟨hx, hy, hcs⟩
      · obtain ⟨-, -, -, hxy, hcs, -⟩ := he e h
        exact ⟨hxy, hcs⟩
      · obtain ⟨htr, -, ha⟩ := hl n r hr
        exact ⟨htr, fun a h => (ha a h).1⟩
      · obtain ⟨-, hblk, ha⟩ := hl n r hr
        exact ⟨hblk, fun a x h => (ha a h).2 x⟩
      · obtain ⟨ts, hts⟩ := Option.ne_none_iff_exists'.1 hb'
        exact (hb ts hts).2
      · obtain ⟨-, -, -, -, -, hv⟩ := he e h
        simp [hv]
  · intro worked loaded untracked given offer firstEntry firstLever undefined noTrack noSection fails check why hf hb
    refine configError_of_first ((checkAt_some check).2 hf) fun j hj => ?_
    rw [Option.eq_none_iff_forall_ne_some]
    exact fun other ho => hb j hj other ((checkAt_some j).1 ho)
  · have hx : exec .check s = .next (commit s (requestStep .check inConfigure handleCheck s)) := rfl
    cases hc : s.configError with
    | some why =>
      obtain ⟨t, ht, hr, -⟩ := request_answer_error (e := .start why) hx ha (inConfigure_of hs) rfl (handleCheck_failed hc)
      exact ⟨t, ht, fun y hy => by cases hy; exact hr, nofun⟩
    | none =>
      obtain ⟨t, ht, hr, -⟩ := request_answer (r := [W.CHECK, s.digestWord]) hx ha (inConfigure_of hs) rfl (handleCheck_passed hc)
      exact ⟨t, ht, nofun, fun _ => hr⟩
  · obtain ⟨t, ht, hr, hk, -⟩ := start_refused hs ha (handleStart_malformed (readDigest_malformed hw))
    exact ⟨t, ht, hr, hk⟩
  · obtain ⟨t, ht, hr, hk, -⟩ := start_refused hs ha (handleStart_malformed (e := .form (some 2)) rfl)
    exact ⟨t, ht, hr, hk⟩
  · have hd := readDigest_some (a := W.START) hv
    cases hc : s.configError with
    | some why =>
      obtain ⟨t, ht, hr, -, hst⟩ := start_refused hs ha (handleStart_failed hd hc)
      exact ⟨t, ht, fun y hy => by cases hy; exact ⟨hr, hst⟩, nofun, nofun⟩
    | none =>
      by_cases he : v = (crc32 (digestText s.storedItems)).toNat
      · obtain ⟨t, ht⟩ : ∃ t, t = clearChangesAtStart s
            (commit s (reply (success [W.START, s.digestWord]) (enterService s))) := ⟨_, rfl⟩
        have hx := start_accepted hs ha (he ▸ hv) hc
        rw [← ht] at hx
        refine ⟨t, hx, nofun, fun _ hne => absurd he hne, fun _ _ => ?_⟩
        obtain ⟨hr, hst, hent, hrep, hlev, hsec⟩ := start_accepted_spec ht
        refine ⟨hr, hst, hent, fun n hl => ?_, fun x => ?_⟩
        · obtain ⟨hn, hrv, hf, haway⟩ := start_startsAs (s.lever n) s.contacts.levers[n] s.now
          simp only [contact_leverN, contact_leverR, ← made_iff, hlev, enterService_loaded s hl]
          refine ⟨hn, hrv, hf, fun h₁ h₂ => ⟨fun hp hcl => ?_, haway h₁ h₂⟩⟩
          rw [hrep]
          exact enterService_reported s hl hcl h₁ h₂ hp _
        · rw [hsec]
          exact enterService_startsAs s x
      · obtain ⟨t, ht, hr, -, hst⟩ := start_refused hs ha (handleStart_otherDigest hd hc he)
        exact ⟨t, ht, nofun, fun _ _ => ⟨hr, hst⟩, fun _ h => absurd h he⟩

end

end Sys2Proof.Machine


/-! ### What each command takes of what was handed to its unit -/

namespace Sys2Proof.Machine

section
variable (s : State)

/-! #### The lever frame -/

theorem takeGrip_frame (n : Lever) : (takeGrip n s).inbox.frame = s.inbox.frame := by
  simp only [takeGrip, gripInService, requestFreedom]
  repeat' split
  all_goals rfl

theorem leaveN_frame (n : Lever) : (leaveN n s).inbox.frame = s.inbox.frame := by
  simp only [leaveN, forceOut]
  repeat' split
  all_goals rfl

theorem leaveR_frame (n : Lever) : (leaveR n s).inbox.frame = s.inbox.frame := by
  simp only [leaveR, forceOut]
  repeat' split
  all_goals rfl

theorem arrive_frame (n : Lever) (pos : LeverPos) : (arrive n pos s).inbox.frame = s.inbox.frame := by
  simp only [arrive]
  split <;> rfl

theorem arriveR_frame (n : Lever) : (arriveR n s).inbox.frame = s.inbox.frame := by
  simp only [arriveR]
  split
  · exact arrive_frame s n .rLocked
  · exact arrive_frame s n .rLocked

theorem takeBothMade_frame (n : Lever) : (takeBothMade n s).inbox.frame = s.inbox.frame := by
  simp only [takeBothMade]
  split <;> rfl

theorem takeBothBreak_frame (n : Lever) : (takeBothBreak n s).inbox.frame = s.inbox.frame := by
  simp only [takeBothBreak]
  split <;> rfl

/-- The first event of the lever leaves the list if it is the command's. -/
theorem leverStep_took (n : Lever) (e : LeverEvent) {f : State → State} (hf : ∀ t, (f t).inbox.frame = t.inbox.frame) :
    tookFirst (·.1 = n) (·.2 = e) s.inbox.frame (leverStep n e f s).inbox.frame := by
  refine tookFirst_of_takeFirst (p := fun w => decide (w.1 = n)) (by simp)
    (fun h => by simp [leverStep, takeLeverEvent, h]) fun ⟨m, e'⟩ rest h => ?_
  by_cases he : e' = e
  · simp only [leverStep, takeLeverEvent, h, he, if_true]
    split <;> simp [hf]
  · simp [leverStep, takeLeverEvent, h, he]

theorem freedomWithdrawn_took (n : Lever) :
    tookFirst (· = n) (fun _ => True) s.inbox.demands (freedomWithdrawn n s).inbox.demands := by
  refine tookFirst_of_takeFirst (p := fun m => decide (m = n)) (by simp) (fun h => by simp [freedomWithdrawn, h])
    fun m rest h => ?_
  simp only [freedomWithdrawn, h, takeDemand]
  split <;> simp

theorem backLockRelease_took (n : Lever) :
    tookFirst (· = n) (fun _ => True) s.inbox.backReleases (backLockRelease n s).inbox.backReleases := by
  refine tookFirst_of_takeFirst (p := fun m => decide (m = n)) (by simp) (fun h => by simp [backLockRelease, h])
    fun m rest h => ?_
  simp only [backLockRelease, h, takeBackRelease]
  split <;> simp

/-! #### Locking -/

theorem provingInputChange_took (g : Input) :
    tookFirst (· = g) (fun _ => True) s.inbox.inputs (provingInputChange g s).inbox.inputs := by
  refine tookFirst_of_takeFirst (p := fun m => decide (m = g)) (by simp) (fun h => by simp [provingInputChange, h])
    fun m rest h => ?_
  simp [provingInputChange, h]

/-- Taking the head of a list. -/
theorem tookFirst_head {α : Type} {due : α → Prop} {before after : List α} (hn : before = [] → after = [])
    (hc : ∀ h rest, before = h :: rest → (due h → after = rest) ∧ (¬due h → after = before)) :
    tookFirst (fun _ => True) due before after := by
  refine ⟨fun h => ?_, fun pre h post hb hp _ => ?_⟩
  · have : before = [] := List.eq_nil_iff_forall_not_mem.2 fun g hg => h g hg trivial
    rw [hn this, this]
  · have : pre = [] := List.eq_nil_iff_forall_not_mem.2 fun g hg => hp g hg trivial
    subst this
    exact hc h post hb

theorem reTest_took :
    tookFirst (fun _ => True) (fun _ => True) s.inbox.changes (commit s (reTest s)).inbox.changes :=
  tookFirst_head
    (fun h => by
      have hr : reTest s = s := by simp [reTest, h]
      rw [hr, commit_changes, h, changesFor_nil (fun _ => ⟨rfl, rfl⟩) (fun _ => rfl) fun _ => ⟨rfl, rfl⟩]
      rfl)
    fun _ _ h => ⟨fun _ => reTest_changes h, fun hn => absurd trivial hn⟩

/-! #### The bells -/

theorem pressTaken_tappers (p : Sec) : (pressTaken p s).inbox.tappers = s.inbox.tappers := by
  simp only [pressTaken, beginOut]
  repeat' split
  all_goals rfl

theorem releaseTaken_tappers (p : Sec) : (releaseTaken p s).inbox.tappers = s.inbox.tappers := by
  simp only [releaseTaken]
  repeat' split
  all_goals rfl

/-- The first event of the tapper leaves the list if it is the command's. -/
theorem takeTapper_took (p : Sec) (press : Bool) {f : State → State}
    (hf : ∀ t, (f t).inbox.tappers = t.inbox.tappers) : tookFirst (·.1 = p) (·.2 = press) s.inbox.tappers
      (match takeTapper p press s with
        | none => s
        | some t => f t).inbox.tappers := by
  refine tookFirst_of_takeFirst (p := fun w => decide (w.1 = p)) (by simp) (fun h => by simp [takeTapper, h])
    fun ⟨q, e⟩ rest h => ?_
  by_cases he : e = press <;> simp [takeTapper, h, he, hf]

theorem tapperPress_took (p : Sec) :
    tookFirst (·.1 = p) (·.2 = true) s.inbox.tappers (tapperPress p s).inbox.tappers :=
  takeTapper_took s p true (f := fun t => if t.tapperWorks p then pressTaken p t else t) fun t => by
    split
    · exact pressTaken_tappers t p
    · rfl

theorem tapperRelease_took (p : Sec) :
    tookFirst (·.1 = p) (·.2 = false) s.inbox.tappers (tapperRelease p s).inbox.tappers :=
  takeTapper_took s p false fun t => releaseTaken_tappers t p

/-! #### The block -/

/-- Taking a code: the result and the marking take no other. -/
theorem codes_of_marked {x : Sec} {t : State} {r : Option State} (hr : ∀ u, r = some u → u.inbox.codes = t.inbox.codes)
    (k : SectionData) (m : Option Mark) : ((r.getD t).setMark x k m).inbox.codes = t.inbox.codes := by
  cases r with
  | none => simp [State.setMark]
  | some u => simp [State.setMark, hr u rfl]

theorem outCodeTaken_took (x : Sec) :
    tookFirst (·.port = x) (·.dir = .outgoing) s.inbox.codes (outCodeTaken x s).inbox.codes := by
  refine tookFirst_of_takeFirst (p := fun h => decide (h.port = x)) (by simp)
    (fun h => by simp [outCodeTaken, takeCode, h]) fun k rest h => ?_
  by_cases hd : k.dir = .outgoing
  · refine ⟨fun _ => ?_, fun hn => absurd hd hn⟩
    simp only [outCodeTaken, takeCode, h, hd, decide_true, if_true]
    exact codes_of_marked (fun u hu => outCodeResult_leaves x _ hu .handedCodes (by simp)) _ _
  · simp [outCodeTaken, takeCode, h, hd]

theorem inCodeTaken_took (x : Sec) :
    tookFirst (·.port = x) (·.dir ≠ .outgoing) s.inbox.codes (inCodeTaken x s).inbox.codes := by
  refine tookFirst_of_takeFirst (p := fun h => decide (h.port = x)) (by simp)
    (fun h => by simp [inCodeTaken, takeCode, h]) fun k rest h => ?_
  by_cases hd : k.dir = .outgoing
  · simp [inCodeTaken, takeCode, h, hd]
  · refine ⟨fun _ => ?_, fun hn => absurd hd hn⟩
    simp only [inCodeTaken, takeCode, h, hd, decide_false, if_true]
    refine codes_of_marked (t := s.setInbox _) (fun u hu => ?_) _ _
    split at hu
    · exact inCodeResult_leaves x _ hu .handedCodes (by simp)
    · cases hu

/-- The first arrival of the section's switch leaves the list if it is the command's. -/
theorem takeSwitch_took (x : Sec) (i : Ind) {f : State → State} (hf : ∀ t, Leaves [.section_ x] t (f t)) :
    tookFirst (·.1 = x) (·.2 = i) s.inbox.switches
      (match takeSwitch x i s with
        | none => s
        | some t => f t).inbox.switches := by
  have hf : ∀ t, (f t).inbox.switches = t.inbox.switches := fun t => hf t .switches (by simp)
  refine tookFirst_of_takeFirst (p := fun w => decide (w.1 = x)) (by simp) (fun h => by simp [takeSwitch, h])
    fun ⟨q, e⟩ rest h => ?_
  by_cases he : e = i <;> simp [takeSwitch, h, he, hf]

theorem blockControlArrival_took (n : Lever) :
    tookFirst (· = n) (fun _ => True) s.inbox.atR (blockControlArrival n s).inbox.atR := by
  refine tookFirst_of_takeFirst (p := fun m => decide (m = n)) (by simp) (fun h => by simp [blockControlArrival, h])
    fun m rest h => ?_
  simp only [blockControlArrival, h]
  split <;> simp

theorem releasePlungerPress_took (x : Sec) :
    tookFirst (· = x) (fun _ => True) s.inbox.plungers (releasePlungerPress x s).inbox.plungers := by
  refine tookFirst_of_takeFirst (p := fun m => decide (m = x)) (by simp) (fun h => by simp [releasePlungerPress, h])
    fun m rest h => ?_
  have hp : ∀ t, (pressPlunger x t).inbox.plungers = t.inbox.plungers := fun t =>
    pressPlunger_leaves x t .plungers (by simp)
  simp [releasePlungerPress, h, hp]

/-! #### The Service controller -/

theorem codeExchangeUpdate_took (p : Sec) :
    tookFirst (·.port = p) (fun _ => True) s.inbox.exchange (codeExchangeUpdate p s).inbox.exchange := by
  refine tookFirst_of_takeFirst (p := fun h => decide (h.port = p)) (by simp)
    (fun h => by simp [codeExchangeUpdate, h]) fun k rest h => ?_
  have hr : ∀ t, (recordCode k t).inbox.exchange = t.inbox.exchange := fun t => by
    simp only [recordCode]
    repeat' split
    all_goals rfl
  simp [codeExchangeUpdate, h, hr]

theorem throughIndicatorRepeat_took (p : Sec) :
    tookFirst (· = p) (fun _ => True) s.inbox.readings (throughIndicatorRepeat p s).inbox.readings := by
  refine tookFirst_of_takeFirst (p := fun m => decide (m = p)) (by simp)
    (fun h => by simp [throughIndicatorRepeat, h]) fun k rest h => ?_
  have hr : ∀ t, (repeatReading p t).inbox.readings = t.inbox.readings := fun t =>
    repeatReading_leaves p t .readings (by simp)
  simp only [throughIndicatorRepeat, h]
  split <;> simp [hr]

/-- The first arrival of the box switch leaves the list if it is the command's. -/
theorem takeBox_took (b : BoxPos) {f : State → State} (hf : ∀ t, (f t).inbox.box = t.inbox.box) :
    tookFirst (fun _ => True) (· = b) s.inbox.box
      (match takeBox b s with
        | none => s
        | some t => f t).inbox.box := by
  refine tookFirst_head (fun h => by simp [takeBox, h]) fun k rest h => ?_
  by_cases hk : k = b <;> simp [takeBox, h, hk, hf]

theorem enterLoaded_box (st : SecState) (x : Sec) : (enterLoaded st x s).inbox.box = s.inbox.box :=
  enterLoaded_leaves x s st .box (by simp)

theorem enterSwitchedOut_box : (enterSwitchedOut s).inbox.box = s.inbox.box := by
  have he := fun x st o t => (show (endSec x st o t).inbox.box = t.inbox.box from endSec_leaves x t st o .box (by simp))
  have hr := fun p t => (show (repeatReading p t).inbox.box = t.inbox.box from
    repeatReading_leaves p t .box (by simp))
  have hc := fun p t => (show (cutTapper p t).inbox.box = t.inbox.box from cutTapper_leaves p t .box (by simp))
  have hm := fun t => (show (clearMarks t).inbox.box = t.inbox.box from clearMarks_leaves t .box (by simp))
  simp only [enterSwitchedOut, State.enter_inbox_box, State.setService_inbox, hm, hc, hr, enterLoaded_box, he]

theorem enterSwitchedIn_box : (enterSwitchedIn s).inbox.box = s.inbox.box := by
  have hc := fun p t => (show (cutRepeat p t).inbox.box = t.inbox.box from
    cutRepeat_leaves p t .box (by simp [portAndPair]))
  have hm := fun t => (show (clearMarks t).inbox.box = t.inbox.box from clearMarks_leaves t .box (by simp))
  simp only [enterSwitchedIn, State.enter_inbox_box, State.setService_inbox, hm, hc, enterLoaded_box]

theorem turnOut_box : (turnOut s).inbox.box = s.inbox.box := by
  simp only [turnOut, State.setRefusal]
  repeat' split
  all_goals simp [enterSwitchedOut_box]

theorem turnIn_box : (turnIn s).inbox.box = s.inbox.box := by
  simp only [turnIn, State.setRefusal]
  repeat' split
  all_goals simp [enterSwitchedIn_box]

/-! #### The changes of tracks handed to a section -/

theorem takeFirst_append {α : Type} {p : α → Bool} {h : α} (hh : p h = true) (post : List α) :
    ∀ {pre : List α}, (∀ g ∈ pre, p g = false) → takeFirst p (pre ++ h :: post) = some (h, pre ++ post)
  | [], _ => by simp [takeFirst, hh]
  | g :: pre, hp => by
    have hg := hp g (by simp)
    have ih := takeFirst_append hh post fun a ha => hp a (List.mem_cons_of_mem g ha)
    simp [takeFirst, hg, ih]

theorem takeFirst_ne {α : Type} {p : α → Bool} {ys zs : List α} {z : α} (h : takeFirst p ys = some (z, zs)) :
    zs ≠ ys := by
  obtain ⟨as, bs, rfl, rfl, -, -⟩ := takeFirst_some h
  intro he
  simpa using congrArg List.length he

theorem autoTolFor_nil {s t : State} (hc : ∀ c, (t.circuit c).state = (s.circuit c).state) : autoTolFor s t = [] := by
  refine List.filter_eq_nil_iff.2 fun x _ => ?_
  split
  · simp
  · simp [State.clear, hc]

theorem progressFor_nil {s t : State} (hc : ∀ c, (t.circuit c).state = (s.circuit c).state) : progressFor s t = [] := by
  have h : changedCircuits s t = [] := by simp [changedCircuits, hc]
  simp [progressFor, progressOf, h]

/-- A step that changes no circuit hands no section a change. -/
theorem commit_tracks {s u : State} (h : u.track = s.track) :
    (commit s u).inbox.autoTol = u.inbox.autoTol ∧ (commit s u).inbox.progress = u.inbox.progress := by
  have hc : ∀ c, (u.circuit c).state = (s.circuit c).state := fun c => by rw [State.circuit, h, State.circuit]
  rw [commit_autoTol, commit_progress, autoTolFor_nil hc, progressFor_nil hc]
  simp

section
variable {s} (x : Sec)

theorem autoTol_none (h : takeFirst (fun y => decide (y = x)) s.inbox.autoTol = none) : autoTol x s = s := by
  simp [autoTol, h]

/-- AUTO_TOL takes the change out of both lists. -/
theorem autoTol_some {y : Sec} {rest : List Sec} (h : takeFirst (fun y => decide (y = x)) s.inbox.autoTol = some (y, rest)) :
    (autoTol x s).inbox.autoTol = rest ∧
      (autoTol x s).inbox.progress = dropFirst (s.isFall x) s.inbox.progress := by
  have hl : Leaves [.section_ x]
      (s.setInbox { s.inbox with autoTol := rest, progress := dropFirst (s.isFall x) s.inbox.progress }) (autoTol x s) := by
    simp only [autoTol, h]
    split
    · exact enterEnteredIn_leaves x _ true
    · exact progressCheck_leaves x _
  exact ⟨hl .autoTol (by simp), hl .progress (by simp)⟩

theorem takeProgress_none (h : takeFirst (fun g : TrackHanded => decide (g.sec = x)) s.inbox.progress = none) :
    takeProgress x s = s := by
  simp [takeProgress, h]

/-- A change on which auto-TOL acts is left to it. -/
theorem takeProgress_left {g : TrackHanded} {rest : List TrackHanded}
    (h : takeFirst (fun g : TrackHanded => decide (g.sec = x)) s.inbox.progress = some (g, rest))
    (hd : (s.isFall x g && decide (x ∈ s.inbox.autoTol) && (s.section_ x).autoTolActs) = true) : takeProgress x s = s := by
  simp only [takeProgress, h, hd, if_true]

/-- Any other change is taken, and one of the first arrival track from CLEAR out of both lists. -/
theorem takeProgress_taken {g : TrackHanded} {rest : List TrackHanded}
    (h : takeFirst (fun g : TrackHanded => decide (g.sec = x)) s.inbox.progress = some (g, rest))
    (hd : (s.isFall x g && decide (x ∈ s.inbox.autoTol) && (s.section_ x).autoTolActs) = false) :
    (takeProgress x s).inbox.progress = rest ∧ (takeProgress x s).inbox.autoTol =
      if s.isFall x g = true then dropFirst (fun y => decide (y = x)) s.inbox.autoTol else s.inbox.autoTol := by
  have hp : ∀ t, (progressCheck x t).inbox.progress = t.inbox.progress ∧
      (progressCheck x t).inbox.autoTol = t.inbox.autoTol := fun t =>
    ⟨progressCheck_leaves x t .progress (by simp), progressCheck_leaves x t .autoTol (by simp)⟩
  simp only [takeProgress, h, hd, Bool.false_eq_true, if_false]
  split
  · exact ⟨(hp _).1, (hp _).2⟩
  · exact ⟨rfl, rfl⟩

theorem autoTol_track : (autoTol x s).track = s.track := autoTol_leaves x s .track (by simp)

theorem takeProgress_track : (takeProgress x s).track = s.track := takeProgress_leaves x s .track (by simp)

theorem due_iff (g : TrackHanded) :
    (s.isFall x g && decide (x ∈ s.inbox.autoTol) && (s.section_ x).autoTolActs) = true ↔
      s.isFall x g = true ∧ x ∈ s.inbox.autoTol ∧ (s.section_ x).autoTolActs = true := by
  simp [and_assoc]

end

theorem autoTol_takes (x : Sec) : Instr.takes (.autoTol x) s (commit s (autoTol x s)) := by
  obtain ⟨ha, hp⟩ := commit_tracks (autoTol_track (s := s) x)
  simp only [Instr.takes, ha, hp]
  refine ⟨?_, fun hx => ?_, fun hx => ?_⟩
  · exact tookFirst_of_takeFirst (p := fun y => decide (y = x)) (by simp) (fun h => by rw [autoTol_none x h])
      fun y rest h => ⟨fun _ => (autoTol_some x h).1, fun hn => absurd trivial hn⟩
  · obtain ⟨rest, h⟩ := takeFirst_of_mem hx
    rw [(autoTol_some x h).2]
    exact tookFirst_dropFirst (isFall_iff s x) _
  · rw [autoTol_none x (takeFirst_none.2 (by simpa using fun y hy => ne_of_mem_of_not_mem hy hx))]

theorem takeProgress_takes (x : Sec) : Instr.takes (.progressCheck x) s (commit s (takeProgress x s)) := by
  obtain ⟨ha, hp⟩ := commit_tracks (takeProgress_track (s := s) x)
  simp only [Instr.takes, ha, hp, ← isFall_iff, ← autoTolActs_iff]
  refine ⟨?_, fun pre g post hb hpre hg hdue => ?_, fun he => ?_⟩
  · refine tookFirst_of_takeFirst (p := fun g => decide (g.sec = x)) (by simp) (fun h => by rw [takeProgress_none x h])
      fun g rest h => ⟨fun hd => ?_, fun hd => ?_⟩
    · exact (takeProgress_taken x h (by simpa [← due_iff] using hd)).1
    · rw [takeProgress_left x h ((due_iff x g).2 (not_not.1 hd))]
  · have h : takeFirst (fun g : TrackHanded => decide (g.sec = x)) s.inbox.progress = some (g, pre ++ post) := by
      rw [hb]
      exact takeFirst_append (by simpa using hg) post (by simpa using hpre)
    rw [(takeProgress_taken x h (by simpa [← due_iff] using hdue)).2]
    refine ⟨fun hf => ?_, fun hf => by simp [hf]⟩
    rw [if_pos hf]
    exact tookFirst_dropFirst (by simp) _
  · cases h : takeFirst (fun g : TrackHanded => decide (g.sec = x)) s.inbox.progress with
    | none => rw [takeProgress_none x h]
    | some r =>
      obtain ⟨g, rest⟩ := r
      by_cases hd : (s.isFall x g && decide (x ∈ s.inbox.autoTol) && (s.section_ x).autoTolActs) = true
      · rw [takeProgress_left x h hd]
      · exact absurd ((takeProgress_taken x h (by simpa using hd)).1.symm.trans he) (takeFirst_ne h)

end

/-- Settles O3: what every command keeps, and what each takes from its list. -/
theorem frameOfRailwayUnits : Obligations.FrameOfRailwayUnits := by
  intro c s t hc h
  have hr : ∀ b, c ≠ .reset b ∧ c ≠ .restartPowerUp b := by
    refine fun b => ⟨?_, ?_⟩ <;> rintro rfl <;> simp [Instr.family] at hc
  refine ⟨exec_keeps hr h, ?_⟩
  cases c with
  | grip n =>
    cases h
    simp only [Instr.takes, commit_inbox_frame]
    exact leverStep_took s n .grip fun t => takeGrip_frame t n
  | gripEnd n =>
    cases h
    simp only [Instr.takes, commit_inbox_frame]
    exact leverStep_took s n .gripEnd fun _ => rfl
  | leavingN n =>
    cases h
    simp only [Instr.takes, commit_inbox_frame]
    exact leverStep_took s n .leavingN fun t => leaveN_frame t n
  | leavingR n =>
    cases h
    simp only [Instr.takes, commit_inbox_frame]
    exact leverStep_took s n .leavingR fun t => leaveR_frame t n
  | arrivalAtN n =>
    cases h
    simp only [Instr.takes, commit_inbox_frame]
    exact leverStep_took s n .arrivalN fun t => arrive_frame t n .nLocked
  | arrivalAtR n =>
    cases h
    simp only [Instr.takes, commit_inbox_frame]
    exact leverStep_took s n .arrivalR fun t => arriveR_frame t n
  | bothMade n =>
    cases h
    simp only [Instr.takes, commit_inbox_frame]
    exact leverStep_took s n .bothMade fun t => takeBothMade_frame t n
  | bothContactsBreak n =>
    cases h
    simp only [Instr.takes, commit_inbox_frame]
    exact leverStep_took s n .bothBreak fun t => takeBothBreak_frame t n
  | freedomWithdrawn n =>
    cases h
    simp only [Instr.takes, commit_inbox_demands]
    exact freedomWithdrawn_took s n
  | backLockRelease n =>
    cases h
    simp only [Instr.takes, commit_inbox_backReleases]
    exact backLockRelease_took s n
  | provingInputChange g =>
    cases h
    simp only [Instr.takes, commit_inbox_inputs]
    exact provingInputChange_took s g
  | reTest =>
    cases h
    exact reTest_took s
  | tapperPress p =>
    cases h
    simp only [Instr.takes, commit_inbox_tappers]
    exact tapperPress_took s p
  | tapperRelease p =>
    cases h
    simp only [Instr.takes, commit_inbox_tappers]
    exact tapperRelease_took s p
  | outCodeTaken x =>
    cases h
    simp only [Instr.takes, commit_inbox_codes]
    exact outCodeTaken_took s x
  | inCodeTaken x =>
    cases h
    simp only [Instr.takes, commit_inbox_codes]
    exact inCodeTaken_took s x
  | arrivalAtLC x =>
    cases h
    simp only [Instr.takes, commit_inbox_switches]
    exact takeSwitch_took s x .lc (switchLC_leaves x)
  | arrivalAtTOL x =>
    cases h
    simp only [Instr.takes, commit_inbox_switches]
    exact takeSwitch_took s x .tol (switchTOL_leaves x)
  | arrivalAtLB x =>
    cases h
    simp only [Instr.takes, commit_inbox_switches]
    exact takeSwitch_took s x .lb (switchLB_leaves x)
  | blockControlArrival n =>
    cases h
    simp only [Instr.takes, commit_inbox_atR]
    exact blockControlArrival_took s n
  | autoTol x =>
    cases h
    exact autoTol_takes s x
  | progressCheck x =>
    cases h
    exact takeProgress_takes s x
  | releasePlungerPress x =>
    cases h
    simp only [Instr.takes, commit_inbox_plungers]
    exact releasePlungerPress_took s x
  | codeExchangeUpdate p =>
    cases h
    simp only [Instr.takes, commit_inbox_exchange]
    exact codeExchangeUpdate_took s p
  | throughIndicatorRepeat p =>
    cases h
    simp only [Instr.takes, commit_inbox_readings]
    exact throughIndicatorRepeat_took s p
  | arrivalAtOut =>
    cases h
    simp only [Instr.takes, commit_inbox_box]
    exact takeBox_took s .out turnOut_box
  | arrivalAtIn =>
    cases h
    simp only [Instr.takes, commit_inbox_box]
    exact takeBox_took s .inn turnIn_box
  | registerAppend u => simp [Instr.family] at hc
  | signallerActivity => simp [Instr.family] at hc
  | diagramServiceChange => simp [Instr.family] at hc
  | _ => trivial

end Sys2Proof.Machine


/-! ### What the end of every step hands on -/

namespace Sys2Proof.Machine

/-! #### The items and changes of a step -/

/-- The values of the item LEV n. -/
def State.levKey (s : State) (n : Lever) : LeverPos × Bool × Bool × Bool × Bool :=
  ((s.lever n).pos, (s.lever n).lock, (s.lever n).refused, (s.lever n).forced, (s.lever n).stalled)

/-- The values of the item SEC s. -/
def State.secKey (s : State) (x : Sec) :=
  let k := s.section_ x
  ((k.state, k.drive, k.releaseUnused, k.cancelHeard, k.enteringHeard, k.timer, k.released, k.releases, k.reading),
    k.position, k.train, k.sentMark, k.rcvdMark, (s.port x).held, (s.port x).suppressed, (s.port x).sent,
    (s.port x).rcvd)

/-- The values of the item BOX. -/
def State.boxKey (s : State) :=
  (s.service.state, s.service.position, s.service.disagree, s.service.refusal, s.track.actual, s.track.extended)

/-- An item changed between two states (R19, R75, R114, R126). -/
def ItemChanged (s t : State) : Item → Prop
  | .lev n => (t.lever n).record ≠ none ∧ s.levKey n ≠ t.levKey n
  | .tc k => (s.circuit k).state ≠ (t.circuit k).state
  | .sec x => s.secKey x ≠ t.secKey x
  | .box => s.boxKey ≠ t.boxKey

def State.arrivalOf (s : State) (x : Sec) : List Circuit := ((s.section_ x).record.map (·.arrival)).getD []

def State.clearingOf (s : State) (x : Sec) : List Circuit := ((s.section_ x).record.map (·.clearing)).getD []

/-- The first arrival track of the section goes from CLEAR to not CLEAR. -/
def Falls (s t : State) (x : Sec) : Prop :=
  ∃ k rest, t.arrivalOf x = k :: rest ∧ (s.circuit k).state = .clear ∧ (t.circuit k).state ≠ .clear

/-- A track of the section's record changes its state. -/
def Moves (s t : State) (x : Sec) (k : Circuit) : Prop :=
  (k ∈ t.arrivalOf x ∨ k ∈ t.clearingOf x) ∧ (s.circuit k).state ≠ (t.circuit k).state

/-- What is handed to the Locking unit; `once` where each circuit changes at most once. -/
def ChangesHanded (once : Prop) (s t : State) : Prop :=
  ∃ added, t.inbox.changes = s.inbox.changes ++ added ∧
    (∀ n, .lever n ∈ added ↔ (t.lever n).record ≠ none ∧ ((s.lever n).pos ≠ (t.lever n).pos ∨
      ((s.lever n).pos = .travel ∧ (s.lever n).lock = true ∧ (t.lever n).lock = false))) ∧
    (∀ k, (s.circuit k).state ≠ (t.circuit k).state → .track k (s.circuit k).state ∈ added) ∧
    (once → ∀ k was, .track k was ∈ added → (s.circuit k).state ≠ (t.circuit k).state ∧ was = (s.circuit k).state) ∧
    ∀ x, (∀ was, .sec x was ∈ added ↔ (s.section_ x).state ≠ (t.section_ x).state ∧ was = (s.section_ x).state) ∧
      (.release x ∈ added ↔ (s.section_ x).releaseUnused ≠ (t.section_ x).releaseUnused)

/-- What is handed to AUTO_TOL. -/
def AutoTolHanded (once : Prop) (s t : State) : Prop :=
  ∃ added, t.inbox.autoTol = s.inbox.autoTol ++ added ∧
    ∀ x, (Falls s t x → x ∈ added) ∧ (once → x ∈ added → Falls s t x)

/-- What is handed to the sections. -/
def ProgressHanded (once : Prop) (s t : State) : Prop :=
  ∃ added, t.inbox.progress = s.inbox.progress ++ added ∧ ∀ x k,
    (Moves s t x k → ⟨x, k, (s.circuit k).state⟩ ∈ added) ∧
      (once → ∀ was, ⟨x, k, was⟩ ∈ added → Moves s t x k ∧ was = (s.circuit k).state)

/-- The change of service state handed on. -/
def ServiceHanded (s t : State) : Prop :=
  t.inbox.service = s.inbox.service ++
    (if s.service.state = t.service.state then [] else [(s.service.state, t.service.state)])

/-- The entries of a step, the unit's own and the DISAGREE entries behind them. -/
def EntriesHanded (auto : Sec → Bool) (s t : State) : Prop :=
  ∃ own, (∀ u x, (u, RegBody.disagree x) ∉ own) ∧ (∀ x, Told x (auto x) (s.section_ x) (t.section_ x) own) ∧
    t.inbox.entries = s.inbox.entries ++ own ++ (disagreeFor s t).map (.block, ·) ++
      (boxDisagreeFor s t).map (.service, ·)

/-- The changed items of notified classes are in the pending set. -/
def ReportsHanded (s t : State) : Prop :=
  ∀ i, ItemChanged s t i → t.link.classes.has i = true → i ∈ t.link.reports

/-- A BELL latch is set where a beat in progress becomes true. -/
def LatchesSet (s t : State) : Prop :=
  ∀ p, (s.port p).beatInProgress = false → (t.port p).beatInProgress = true → t.diagram.latches.get p = true

section
variable {s t u : State}

theorem arrivalOf_eq (s : State) (x : Sec) : s.arrivalOf x = (s.section_ x).arrivals := by
  unfold State.arrivalOf SectionData.arrivals
  cases (s.section_ x).record <;> rfl

theorem clearingOf_eq (s : State) (x : Sec) : s.clearingOf x = (s.section_ x).clearings := by
  unfold State.clearingOf SectionData.clearings
  cases (s.section_ x).record <;> rfl

theorem mem_changedLevers (n : Lever) : n ∈ changedLevers s t ↔ (t.lever n).record ≠ none ∧
    ((s.lever n).pos ≠ (t.lever n).pos ∨
      ((s.lever n).pos = .travel ∧ (s.lever n).lock = true ∧ (t.lever n).lock = false)) := by
  by_cases hp : (s.lever n).pos = (t.lever n).pos
  · simp [changedLevers, leverStateChanged, LeverData.granted, mem_allLevers, loaded_iff, hp]
    tauto
  · simp [changedLevers, leverStateChanged, mem_allLevers, loaded_iff, hp]

theorem mem_changedCircuits (k : Circuit) : k ∈ changedCircuits s t ↔ (s.circuit k).state ≠ (t.circuit k).state := by
  simp [changedCircuits, allCircuits]

theorem mem_changedSections (x : Sec) : x ∈ changedSections s t ↔ (s.section_ x).state ≠ (t.section_ x).state := by
  simp [changedSections, mem_allSections]

theorem mem_changedReleases (x : Sec) :
    x ∈ changedReleases s t ↔ (s.section_ x).releaseUnused ≠ (t.section_ x).releaseUnused := by
  simp [changedReleases, mem_allSections]

/-! What the changes of a step are, kind by kind. -/

theorem lever_mem_changesFor (n : Lever) : .lever n ∈ changesFor s t ↔ n ∈ changedLevers s t := by
  simp [changesFor]

theorem track_mem_changesFor (k : Circuit) (was : TrackState) :
    .track k was ∈ changesFor s t ↔ k ∈ changedCircuits s t ∧ was = (s.circuit k).state := by
  simp only [changesFor, List.mem_append, List.mem_map, reduceCtorEq, and_false, exists_false, false_or, or_false,
    Change.track.injEq]
  exact ⟨fun ⟨_, h, rfl, hw⟩ => ⟨h, hw.symm⟩, fun ⟨h, hw⟩ => ⟨k, h, rfl, hw.symm⟩⟩

theorem sec_mem_changesFor (x : Sec) (was : SecState) :
    .sec x was ∈ changesFor s t ↔ x ∈ changedSections s t ∧ was = (s.section_ x).state := by
  simp only [changesFor, List.mem_append, List.mem_map, reduceCtorEq, and_false, exists_false, false_or, or_false,
    Change.sec.injEq]
  exact ⟨fun ⟨_, h, rfl, hw⟩ => ⟨h, hw.symm⟩, fun ⟨h, hw⟩ => ⟨x, h, rfl, hw.symm⟩⟩

theorem release_mem_changesFor (x : Sec) : .release x ∈ changesFor s t ↔ x ∈ changedReleases s t := by
  simp [changesFor]

/-! When an item of a step changed. -/

theorem leverItemChanged_iff (n : Lever) :
    leverItemChanged (s.lever n) (t.lever n) = true ↔ s.levKey n ≠ t.levKey n := by
  simp only [leverItemChanged, State.levKey, decide_eq_true_eq, ne_eq, Prod.mk.injEq]
  tauto

theorem sectionItemChanged_iff (x : Sec) :
    sectionItemChanged (s.section_ x) (t.section_ x) (s.port x) (t.port x) = true ↔ s.secKey x ≠ t.secKey x := by
  have hk : ∀ a b : SectionData, { a with record := b.record, showing := b.showing, unsettled := b.unsettled } = b ↔
      ((a.state, a.drive, a.releaseUnused, a.cancelHeard, a.enteringHeard, a.timer, a.released, a.releases, a.reading),
        a.position, a.train, a.sentMark, a.rcvdMark) =
      ((b.state, b.drive, b.releaseUnused, b.cancelHeard, b.enteringHeard, b.timer, b.released, b.releases, b.reading),
        b.position, b.train, b.sentMark, b.rcvdMark) := by
    intro a b
    cases a
    cases b
    simp only [SectionData.mk.injEq, Prod.mk.injEq]
    tauto
  have h := hk (s.section_ x) (t.section_ x)
  simp only [sectionItemChanged, State.secKey, decide_eq_true_eq, ne_eq, h]
  simp only [Prod.mk.injEq]
  tauto

theorem boxItemChanged_iff : boxItemChanged s t = true ↔ s.boxKey ≠ t.boxKey := by
  simp only [boxItemChanged, State.boxKey, decide_eq_true_eq, ne_eq, Prod.mk.injEq]
  tauto

theorem mem_itemsFor (i : Item) : i ∈ itemsFor s t ↔ ItemChanged s t i := by
  cases i with
  | lev n => simp [itemsFor, ItemChanged, mem_allLevers, loaded_iff, leverItemChanged_iff]
  | tc k => simp [itemsFor, ItemChanged, mem_changedCircuits]
  | sec x => simp [itemsFor, ItemChanged, mem_allSections, sectionItemChanged_iff]
  | box => simp [itemsFor, ItemChanged, boxItemChanged_iff]

/-! #### The end of one step -/

theorem commit_changesHanded {pre : List Change} (hc : u.inbox.changes = s.inbox.changes ++ pre)
    (hp : ∀ d ∈ pre, ∃ g, d = .input g) : ChangesHanded True s (commit s u) := by
  have hpre : ∀ d, (∀ g, d ≠ .input g) → (d ∈ pre ++ changesFor s u ↔ d ∈ changesFor s u) := by
    intro d hd
    rw [List.mem_append]
    refine or_iff_right fun hm => ?_
    obtain ⟨g, rfl⟩ := hp d hm
    exact hd g rfl
  refine ⟨pre ++ changesFor s u, by rw [commit_changes, hc, List.append_assoc], fun n => ?_, fun k hk => ?_,
    fun _ k was hm => ?_, fun x => ⟨fun was => ?_, ?_⟩⟩ <;>
    simp only [commit_lever, commit_circuit, commit_section] at *
  · rw [hpre _ (by simp), lever_mem_changesFor, mem_changedLevers]
  · rw [hpre _ (by simp), track_mem_changesFor, mem_changedCircuits]
    exact ⟨hk, rfl⟩
  · rwa [hpre _ (by simp), track_mem_changesFor, mem_changedCircuits] at hm
  · rw [hpre _ (by simp), sec_mem_changesFor, mem_changedSections]
  · rw [hpre _ (by simp), release_mem_changesFor, mem_changedReleases]

theorem mem_autoTolFor (x : Sec) : x ∈ autoTolFor s t ↔ Falls s t x := by
  simp only [autoTolFor, List.mem_filter, mem_allSections, true_and, Falls, arrivalOf_eq]
  split
  · rename_i h
    simp [h]
  · rename_i k rest h
    simp [h, State.clear]

theorem commit_autoTolHanded (h : u.inbox.autoTol = s.inbox.autoTol) : AutoTolHanded True s (commit s u) := by
  refine ⟨autoTolFor s u, by rw [commit_autoTol, h], fun x => ?_⟩
  have hf : Falls s (commit s u) x ↔ Falls s u x := by
    simp only [Falls, State.arrivalOf, commit_section, commit_circuit]
  rw [hf, mem_autoTolFor]
  exact ⟨id, fun _ => id⟩

theorem mem_progressFor (x : Sec) (k : Circuit) (was : TrackState) :
    ⟨x, k, was⟩ ∈ progressFor s t ↔ Moves s t x k ∧ was = (s.circuit k).state := by
  have hof : ∀ y, (⟨x, k, was⟩ : TrackHanded) ∈ progressOf s t y ↔ y = x ∧ Moves s t x k ∧ was = (s.circuit k).state := by
    intro y
    simp only [progressOf, List.mem_map, List.mem_filter, decide_eq_true_eq, TrackHanded.mk.injEq, mem_changedCircuits,
      Moves, arrivalOf_eq, clearingOf_eq]
    constructor
    · rintro ⟨_, ⟨hne, hin⟩, rfl, rfl, rfl⟩
      exact ⟨rfl, ⟨hin, hne⟩, rfl⟩
    · rintro ⟨rfl, ⟨hin, hne⟩, rfl⟩
      exact ⟨k, ⟨hne, hin⟩, rfl, rfl, rfl⟩
  simp only [progressFor, List.mem_append, hof]
  cases x <;> simp

theorem commit_progressHanded (h : u.inbox.progress = s.inbox.progress) : ProgressHanded True s (commit s u) := by
  refine ⟨progressFor s u, by rw [commit_progress, h], fun x k => ?_⟩
  have hm : Moves s (commit s u) x k ↔ Moves s u x k := by
    simp only [Moves, State.arrivalOf, State.clearingOf, commit_section, commit_circuit]
  simp only [hm, mem_progressFor, and_true, imp_self, implies_true]

theorem commit_serviceHanded (h : u.inbox.service = s.inbox.service) : ServiceHanded s (commit s u) := by
  rw [ServiceHanded, commit_serviceChanges, commit_service, h]

theorem commit_entriesHanded {auto : Sec → Bool} (h : ∀ x, Tells x (auto x) s u) :
    EntriesHanded auto s (commit s u) := by
  obtain ⟨own, ho, hd, -⟩ := h .a
  refine ⟨own, hd, fun x => ?_, ?_⟩
  · obtain ⟨own', ho', -, ht⟩ := h x
    rw [ho] at ho'
    obtain rfl := List.append_cancel_left ho'
    rwa [commit_section]
  · have hs : disagreeFor s (commit s u) = disagreeFor s u := by simp only [disagreeFor, commit_section]
    have hb : boxDisagreeFor s (commit s u) = boxDisagreeFor s u := by
      rw [boxDisagreeFor, boxDisagreeFor, commit_service]
    rw [commit_entries, ho, hs, hb]

theorem itemChanged_commit (i : Item) : ItemChanged s (commit s u) i ↔ ItemChanged s u i := by
  cases i <;>
    simp only [ItemChanged, State.levKey, State.secKey, State.boxKey, commit_lever, commit_circuit, commit_section,
      commit_port, commit_service, commit_track]

/-- An item in the pending set at the end of a step was there before, or changed. -/
theorem mem_commit_reports (i : Item) : i ∈ (commit s u).link.reports ↔
    i ∈ u.link.reports ∨ (ItemChanged s (commit s u) i ∧ (commit s u).link.classes.has i = true) := by
  rw [commit_reports, mem_addItems, mem_itemsFor, itemChanged_commit]
  rfl

theorem commit_reportsHanded : ReportsHanded s (commit s u) :=
  fun i hi hc => (mem_commit_reports i).2 (.inr ⟨hi, hc⟩)

theorem commit_latchesSet : LatchesSet s (commit s u) := by
  intro p hs ht
  rw [commit_latches, latchAfter, hs]
  rw [commit_port] at ht
  simp [ht]

end

/-! #### The requests of a frame start, each with its end -/

/-- Steps of the Track unit, of which each hands on what it changes. -/
structure Onward (s t : State) : Prop where
  lever : ∀ n, t.lever n = s.lever n
  sections : ∀ x, t.section_ x = s.section_ x
  port : ∀ p, t.port p = s.port p
  service : t.service.state = s.service.state
  disagree : t.service.disagree = s.service.disagree
  classes : t.link.classes = s.link.classes
  changes : ∃ added, t.inbox.changes = s.inbox.changes ++ added ∧ (∀ d ∈ added, ∃ k was, d = .track k was) ∧
    ∀ k, (s.circuit k).state ≠ (t.circuit k).state → .track k (s.circuit k).state ∈ added
  autoTol : AutoTolHanded False s t
  progress : ProgressHanded False s t
  serviceChanges : t.inbox.service = s.inbox.service
  entries : EntersOnly (fun e => ∀ x, e.2.quiet x) s t
  reports : s.link.reports ⊆ t.link.reports ∧ ReportsHanded s t

section
variable {s t u : State}

theorem ItemChanged.refl_iff (i : Item) : ¬ItemChanged s s i := by
  cases i <;> simp [ItemChanged]

theorem ItemChanged.of_trans {i : Item} (h : ItemChanged s u i) (hl : ∀ n, (t.lever n).record = (u.lever n).record) :
    ItemChanged s t i ∨ ItemChanged t u i := by
  have key : ∀ {α : Type} {a b c : α}, a ≠ c → a ≠ b ∨ b ≠ c := fun {α a b c} hac => by
    by_cases hab : a = b
    · exact .inr (hab ▸ hac)
    · exact .inl hab
  cases i with
  | lev n => exact (key h.2).imp (fun hk => ⟨by rw [hl]; exact h.1, hk⟩) fun hk => ⟨h.1, hk⟩
  | tc k => exact key h
  | sec x => exact key h
  | box => exact key h

theorem Onward.refl (s : State) : Onward s s where
  lever _ := rfl
  sections _ := rfl
  port _ := rfl
  service := rfl
  disagree := rfl
  classes := rfl
  changes := ⟨[], by simp, by simp, fun _ h => absurd rfl h⟩
  autoTol := ⟨[], by simp, fun _ => ⟨fun ⟨_, _, _, h, hn⟩ => absurd h hn, nofun⟩⟩
  progress := ⟨[], by simp, fun _ _ => ⟨fun h => absurd rfl h.2, nofun⟩⟩
  serviceChanges := rfl
  entries := EntersOnly.refl _ s
  reports := ⟨List.Subset.refl _, fun i h => absurd h (ItemChanged.refl_iff i)⟩

theorem Onward.trans (h₁ : Onward s t) (h₂ : Onward t u) : Onward s u where
  lever n := (h₂.lever n).trans (h₁.lever n)
  sections x := (h₂.sections x).trans (h₁.sections x)
  port p := (h₂.port p).trans (h₁.port p)
  service := h₂.service.trans h₁.service
  disagree := h₂.disagree.trans h₁.disagree
  classes := h₂.classes.trans h₁.classes
  changes := by
    obtain ⟨a, ha, hta, hca⟩ := h₁.changes
    obtain ⟨b, hb, htb, hcb⟩ := h₂.changes
    refine ⟨a ++ b, by rw [hb, ha, List.append_assoc], fun d hd => (List.mem_append.1 hd).elim (hta d) (htb d), fun k hk => ?_⟩
    by_cases hst : (s.circuit k).state = (t.circuit k).state
    · exact List.mem_append_right _ (hst ▸ hcb k (hst ▸ hk))
    · exact List.mem_append_left _ (hca k hst)
  autoTol := by
    obtain ⟨a, ha, hfa⟩ := h₁.autoTol
    obtain ⟨b, hb, hfb⟩ := h₂.autoTol
    refine ⟨a ++ b, by rw [hb, ha, List.append_assoc], fun x => ⟨fun hf => ?_, nofun⟩⟩
    obtain ⟨k, rest, hr, hs, hu⟩ := hf
    have hr' : t.arrivalOf x = k :: rest := by rw [← hr, State.arrivalOf, State.arrivalOf, h₂.sections]
    by_cases ht : (t.circuit k).state = .clear
    · exact List.mem_append_right _ ((hfb x).1 ⟨k, rest, hr, ht, hu⟩)
    · exact List.mem_append_left _ ((hfa x).1 ⟨k, rest, hr', hs, ht⟩)
  progress := by
    obtain ⟨a, ha, hma⟩ := h₁.progress
    obtain ⟨b, hb, hmb⟩ := h₂.progress
    refine ⟨a ++ b, by rw [hb, ha, List.append_assoc], fun x k => ⟨fun hm => ?_, nofun⟩⟩
    obtain ⟨hin, hk⟩ := hm
    have hin' : k ∈ t.arrivalOf x ∨ k ∈ t.clearingOf x := by
      simpa only [State.arrivalOf, State.clearingOf, h₂.sections] using hin
    by_cases hst : (s.circuit k).state = (t.circuit k).state
    · exact List.mem_append_right _ (hst ▸ (hmb x k).1 ⟨hin, hst ▸ hk⟩)
    · exact List.mem_append_left _ ((hma x k).1 ⟨hin', hst⟩)
  serviceChanges := h₂.serviceChanges.trans h₁.serviceChanges
  entries := h₁.entries.trans h₂.entries
  reports := by
    obtain ⟨ha, hra⟩ := h₁.reports
    obtain ⟨hb, hrb⟩ := h₂.reports
    refine ⟨List.Subset.trans ha hb, fun i hi hc => ?_⟩
    rcases hi.of_trans (t := t) fun n => by rw [h₂.lever] with h | h
    · exact hb (hra i h (by rwa [← h₂.classes]))
    · exact hrb i h hc

/-- A step that writes the Track unit only, with its end. -/
theorem Onward.commit (h : Leaves [.track] s u) : Onward s (commit s u) where
  lever n := by rw [commit_lever]; exact h (.lever n) (by simp)
  sections x := by rw [commit_section]; exact h (.section_ x) (by simp)
  port p := by rw [commit_port]; exact h (.port p) (by simp)
  service := by
    rw [commit_service]
    exact h .serviceState (by simp)
  disagree := by
    have hs : u.service.state = s.service.state := h .serviceState (by simp)
    have hp : u.service.position = s.service.position ∧ _ := h .boxSwitch (by simp)
    rw [commit_service, ServiceUnit.disagree, ServiceUnit.disagree, hs, hp.1]
  classes := h .classes (by simp)
  changes := by
    have hc : u.inbox.changes = s.inbox.changes ++ [] := by
      rw [List.append_nil]
      exact h .changes (by simp)
    refine ⟨changesFor s u, by rw [commit_changes, hc, List.append_nil], fun d hd => ?_, fun k hk => ?_⟩
    · have hl : changedLevers s u = [] := by
        refine List.filter_eq_nil_iff.2 fun n _ => ?_
        have hn : u.lever n = s.lever n := h (.lever n) (by simp)
        simp [leverStateChanged, hn]
      have hx : ∀ x, u.section_ x = s.section_ x := fun x => h (.section_ x) (by simp)
      have hd' : d ∈ (changedCircuits s u).map fun c => .track c (s.circuit c).state := by
        simpa [changesFor, hl, changedSections, changedReleases, hx] using hd
      obtain ⟨k, -, rfl⟩ := List.mem_map.1 hd'
      exact ⟨k, _, rfl⟩
    · rw [track_mem_changesFor, mem_changedCircuits]
      exact ⟨by rwa [commit_circuit] at hk, rfl⟩
  autoTol := by
    obtain ⟨a, ha, hf⟩ := commit_autoTolHanded (s := s) (u := u) (h .autoTol (by simp))
    exact ⟨a, ha, fun x => ⟨(hf x).1, nofun⟩⟩
  progress := by
    obtain ⟨a, ha, hf⟩ := commit_progressHanded (s := s) (u := u) (h .progress (by simp))
    exact ⟨a, ha, fun x k => ⟨(hf x k).1, nofun⟩⟩
  serviceChanges := by
    have hv : u.service.state = s.service.state := h .serviceState (by simp)
    rw [commit_serviceChanges, if_pos hv.symm, List.append_nil]
    exact h .serviceChanges (by simp)
  entries := by
    have hx : ∀ x, u.section_ x = s.section_ x := fun x => h (.section_ x) (by simp)
    have hs : u.service.state = s.service.state := h .serviceState (by simp)
    have hp : u.service.position = s.service.position ∧ _ := h .boxSwitch (by simp)
    obtain ⟨es, hes, hq⟩ : EntersOnly _ s u := h .entries (by simp)
    have hd : disagreeFor s u = [] := by simp [disagreeFor, hx]
    have hv : u.service.disagree = s.service.disagree := by
      rw [ServiceUnit.disagree, ServiceUnit.disagree, hs, hp.1]
    have hb : boxDisagreeFor s u = [] := by simp [boxDisagreeFor, hv]
    refine ⟨es, by rw [commit_entries, hd, hb, hes]; simp, fun e he x => ?_⟩
    exact RegBody.quiet_of_within (hq e he) (by simp)
  reports := by
    refine ⟨fun i hi => (mem_commit_reports i).2 (.inl ?_), commit_reportsHanded⟩
    have hr : u.link.reports = s.link.reports := h .reports (by simp)
    rwa [hr]

theorem exec_scanFrameStart_onward (h : exec .scanFrameStart s = .next t) : Onward s t := by
  have hw : Onward s (handWaiting s) := by
    rw [handWaiting]
    split
    · exact Onward.refl s
    · exact handEach_keeps (Onward s) (fun t w ht => ht.trans (Onward.commit (by simp [State.withCircuits]))) _ _
        (Onward.refl s)
  cases h
  exact hw.trans (Onward.commit (scanFrameStart_leaves s _))

theorem Onward.changesHanded (h : Onward s t) : ChangesHanded False s t := by
  obtain ⟨added, ha, ht, hk⟩ := h.changes
  have hno : ∀ d ∈ added, (∀ n, d ≠ .lever n) ∧ (∀ x was, d ≠ .sec x was) ∧ ∀ x, d ≠ .release x := by
    intro d hd
    obtain ⟨k, was, rfl⟩ := ht d hd
    simp
  refine ⟨added, ha, fun n => ?_, hk, nofun, fun x => ⟨fun was => ?_, ?_⟩⟩
  · refine iff_of_false (fun hm => (hno _ hm).1 n rfl) ?_
    rw [h.lever]
    simp
  · exact iff_of_false (fun hm => (hno _ hm).2.1 x was rfl) (by simp [h.sections])
  · exact iff_of_false (fun hm => (hno _ hm).2.2 x rfl) (by simp [h.sections])

theorem Onward.serviceHanded (h : Onward s t) : ServiceHanded s t := by
  rw [ServiceHanded, if_pos h.service.symm, List.append_nil, h.serviceChanges]

theorem Onward.entriesHanded (h : Onward s t) (auto : Sec → Bool) : EntriesHanded auto s t := by
  obtain ⟨own, ho, hq⟩ := h.entries
  have hd : disagreeFor s t = [] := by simp [disagreeFor, h.sections]
  have hb : boxDisagreeFor s t = [] := by simp [boxDisagreeFor, h.disagree]
  refine ⟨own, not_disagree_of_quiet fun e he => hq e he .a, fun x => ⟨fun _ _ _ _ hm => ?_, fun hne => ?_⟩, ?_⟩
  · exact absurd hm (not_change_of_quiet (fun e he => hq e he x) _ _ _ _ _)
  · exact absurd (by rw [h.sections]) hne
  · rw [ho, hd, hb]
    simp

theorem Onward.latchesSet (h : Onward s t) : LatchesSet s t := by
  intro p hs ht
  rw [h.port, hs] at ht
  cases ht

end

/-! #### What each command hands on -/

/-- The parts a command's step writes before its end. -/
def stepParts : Instr → List Part
  | .start => startParts ++ lineParts
  | c => ownParts c

section
variable {c : Instr} {s t u : State}

/-- The end of a step that changes no lever, circuit, section, port and nothing of the box hands on nothing. -/
theorem commit_eq_self (hl : u.levers = s.levers) (ht : u.track = s.track) (hx : u.sections = s.sections)
    (hp : u.ports = s.ports) (hv : u.service = s.service) : commit s u = u := by
  have hlev : ∀ n, u.lever n = s.lever n := fun n => by rw [State.lever, hl, State.lever]
  have hcir : ∀ k, u.circuit k = s.circuit k := fun k => by rw [State.circuit, ht, State.circuit]
  have hsec : ∀ x, u.section_ x = s.section_ x := fun x => by rw [State.section_, hx, State.section_]
  have hport : ∀ p, u.port p = s.port p := fun p => by rw [State.port, hp, State.port]
  have hc : changesFor s u = [] := changesFor_nil (by simp [hlev]) (by simp [hcir]) (by simp [hsec])
  have ha : autoTolFor s u = [] := autoTolFor_nil (by simp [hcir])
  have hg : progressFor s u = [] := progressFor_nil (by simp [hcir])
  have hd : disagreeFor s u = [] := by simp [disagreeFor, hsec]
  have hb : boxDisagreeFor s u = [] := by simp [boxDisagreeFor, hv]
  have hi : itemsFor s u = [] := List.eq_nil_iff_forall_not_mem.2 fun i hm => by
    rw [mem_itemsFor] at hm
    cases i <;> simp [ItemChanged, State.levKey, State.secKey, State.boxKey, hlev, hcir, hsec, hport, hv, ht] at hm
  have hla : ∀ p, latchAfter s u p = u.diagram.latches.get p := fun p => by simp [latchAfter, hport]
  have hhand : handChanges s u = u := by
    simp only [handChanges, hc, ha, hg, hd, hb, hv, if_true, List.map_nil, List.append_nil]
    rw [← hv]
  have hlatch : setLatches s u = u := by
    simp only [setLatches, hla]
    rfl
  have hnote : noteItems s u = u := by simp only [noteItems, hi, State.report, addItems]
  rw [commit, hhand, hlatch, hnote]

/-- Every command but a reset and the frame start is its own part followed by the end of the step; START takes the changes
back. -/
theorem exec_ends (hc : ∀ b, c ≠ .reset b ∧ c ≠ .restartPowerUp b) (hf : c ≠ .scanFrameStart)
    (h : exec c s = .next t) : ∃ u is, t = (commit s u).setInbox { (commit s u).inbox with changes := is } ∧
      (c ≠ .start → t = commit s u) ∧ Leaves (stepParts c) s u := by
  have hplain : ∀ u, t = commit s u → Leaves (stepParts c) s u →
      ∃ u is, t = (commit s u).setInbox { (commit s u).inbox with changes := is } ∧
        (c ≠ .start → t = commit s u) ∧ Leaves (stepParts c) s u :=
    fun u hu hl => ⟨u, (commit s u).inbox.changes, hu, fun _ => hu, hl⟩
  cases hp : Instr.isPlain c with
  | true =>
    obtain ⟨u, hu, hl⟩ := exec_plain c s hp
    cases hu.symm.trans h
    refine hplain u rfl ?_
    cases c with
    | start => cases hp
    | _ => exact hl
  | false =>
    cases c with
    | reset b => exact absurd rfl (hc b).1
    | restartPowerUp b => exact absurd rfl (hc b).2
    | scanFrameStart => exact absurd rfl hf
    | resetRelease =>
      cases h
      exact hplain { s with resetHeld := false } (commit_eq_self rfl rfl rfl rfl rfl).symm
        (Leaves.resetHeld (Leaves.refl _ s) (by simp [stepParts, ownParts, writes]))
    | start =>
      cases h
      obtain ⟨is, hi⟩ := clearChangesAtStart_eq (s := s) (commit s (requestStep .start inConfigure handleStart s))
      refine ⟨_, is, hi, fun hn => absurd rfl hn, requestStep_leaves s (by simp [stepParts]) fun ws t r ht => ?_⟩
      rw [handleStart_ok ht]
      exact (enterService_leaves s).mono (by simp [stepParts])
    | _ => cases hp

/-- The entries a command's step makes. -/
theorem exec_tells (hc : ∀ b, c ≠ .reset b ∧ c ≠ .restartPowerUp b) (hf : c ≠ .scanFrameStart)
    (hr : ∀ u, c ≠ .registerAppend u) (h : exec c s = .next t) : EntriesHanded (fun x => decide (c = .autoTol x)) s t := by
  cases hp : Instr.isPlain c with
  | true =>
    obtain ⟨u, hu, hl⟩ := exec_plain_secSteps c s hp hr
    cases hu.symm.trans h
    exact commit_entriesHanded fun x => (hl x).1
  | false =>
    cases c with
    | reset b => exact absurd rfl (hc b).1
    | restartPowerUp b => exact absurd rfl (hc b).2
    | scanFrameStart => exact absurd rfl hf
    | resetRelease =>
      cases h
      rw [← commit_eq_self (s := s) (u := releaseReset s) rfl rfl rfl rfl rfl]
      exact commit_entriesHanded fun x => (Still.of_eq rfl rfl rfl id : Still x s _).toQuiet.tells
    | start =>
      cases h
      have hs : SecSteps .start s (requestStep .start inConfigure handleStart s) :=
        requestStep_secSteps s fun ws t r ht => by
          rw [handleStart_ok ht]
          exact .of_steps (fun x => enterService_step x s) (by simp)
      have he := commit_entriesHanded (s := s) (auto := fun x => decide (Instr.start = .autoTol x)) fun x => (hs x).1
      obtain ⟨is, hi⟩ := clearChangesAtStart_eq (s := s) (commit s (requestStep .start inConfigure handleStart s))
      rw [hi]
      exact he
    | _ => cases hp

/-- A command's own part adds no report, but the marking of a code and START. -/
theorem chooseLine_reports : (chooseLine s).link.reports ⊆ s.link.reports := by
  simp only [chooseLine]
  split
  · exact List.Subset.refl _
  · split
    · exact List.Subset.refl _
    · split
      · exact List.Subset.refl _
      · rename_i i rest h
        rw [h]
        exact List.subset_cons_self i rest

theorem stepParts_reports (hs : c ≠ .start) (hx : ∀ x, c ≠ .outCodeTaken x ∧ c ≠ .inCodeTaken x) (hl : c ≠ .lineSent)
    (hn : c ≠ .notify) : .reports ∉ stepParts c := by
  cases c with
  | start => exact absurd rfl hs
  | lineSent => exact absurd rfl hl
  | notify => exact absurd rfl hn
  | outCodeTaken x => exact absurd rfl (hx x).1
  | inCodeTaken x => exact absurd rfl (hx x).2
  | codeExchangeUpdate p | startOfBeat p | endOfBeat p | repeatEnd p | repeatClash p | throughIndicatorRepeat p =>
    cases p <;> simp [stepParts, ownParts, writes, portAndPair, Sec.throughPair]
  | _ => simp [stepParts, ownParts, writes, lineParts, everyLever, everySection]

/-- A command that puts no item in itself leaves none in the pending set but those of before and those that changed. -/
theorem exec_reports_subset (hc : ∀ b, c ≠ .reset b ∧ c ≠ .restartPowerUp b) (hf : c ≠ .scanFrameStart) (hs : c ≠ .start)
    (hx : ∀ x, c ≠ .outCodeTaken x ∧ c ≠ .inCodeTaken x) (h : exec c s = .next t) :
    ∃ u, t = commit s u ∧ u.link.reports ⊆ s.link.reports := by
  by_cases hl : c = .lineSent
  · subst hl
    cases h
    refine ⟨_, rfl, ?_⟩
    rw [lineSent]
    split
    · exact chooseLine_reports
    · exact List.Subset.refl _
  · by_cases hn : c = .notify
    · subst hn
      cases h
      refine ⟨_, rfl, requestStep_keeps (P := fun u => u.link.reports ⊆ s.link.reports) (List.Subset.refl _)
        (fun ws u r _ _ hu => ?_) fun ws u hu => ?_⟩
      · obtain ⟨k, rfl⟩ := handleNotify_ok hu
        exact List.filter_subset_self _
      · have hr : (reply ws u).link.reports = u.link.reports := reply_leaves ws u .reports (by simp [lineParts])
        rwa [hr]
    · obtain ⟨u, -, -, ht, hle⟩ := exec_ends hc hf h
      have hr : u.link.reports = s.link.reports := hle .reports (stepParts_reports hs hx hl hn)
      exact ⟨u, ht hs, hr ▸ List.Subset.refl _⟩

theorem stepParts_handed (hs : c ≠ .reTest) (hst : c ≠ .start) (hp : ∀ g, c ≠ .provingInputChange g) :
    .changes ∉ stepParts c := by
  cases c with
  | start => exact absurd rfl hst
  | reTest => exact absurd rfl hs
  | provingInputChange g => exact absurd rfl (hp g)
  | codeExchangeUpdate p | startOfBeat p | endOfBeat p | repeatEnd p | repeatClash p | throughIndicatorRepeat p =>
    cases p <;> simp [stepParts, ownParts, writes, portAndPair, Sec.throughPair]
  | _ => simp [stepParts, ownParts, writes, codeParts, lineParts, everyLever, everySection]

theorem stepParts_tracks (h : ∀ x, c ≠ .autoTol x ∧ c ≠ .progressCheck x) :
    .autoTol ∉ stepParts c ∧ .progress ∉ stepParts c := by
  cases c with
  | autoTol x => exact absurd rfl (h x).1
  | progressCheck x => exact absurd rfl (h x).2
  | codeExchangeUpdate p | startOfBeat p | endOfBeat p | repeatEnd p | repeatClash p | throughIndicatorRepeat p =>
    cases p <;> simp [stepParts, ownParts, writes, portAndPair, Sec.throughPair]
  | _ => simp [stepParts, startParts, ownParts, writes, codeParts, lineParts, everyLever, everySection]

theorem stepParts_service (h : c ≠ .diagramServiceChange) : .serviceChanges ∉ stepParts c := by
  cases c with
  | diagramServiceChange => exact absurd rfl h
  | codeExchangeUpdate p | startOfBeat p | endOfBeat p | repeatEnd p | repeatClash p | throughIndicatorRepeat p =>
    cases p <;> simp [stepParts, ownParts, writes, portAndPair, Sec.throughPair]
  | _ => simp [stepParts, startParts, ownParts, writes, codeParts, lineParts, everyLever, everySection]

theorem exec_changesHanded (hc : ∀ b, c ≠ .reset b ∧ c ≠ .restartPowerUp b) (hr : c ≠ .reTest) (hs : c ≠ .start)
    (h : exec c s = .next t) : ChangesHanded (c ≠ .scanFrameStart) s t := by
  by_cases hf : c = .scanFrameStart
  · subst hf
    simpa using (exec_scanFrameStart_onward h).changesHanded
  rw [eq_true (show c ≠ .scanFrameStart from hf)]
  cases c with
  | provingInputChange g =>
    cases h
    refine commit_changesHanded (pre := (provingInputChange g s).inbox.changes.drop s.inbox.changes.length) ?_ ?_
    all_goals
      simp only [provingInputChange]
      split <;> simp
  | _ =>
    obtain ⟨u, -, -, ht, hl⟩ := exec_ends hc hf h
    rw [ht hs]
    refine commit_changesHanded (pre := []) ?_ (by simp)
    rw [List.append_nil]
    exact hl .changes (stepParts_handed hr hs (by simp))

/-- What a command hands to the sections, to the diagram and to the link. -/
theorem exec_handed (hc : ∀ b, c ≠ .reset b ∧ c ≠ .restartPowerUp b) (h : exec c s = .next t) :
    ((∀ x, c ≠ .autoTol x ∧ c ≠ .progressCheck x) →
      AutoTolHanded (c ≠ .scanFrameStart) s t ∧ ProgressHanded (c ≠ .scanFrameStart) s t) ∧
    (c ≠ .diagramServiceChange → ServiceHanded s t) ∧ ReportsHanded s t ∧ LatchesSet s t := by
  by_cases hf : c = .scanFrameStart
  · subst hf
    have ho := exec_scanFrameStart_onward h
    exact ⟨fun _ => by simpa using ⟨ho.autoTol, ho.progress⟩, fun _ => ho.serviceHanded, ho.reports.2, ho.latchesSet⟩
  rw [eq_true (show c ≠ .scanFrameStart from hf)]
  obtain ⟨u, is, rfl, -, hl⟩ := exec_ends hc hf h
  refine ⟨fun hx => ⟨?_, ?_⟩, fun hd => ?_, ?_, ?_⟩
  · exact commit_autoTolHanded (s := s) (u := u) (hl .autoTol (stepParts_tracks hx).1)
  · exact commit_progressHanded (s := s) (u := u) (hl .progress (stepParts_tracks hx).2)
  · exact commit_serviceHanded (s := s) (u := u) (hl .serviceChanges (stepParts_service hd))
  · exact commit_reportsHanded (s := s) (u := u)
  · exact commit_latchesSet (s := s) (u := u)

theorem exec_entriesHanded (hc : ∀ b, c ≠ .reset b ∧ c ≠ .restartPowerUp b) (hr : ∀ u, c ≠ .registerAppend u)
    (h : exec c s = .next t) : EntriesHanded (fun x => decide (c = .autoTol x)) s t := by
  by_cases hf : c = .scanFrameStart
  · subst hf
    exact (exec_scanFrameStart_onward h).entriesHanded _
  · exact exec_tells hc hf hr h

theorem writes_pending (c : Instr) : .pending ∉ writes c ∧ .now ∉ writes c := by
  cases c with
  | codeExchangeUpdate p | startOfBeat p | endOfBeat p | repeatEnd p | repeatClash p | throughIndicatorRepeat p =>
    cases p <;> simp [writes, portAndPair, Sec.throughPair]
  | _ => simp [writes, lineParts, everyLever, everySection]

/-- Every command answers a next state. -/
theorem exec_goes_on (c : Instr) (s : State) : ∃ t, exec c s = .next t := by
  cases hp : Instr.isPlain c with
  | true =>
    obtain ⟨u, hu, -⟩ := exec_plain c s hp
    exact ⟨_, hu⟩
  | false =>
    cases c with
    | reset | restartPowerUp | resetRelease | scanFrameStart | start => exact ⟨_, rfl⟩
    | _ => cases hp

theorem exec_pending (h : exec c s = .next t) : t.pending = s.pending ∧ t.now = s.now := by
  by_cases hc : ∀ b, c ≠ .reset b ∧ c ≠ .restartPowerUp b
  · have hk := exec_keeps hc h
    exact ⟨hk .pending (writes_pending c).1, hk .now (writes_pending c).2⟩
  · push Not at hc
    obtain ⟨b, hb⟩ := hc
    by_cases hr : c = .reset b
    · subst hr
      cases h
      exact ⟨rfl, rfl⟩
    · rw [hb hr] at h
      cases h
      split <;> exact ⟨rfl, rfl⟩

/-- The entries of a section's change as O2 writes them out. -/
theorem sectionEntries_eq (x : Sec) (a b : SectionData) (o : TrainEnd) (auto : Bool) :
    (sectionEntries x a b o auto).map (RegUnit.block, ·) =
      (RegUnit.block, RegBody.change x a.state b.state ((a.train.or b.train).map (·.ident)) auto) ::
        (match a.train, b.train with
          | some r, none => [(RegUnit.block, RegBody.train r.ident x r.inward r.cls o r.offered r.entered)]
          | _, _ => []) := by
  unfold sectionEntries trainIdOf trainEntry
  cases a.train <;> cases b.train <;> rfl

end

/-- Settles O2: every command goes on, and the end of its step hands on what it changed. -/
theorem everyCommandGoesOn : Obligations.EveryCommandGoesOn := by
  refine ⟨fun c s => ?_, fun c s t hc h => ?_⟩
  · obtain ⟨t, ht⟩ := exec_goes_on c s
    exact ⟨t, ht, exec_pending ht⟩
  intro arrival clearing disagrees boxDisagrees lev sec box changed beat
  obtain ⟨htracks, hservice, hreports, hlatches⟩ := exec_handed hc h
  have hchanged : ∀ i, changed i ↔ ItemChanged s t i := fun i => by cases i <;> exact Iff.rfl
  have hbeat : ∀ u p, beat u p ↔ (u.port p).beatInProgress = true := fun u p => by
    simp [beat, PortData.beatInProgress, PortData.sensedBeat]
  refine ⟨fun hr hs => exec_changesHanded hc hr hs h, fun hx => (htracks hx).1, fun hx => (htracks hx).2, hservice,
    fun hr => ?_, fun i hi => hreports i ((hchanged i).1 hi), fun hs hx i hi => ?_, fun p hs ht => ?_⟩
  · obtain ⟨own, hd, htold, he⟩ := exec_entriesHanded hc hr h
    refine ⟨own, hd, fun x => ⟨(htold x).1, fun hne => ?_⟩, ?_⟩
    · obtain ⟨before, after, o, hown, hq⟩ := (htold x).2 hne
      rw [sectionEntries_eq] at hown
      exact ⟨before, after, o, hown, fun _ _ _ _ => not_change_of_quiet hq _ _ _ _ _⟩
    · have hb : (boxDisagreeFor s t).map (RegUnit.service, ·) =
          if !s.service.disagree && t.service.disagree then [(RegUnit.service, RegBody.disagree none)] else [] := by
        rw [boxDisagreeFor, apply_ite (List.map _)]
        rfl
      rw [he, hb, disagreeFor, List.map_map]
      rfl
  · simp only [List.mem_cons, List.not_mem_nil, or_false, not_or] at hs
    obtain ⟨u, rfl, hu⟩ := exec_reports_subset hc hs.2 hs.1 hx h
    exact ((mem_commit_reports i).1 hi).imp (fun hm => hu hm) fun ⟨hi, hcl⟩ => ⟨(hchanged i).2 hi, hcl⟩
  · exact hlatches p (by simpa [hbeat] using hs) ((hbeat t p).1 ht)

end Sys2Proof.Machine


/-! ### Reading the words of a request -/

namespace Sys2Proof.Machine

@[simp] theorem parsed_ok_bind {α β : Type} (a : α) (f : α → Parsed β) : ((.ok a : Parsed α) >>= f) = f a := rfl

@[simp] theorem parsed_error_bind {α β : Type} (e : Err) (f : α → Parsed β) :
    ((.error e : Parsed α) >>= f) = .error e := rfl

theorem parsed_pure_eq {α : Type} (a : α) : (pure a : Parsed α) = .ok a := rfl

/-! #### Words by position -/

section
variable {a b c d : Text} {ws : List Text}

@[simp] theorem wordAt?_two : wordAt? (a :: b :: ws) 2 = some b := rfl
@[simp] theorem wordAt?_three : wordAt? (a :: b :: c :: ws) 3 = some c := rfl
@[simp] theorem wordAt?_four : wordAt? (a :: b :: c :: d :: ws) 4 = some d := rfl
@[simp] theorem wordAt?_two_none : wordAt? [a] 2 = none := rfl
@[simp] theorem wordAt?_three_none : wordAt? [a, b] 3 = none := rfl
@[simp] theorem wordAt?_four_none : wordAt? [a, b, c] 4 = none := rfl

theorem wordAt_some {pos : Nat} {w : Text} (h : wordAt? ws pos = some w) : wordAt ws pos = .ok w := by
  simp [wordAt, h]

theorem wordAt_none {pos : Nat} (h : wordAt? ws pos = none) : wordAt ws pos = .error (.form (some pos)) := by
  simp [wordAt, h]

theorem only_of_le {k : Nat} (h : ws.length ≤ k) : only ws k = .ok () := only_ok.2 h

/-! #### Indices -/

theorem indexAt_ordinal {k pos : Nat} {n : Fin k} (h : wordAt? ws pos = some (ordinal n)) : indexAt k ws pos = .ok n := by
  simp [indexAt, h, index_ordinal]

theorem indexAt_missing {k pos : Nat} (h : wordAt? ws pos = none) : indexAt k ws pos = .error (.range (some pos)) := by
  simp [indexAt, h]

theorem index_outside {k pos n : Nat} (hn : n < 1 ∨ k < n) : index k pos (digits n) = .error (.range (some pos)) := by
  have h : ¬(1 ≤ n ∧ n ≤ k) := by omega
  simp [index, h]

theorem indexAt_outside {k pos n : Nat} (hn : n < 1 ∨ k < n) (h : wordAt? ws pos = some (digits n)) :
    indexAt k ws pos = .error (.range (some pos)) := by
  simp [indexAt, h, index_outside hn]

theorem numberIn_inside {lo hi pos n : Nat} (hl : lo ≤ n) (hh : n ≤ hi) : numberIn lo hi pos (digits n) = .ok n := by
  simp [numberIn, hl, hh]

theorem numberIn_outside {lo hi pos n : Nat} (hn : n < lo ∨ hi < n) :
    numberIn lo hi pos (digits n) = .error (.range (some pos)) := by
  have h : ¬(lo ≤ n ∧ n ≤ hi) := by omega
  simp [numberIn, h]

@[simp] theorem bareForm_range {α : Type} (o : Option Nat) : bareForm (.error (.range o) : Parsed α) = .error (.range o) := rfl
@[simp] theorem bareForm_form {α : Type} (o : Option Nat) : bareForm (.error (.form o) : Parsed α) = .error (.form none) := rfl

theorem number_bad {pos : Nat} {w : Text} (h : decimal? w = none) : number pos w = .error (.form (some pos)) := by
  simp [number, h]

end

/-! #### Answers -/

section
variable {row : Instr} {accept : ServiceState → Bool} {f : Handler} {s : State} {ws : List Text}

/-- A refusal, with the words the refusal sends. -/
theorem refused (hx : exec row s = .next (commit s (requestStep row accept f s))) (ha : s.asks row ws)
    (hv : accept s.service.state = true) {e : Err} (hf : f ws s = .error e) {r : List Text} (hr : r = e.words) :
    answersOnly row r s :=
  hr ▸ request_error hx ha hv hf

end

end Sys2Proof.Machine


/-! ### TUNE and CLEAR -/

namespace Sys2Proof.Machine

/-! #### Fields and values -/

/-- Names with their values, each name once, are read as they stand. -/
theorem namedValues_valueWords {unknown missing : Bool} {name? : Text → Option TcField} (vals : List (TcField × Nat))
    (hn : ∀ e ∈ vals, name? (wordFor tcFieldTable e.1) = some e.1) (seen : List (TcField × Nat)) (pos : Nat)
    (hnd : ((seen ++ vals).map (·.1)).Nodup) :
    namedValues unknown missing name? (fun _ pos t => bareForm (number pos t)) seen pos (valueWords vals) =
      .ok (seen ++ vals) := by
  induction vals generalizing seen pos with
  | nil => simp [valueWords, namedValues]
  | cons e vals ih =>
    obtain ⟨f, v⟩ := e
    have hseen : seen.any (fun e => decide (e.1 = f)) = false := by
      rw [List.map_append, List.nodup_append] at hnd
      rw [List.any_eq_false]
      intro e he
      simpa using hnd.2.2 e.1 (List.mem_map_of_mem he) f (by simp)
    have ih := ih (fun e he => hn e (List.mem_cons_of_mem _ he)) (seen ++ [(f, v)]) (pos + 2) (by simpa using hnd)
    simp only [valueWords, namedValues, hn (f, v) (by simp), hseen, number_digits, bareForm_ok, ih]
    simp

/-- A TUNE's fields and values are read as they stand. -/
theorem readTune_valueWords {unknown : Bool} {name? : Text → Option TcField} (a b c : Text) {vals : List (TcField × Nat)}
    (hne : vals ≠ []) (hnd : (vals.map (·.1)).Nodup) (hn : ∀ e ∈ vals, name? (wordFor tcFieldTable e.1) = some e.1) :
    readTune unknown name? ([a, b, c] ++ valueWords vals) = .ok vals := by
  have hw : ∃ w, wordAt? ([a, b, c] ++ valueWords vals) 4 = some w := by
    cases vals with
    | nil => exact absurd rfl hne
    | cons e vals => exact ⟨_, rfl⟩
  obtain ⟨w, hw⟩ := hw
  rw [readTune, wordAt_some hw]
  exact namedValues_valueWords vals hn [] 4 (by simpa using hnd)

section
variable {unknown : Bool} {name? : Text → Option TcField} (a b c : Text)

/-- A name that may not be tuned. -/
theorem readTune_unknown {w v : Text} (h : name? w = none) :
    readTune unknown name? [a, b, c, w, v] = .error (.form (if unknown then some 4 else none)) := by
  simp [readTune, wordAt, namedValues, h]

/-- A value that is no number. -/
theorem readTune_badValue {w v : Text} {f : TcField} (h : name? w = some f) (hv : decimal? v = none) :
    readTune unknown name? [a, b, c, w, v] = .error (.form none) := by
  simp [readTune, wordAt, namedValues, h, number_bad hv]

/-- A name given twice. -/
theorem readTune_twice {w : Text} {f : TcField} {k m : Nat} (h : name? w = some f) :
    readTune unknown name? [a, b, c, w, digits k, w, digits m] = .error (.conflict 6) := by
  simp [readTune, wordAt, namedValues, h]

end

theorem clampNat_eq {lo hi n : Nat} (h : lo ≤ hi) : clampNat lo hi n = max lo (min hi n) := by
  unfold clampNat
  split
  · omega
  · split <;> omega

/-- The fields TUNE TC may name. -/
theorem tuneField_word {f : TcField} (h : f ∉ [TcField.phase, .inv, .group]) :
    tuneField? (wordFor tcFieldTable f) = some f := by
  simp only [tuneField?, lookup_tcField]
  cases f <;> simp_all

theorem tuneField_none {w : Text} (h : lookup tcFieldTable w ∈ [none, some .phase, some .inv, some .group]) :
    tuneField? w = none := by
  simp only [List.mem_cons, List.not_mem_nil, or_false] at h
  obtain h | h | h | h := h <;> simp [tuneField?, h]

/-- The fields TUNE GROUP may name. -/
theorem groupField_word {f : TcField} (h : f ∈ [TcField.coarse, .fine, .drop, .pick, .floor]) :
    groupField? (wordFor tcFieldTable f) = some f := by
  simp only [groupField?, lookup_tcField]
  cases f <;> simp_all

theorem groupField_none {w : Text} (h : ∀ f ∈ [TcField.coarse, .fine, .drop, .pick, .floor],
    lookup tcFieldTable w ≠ some f) : groupField? w = none := by
  simp only [List.mem_cons, List.not_mem_nil, or_false, forall_eq_or_imp, forall_eq] at h
  obtain ⟨h1, h2, h3, h4, h5⟩ := h
  unfold groupField?
  split <;> simp_all

/-! #### Values after clamping -/

theorem valueOf_eq (f : TcField) (vals : List (TcField × Nat)) :
    valueOf f vals = (vals.find? fun e => decide (e.1 = f)).map (·.2) := by
  induction vals with
  | nil => rfl
  | cons e vals ih =>
    obtain ⟨g, n⟩ := e
    by_cases h : g = f
    · simp [valueOf, h]
    · simp [valueOf, h, ih]

theorem dropAfter_eq (r : TcRecord) (vals : List (TcField × Nat)) : dropAfter r vals =
    match (vals.find? fun e => decide (e.1 = .drop)).map (·.2) with
    | some v => max 16 (min 224 v)
    | none => r.drop := by
  rw [dropAfter, valueOf_eq]
  cases (vals.find? fun e => decide (e.1 = .drop)).map (·.2) with
  | none => rfl
  | some v => exact clampNat_eq (by decide)

theorem tuneValues_eq (r : TcRecord) (vals : List (TcField × Nat)) : tuneValues r vals =
    (vals.map fun e => (e.1, clampField (dropAfter r vals) e.1 e.2)) ++
      if valueOf .drop vals ≠ none ∧ valueOf .pick vals = none ∧ r.pick < dropAfter r vals + 16 then
        [(TcField.pick, dropAfter r vals + 16)] else [] := by
  simp only [tuneValues, Option.isSome_iff_ne_none, Option.isNone_iff_eq_none]

/-- One value after clamping, with the PICK a DROP carries with it. -/
theorem tuneValues_single (r : TcRecord) (f : TcField) (v : Nat) :
    let drop := if f = .drop then max 16 (min 224 v) else r.drop
    tuneValues r [(f, v)] = (f, clampField drop f v) ::
      (if f = .drop ∧ r.pick < drop + 16 then [(TcField.pick, drop + 16)] else []) := by
  by_cases h : f = .drop
  · subst h
    have hd : dropAfter r [(TcField.drop, v)] = max 16 (min 224 v) := clampNat_eq (by decide)
    simp [tuneValues, hd, valueOf]
  · have hd : dropAfter r [(f, v)] = r.drop := by simp [dropAfter, valueOf, h]
    simp [tuneValues, hd, valueOf, h]

theorem pendingTunes_eq (c : Circuit) (ops : List TrackOp) : pendingTunes c ops = ops.flatMap fun o =>
    match o with
    | .tune d vals => if d = c then vals else []
    | _ => [] := by
  induction ops with
  | nil => rfl
  | cons o ops ih => cases o <;> simp [pendingTunes, ih]

/-! #### Circuits tuned -/

section
variable {s : State} {c d : Circuit} {r : TcRecord} {vals : List (TcField × Nat)}

/-- A circuit whose tuning waits. -/
def CircuitData.retune (k : CircuitData) : CircuitData := { k with stale := true, retuned := true }

theorem tuneCircuit_circuit (s : State) (c : Circuit) (r : TcRecord) (vals : List (TcField × Nat)) (d : Circuit) :
    (tuneCircuit c r vals s).circuit d = if d = c then (s.circuit c).retune else s.circuit d := by
  simp only [tuneCircuit, State.circuit, State.setTrack_track, CircuitData.retune, Fin.getElem_fin, Vector.getElem_set,
    Fin.val_inj, eq_comm]

theorem tuneCircuit_ops : (tuneCircuit c r vals s).track.ops = s.track.ops ++ [.tune c (tuneValues r vals)] := by
  simp only [tuneCircuit, State.setTrack_track]

theorem pendingTunes_append (c : Circuit) (os ps : List TrackOp) :
    pendingTunes c (os ++ ps) = pendingTunes c os ++ pendingTunes c ps := by
  simp [pendingTunes_eq]

/-- A TUNE of one circuit leaves the tuning that waits for another. -/
theorem tuned_tuneCircuit_ne (h : d ≠ c) : (tuneCircuit c r vals s).tuned d = s.tuned d := by
  simp only [State.tuned, tuneCircuit_circuit, if_neg h, tuneCircuit_ops, pendingTunes_append]
  simp [pendingTunes, Ne.symm h]

theorem memberValues_tuneCircuit_ne {ws : List (TcField × Nat)} (h : d ≠ c) :
    memberValues (tuneCircuit c r vals s) ws d = memberValues s ws d := by
  simp only [memberValues, tuned_tuneCircuit_ne h]

theorem tuned_isSome (h : (s.circuit c).stored ≠ none) : ∃ r, s.tuned c = some r := by
  obtain ⟨r, hr⟩ := Option.ne_none_iff_exists'.1 h
  exact ⟨_, by simp only [State.tuned, hr, Option.map_some]; rfl⟩

/-- A field whose range no DROP moves. -/
theorem memberValues_fixed {f : TcField} (hc : (s.circuit c).stored ≠ none) (hf : f ∈ [TcField.coarse, .fine, .floor])
    (v : Nat) : memberValues s [(f, v)] c = [(f, clampField 0 f v)] := by
  obtain ⟨r, hr⟩ := tuned_isSome hc
  simp only [List.mem_cons, List.not_mem_nil, or_false] at hf
  obtain rfl | rfl | rfl := hf <;> simp [memberValues, hr, tuneValues_single, clampField]

/-- A TUNE of several circuits with records, each by its own record. -/
theorem tuneMembers_spec (vals : List (TcField × Nat)) (ts : List Circuit) (hnd : ts.Nodup) (s : State)
    (hs : ∀ c ∈ ts, (s.circuit c).stored ≠ none) :
    (tuneMembers vals ts s).track.ops = s.track.ops ++ ts.map (fun c => .tune c (memberValues s vals c)) ∧
      (∀ c, (tuneMembers vals ts s).circuit c = if c ∈ ts then (s.circuit c).retune else s.circuit c) ∧
      (tuneMembers vals ts s).link = s.link := by
  induction ts generalizing s with
  | nil => simp [tuneMembers]
  | cons c ts ih =>
    obtain ⟨hc, hnd⟩ := List.nodup_cons.1 hnd
    obtain ⟨r, hr⟩ := tuned_isSome (hs c (by simp))
    have hne : ∀ d ∈ ts, d ≠ c := fun d hd => ne_of_mem_of_not_mem hd hc
    obtain ⟨hops, hcir, hlink⟩ := ih hnd (tuneCircuit c r vals s) fun d hd => by
      rw [tuneCircuit_circuit, if_neg (hne d hd)]
      exact hs d (by simp [hd])
    have hm : memberValues s vals c = tuneValues r vals := by simp only [memberValues, hr]
    have ht : tuneMembers vals (c :: ts) s = tuneMembers vals ts (tuneCircuit c r vals s) := by
      simp only [tuneMembers, hr]
    rw [ht]
    refine ⟨?_, fun d => ?_, ?_⟩
    · rw [hops, tuneCircuit_ops, List.map_cons, hm, List.append_assoc, List.singleton_append]
      congr 2
      exact List.map_congr_left fun d hd => by rw [memberValues_tuneCircuit_ne (hne d hd)]
    · rw [hcir, tuneCircuit_circuit]
      by_cases hd : d = c
      · subst hd
        simp [hc]
      · simp [hd]
    · rw [hlink]
      simp only [tuneCircuit, State.setTrack_link]

theorem mem_members {g : Nat} : c ∈ s.members g ↔ ∃ r, (s.circuit c).stored = some r ∧ r.group = g := by
  simp only [State.members, List.mem_filter, allCircuits, List.mem_finRange, true_and]
  cases (s.circuit c).stored <;> simp

theorem members_eq (s : State) (g : Nat) :
    s.members g = allCircuits.filter fun c => decide ((s.circuit c).stored.map (·.group) = some g) := by
  refine List.filter_congr fun c _ => ?_
  cases (s.circuit c).stored <;> simp

theorem nodup_members (s : State) (g : Nat) : (s.members g).Nodup :=
  (List.nodup_finRange 20).filter _

theorem stored_of_mem_members {g : Nat} (h : c ∈ s.members g) : (s.circuit c).stored ≠ none := by
  obtain ⟨r, hr, -⟩ := mem_members.1 h
  simp [hr]

end

/-! #### The requests -/

section
variable {s : State} {c : Circuit} {r : TcRecord} {vals : List (TcField × Nat)}

/-- What TUNE TC answers after the words of the circuit. -/
def tuneReply (out vals : List (TcField × Nat)) : List Text :=
  valueWords out ++ if out = vals then [] else [W.CLAMPED]

theorem optional_ne {α : Type} [DecidableEq α] (a b : α) (w : Text) :
    optional (decide (a ≠ b)) w = if a = b then [] else [w] := by
  by_cases h : a = b <;> simp [optional, h]

theorem handleTuneTc_accepted (hr : s.tuned c = some r) (hne : vals ≠ []) (hnd : (vals.map (·.1)).Nodup)
    (hf : ∀ e ∈ vals, e.1 ∉ [TcField.phase, .inv, .group]) :
    handleTuneTc ([W.TUNE, W.TC, ordinal c] ++ valueWords vals) s =
      .ok (tuneCircuit c r vals s, [W.TUNE, W.TC, ordinal c] ++ tuneReply (tuneValues r vals) vals) := by
  have hi : indexAt 20 ([W.TUNE, W.TC, ordinal c] ++ valueWords vals) 3 = .ok c := indexAt_ordinal rfl
  have ht : readTune true tuneField? ([W.TUNE, W.TC, ordinal c] ++ valueWords vals) = .ok vals :=
    readTune_valueWords _ _ _ hne hnd fun e he => tuneField_word (hf e he)
  simp only [handleTuneTc, hi, bareForm_ok, parsed_ok_bind, hr, ht, optional_ne, parsed_pure_eq, tuneReply,
    List.append_assoc]

/-- TUNE TC accepted. -/
theorem tuneTc_accepted (hs : s.service.state ≠ .powerUp) (hr : s.tuned c = some r) (hne : vals ≠ [])
    (hnd : (vals.map (·.1)).Nodup) (hf : ∀ e ∈ vals, e.1 ∉ [TcField.phase, .inv, .group])
    (ha : s.asks .tuneTc ([W.TUNE, W.TC, ordinal c] ++ valueWords vals)) :
    ∃ t, exec .tuneTc s = .next t ∧ t.circuit c = { s.circuit c with stale := true, retuned := true } ∧
      (∀ d, d ≠ c → t.circuit d = s.circuit d) ∧ t.track.ops = s.track.ops ++ [.tune c (tuneValues r vals)] ∧
      repliesWith (['=' :: W.TUNE, W.TC, ordinal c] ++ tuneReply (tuneValues r vals) vals) s t := by
  obtain ⟨hx, hrep⟩ := request_ok rfl ha (afterPowerUp_of hs) (handleTuneTc_accepted hr hne hnd hf)
    (by simp only [tuneCircuit, State.setTrack_link])
  refine ⟨_, hx, ?_, fun d hd => ?_, ?_, hrep⟩
  · rw [commit_circuit, reply_circuit, tuneCircuit_circuit, if_pos rfl]
    rfl
  · rw [commit_circuit, reply_circuit, tuneCircuit_circuit, if_neg hd]
  · rw [commit_track, reply_track, tuneCircuit_ops]

/-- The values a group's TUNE replies with: those of its lowest member, and CLAMPED for any member. -/
def groupReply (s : State) (g : Nat) (vals : List (TcField × Nat)) : List Text :=
  valueWords (lowestValues s vals (s.members g)) ++
    optional ((s.members g).any fun t => decide (memberValues s vals t ≠ vals)) W.CLAMPED

theorem handleTuneGroup_accepted {g : Nat} (hl : 1 ≤ g) (hh : g ≤ 7) (hne : vals ≠ []) (hnd : (vals.map (·.1)).Nodup)
    (hf : ∀ e ∈ vals, e.1 ∈ [TcField.coarse, .fine, .drop, .pick, .floor]) :
    handleTuneGroup ([W.TUNE, W.GROUP, digits g] ++ valueWords vals) s =
      .ok (tuneMembers vals (s.members g) s,
        [W.TUNE, W.GROUP, digits g, W.MEMBERS, digits (s.members g).length] ++ groupReply s g vals) := by
  have hg : groupAt ([W.TUNE, W.GROUP, digits g] ++ valueWords vals) = .ok g := by
    show bareForm (numberIn 1 7 3 (digits g)) = .ok g
    rw [numberIn_inside hl hh, bareForm_ok]
  have ht : readTune false groupField? ([W.TUNE, W.GROUP, digits g] ++ valueWords vals) = .ok vals :=
    readTune_valueWords _ _ _ hne hnd fun e he => groupField_word (hf e he)
  simp only [handleTuneGroup, hg, ht, parsed_ok_bind, parsed_pure_eq, groupReply, List.append_assoc]

/-- TUNE GROUP accepted. -/
theorem tuneGroup_accepted {g : Nat} (hs : s.service.state ≠ .powerUp) (hl : 1 ≤ g) (hh : g ≤ 7) (hne : vals ≠ [])
    (hnd : (vals.map (·.1)).Nodup) (hf : ∀ e ∈ vals, e.1 ∈ [TcField.coarse, .fine, .drop, .pick, .floor])
    (ha : s.asks .tuneGroup ([W.TUNE, W.GROUP, digits g] ++ valueWords vals)) :
    ∃ t, exec .tuneGroup s = .next t ∧
      t.track.ops = s.track.ops ++ (s.members g).map (fun c => .tune c (memberValues s vals c)) ∧
      (∀ c, t.circuit c = if c ∈ s.members g then (s.circuit c).retune else s.circuit c) ∧
      repliesWith (['=' :: W.TUNE, W.GROUP, digits g, W.MEMBERS, digits (s.members g).length] ++ groupReply s g vals)
        s t := by
  obtain ⟨hops, hcir, hlink⟩ := tuneMembers_spec vals (s.members g) (nodup_members s g) s
    fun c hc => stored_of_mem_members hc
  obtain ⟨hx, hrep⟩ := request_ok rfl ha (afterPowerUp_of hs) (handleTuneGroup_accepted hl hh hne hnd hf) hlink
  refine ⟨_, hx, ?_, fun c => ?_, hrep⟩
  · rw [commit_track, reply_track, hops]
  · rw [commit_circuit, reply_circuit, hcir]

/-! Refusals. -/

theorem handleTuneTc_index {ws : List Text} {e : Err} (h : bareForm (indexAt 20 ws 3) = .error e) :
    handleTuneTc ws s = .error e := by
  simp only [handleTuneTc, h, parsed_error_bind]

theorem handleTuneTc_unloaded {ws : List Text} (h : wordAt? ws 3 = some (ordinal c)) (hc : (s.circuit c).stored = none) :
    handleTuneTc ws s = .error (.range (some 3)) := by
  simp only [handleTuneTc, indexAt_ordinal h, bareForm_ok, parsed_ok_bind, State.tuned, hc, Option.map_none]

theorem handleTuneTc_values {ws : List Text} {e : Err} (h : wordAt? ws 3 = some (ordinal c))
    (hc : (s.circuit c).stored ≠ none) (he : readTune true tuneField? ws = .error e) : handleTuneTc ws s = .error e := by
  obtain ⟨r, hr⟩ := tuned_isSome hc
  simp only [handleTuneTc, indexAt_ordinal h, bareForm_ok, parsed_ok_bind, hr, he, parsed_error_bind]

theorem handleTuneGroup_group {ws : List Text} {e : Err} (h : groupAt ws = .error e) : handleTuneGroup ws s = .error e := by
  simp only [handleTuneGroup, h, parsed_error_bind]

theorem handleTuneGroup_values {g : Nat} {ws : List Text} {e : Err} (h : groupAt ws = .ok g)
    (he : readTune false groupField? ws = .error e) : handleTuneGroup ws s = .error e := by
  simp only [handleTuneGroup, h, he, parsed_ok_bind, parsed_error_bind]

theorem groupAt_outside {a b : Text} {k : Nat} {ws : List Text} (h : k < 1 ∨ 7 < k) :
    groupAt (a :: b :: digits k :: ws) = .error (.range (some 3)) := by
  show bareForm (numberIn 1 7 3 (digits k)) = _
  rw [numberIn_outside h, bareForm_range]

theorem groupAt_inside {a b : Text} {g : Nat} {ws : List Text} (hl : 1 ≤ g) (hh : g ≤ 7) :
    groupAt (a :: b :: digits g :: ws) = .ok g := by
  show bareForm (numberIn 1 7 3 (digits g)) = _
  rw [numberIn_inside hl hh, bareForm_ok]

theorem handleClearTc_index {ws : List Text} {e : Err} (h : bareForm (indexAt 20 ws 3) = .error e) :
    handleClearTc ws s = .error e := by
  simp only [handleClearTc, h, parsed_error_bind]

theorem handleClearTc_unloaded {ws : List Text} (h : wordAt? ws 3 = some (ordinal c)) (hc : (s.circuit c).stored = none) :
    handleClearTc ws s = .error (.range none) := by
  simp only [handleClearTc, indexAt_ordinal h, bareForm_ok, parsed_ok_bind, hc, Option.isNone_none, refuseIf, if_true,
    parsed_error_bind]

theorem handleClearTc_accepted (hc : (s.circuit c).stored ≠ none) :
    handleClearTc [W.CLEAR, W.TC, ordinal c] s = .ok (clearCircuit c s, [W.CLEAR, W.TC, ordinal c]) := by
  have hi : indexAt 20 [W.CLEAR, W.TC, ordinal c] 3 = .ok c := indexAt_ordinal rfl
  have hn : (s.circuit c).stored.isNone = false := by
    cases h : (s.circuit c).stored with
    | none => exact absurd h hc
    | some r => rfl
  simp only [handleClearTc, hi, bareForm_ok, parsed_ok_bind, hn, refuseIf, Bool.false_eq_true, if_false]
  rfl

theorem handleClearLev_index {ws : List Text} {e : Err} (h : bareForm (indexAt 48 ws 3) = .error e) :
    handleClearLev ws s = .error e := by
  simp only [handleClearLev, h, parsed_error_bind]

theorem handleClearLev_accepted (n : Lever) :
    handleClearLev [W.CLEAR, W.LEV, ordinal n] s = .ok (clearForced n s, [W.CLEAR, W.LEV, ordinal n]) := by
  have hi : indexAt 48 [W.CLEAR, W.LEV, ordinal n] 3 = .ok n := indexAt_ordinal rfl
  simp only [handleClearLev, hi, bareForm_ok, parsed_ok_bind]
  rfl

theorem index_missing {k : Nat} {a b : Text} : bareForm (indexAt k [a, b] 3) = .error (.range (some 3)) := rfl

theorem index_out {k n : Nat} {a b : Text} {ws : List Text} (h : n < 1 ∨ k < n) :
    bareForm (indexAt k (a :: b :: digits n :: ws) 3) = .error (.range (some 3)) := by
  rw [indexAt_outside h rfl, bareForm_range]

end

/-- Settles O53: TUNE and CLEAR, with their refusals. -/
theorem tuneAndClear : Obligations.TuneAndClear := by
  intro s hs waiting tuned members given clamped out range form
  have hv := afterPowerUp_of hs
  have htuned : ∀ c, tuned c = s.tuned c := fun c => by
    rw [State.tuned, pendingTunes_eq] <;> rfl
  have hmembers : ∀ g, members g = s.members g := fun g => (members_eq s g).symm
  have hclamped : ∀ r vals, clamped r vals = tuneValues r vals := fun r vals => by
    rw [tuneValues_eq, dropAfter_eq, valueOf_eq, valueOf_eq] <;> rfl
  have hout : ∀ c vals, (s.circuit c).stored ≠ none → out c vals = memberValues s vals c := fun c vals hc => by
    obtain ⟨r, hr⟩ := tuned_isSome hc
    simp only [out, htuned, hr, Option.map_some, Option.getD_some, hclamped, memberValues]
  refine ⟨?_, ?_, ?_, ?_, ?_, ?_, ?_, ?_, ?_, ?_, ?_, ?_, ?_, ?_, ?_⟩
  · intro c f v r hr hf ha drop out
    have h := tuneTc_accepted (vals := [(f, v)]) hs hr (by simp) (by simp) (by simpa using hf) ha
    rw [tuneValues_single] at h
    exact h
  · intro c vals r hr hne hnd hf ha
    rw [htuned] at hr
    rw [hclamped]
    exact tuneTc_accepted hs hr hne hnd hf ha
  · intro g v f hl hh hf ha
    have hmem : ∀ e ∈ [(f, v)], e.1 ∈ [TcField.coarse, .fine, .drop, .pick, .floor] := by
      simp only [List.mem_cons, List.not_mem_nil, or_false] at hf
      obtain rfl | rfl | rfl := hf <;> simp
    obtain ⟨t, hx, hops, hcir, hrep⟩ := tuneGroup_accepted (vals := [(f, v)]) hs hl hh (by simp) (by simp) hmem ha
    refine ⟨t, _, hx, hops ▸ List.prefix_append _ _, hrep, fun c => ⟨fun r hr hg => ?_, fun hno => ?_⟩⟩
    · have hc : c ∈ s.members g := mem_members.2 ⟨r, hr, hg⟩
      refine ⟨by rw [hcir, if_pos hc]; rfl, ?_⟩
      rw [hops, ← memberValues_fixed (stored_of_mem_members hc) hf v]
      exact List.mem_append_right _ (List.mem_map.2 ⟨c, hc, rfl⟩)
    · rw [hcir, if_neg]
      intro hc
      obtain ⟨r, hr, hg⟩ := mem_members.1 hc
      exact hno r hr hg
  · intro g vals hl hh hne hnd hf ha
    obtain ⟨t, hx, hops, hcir, hrep⟩ := tuneGroup_accepted hs hl hh hne hnd hf ha
    have hout : ∀ c ∈ s.members g, out c vals = memberValues s vals c := fun c hc => hout c vals (stored_of_mem_members hc)
    rw [hmembers]
    refine ⟨t, hx, ?_, fun c => ⟨fun hc => ?_, fun hc => ?_⟩, ?_⟩
    · rw [hops]
      congr 1
      exact List.map_congr_left fun c hc => by rw [hout c hc]
    · rw [hcir, if_pos hc]
      rfl
    · rw [hcir, if_neg hc]
    · have hlow : (match s.members g with
          | [] => []
          | c :: _ => valueWords (out c vals)) = valueWords (lowestValues s vals (s.members g)) := by
        cases h : s.members g with
        | nil => rfl
        | cons c cs => exact congrArg valueWords (hout c (by simp [h]))
      have hcl : ((s.members g).any fun t => decide (memberValues s vals t ≠ vals)) = true ↔
          ∃ c ∈ s.members g, out c vals ≠ vals := by
        simp only [List.any_eq_true, decide_eq_true_eq]
        exact exists_congr fun c => and_congr_right fun hc => by rw [hout c hc]
      rw [groupReply, optional, ← hlow] at hrep
      simp only [hcl] at hrep
      rw [List.append_assoc]
      exact hrep
  · intro c hc ha
    obtain ⟨hx, hrep⟩ := request_ok rfl ha hv (handleClearTc_accepted hc) (by simp only [clearCircuit, State.setTrack_link])
    refine ⟨_, hx, hrep, ?_, fun d => ?_⟩
    · rw [commit_track, reply_track, clearCircuit, State.setTrack_track]
    · rw [commit_circuit, reply_circuit, clearCircuit]
      rfl
  · intro n ha
    obtain ⟨hx, hrep⟩ := request_ok rfl ha hv (handleClearLev_accepted n) (by simp only [clearForced, State.setLever_link])
    refine ⟨_, hx, hrep, ?_, fun m hm => ?_⟩
    · rw [commit_lever, reply_lever, clearForced, State.lever_setLever_same]
    · rw [commit_lever, reply_lever, clearForced, State.lever_setLever_ne _ _ hm]
  · refine fun k rest => ⟨fun hk ha => ?_, fun hk ha => ?_, fun hk ha => ?_, fun hk ha => ?_⟩
    · exact refused rfl ha hv (handleTuneTc_index (index_out hk)) rfl
    · exact refused rfl ha hv (handleClearTc_index (index_out hk)) rfl
    · exact refused rfl ha hv (handleClearLev_index (index_out hk)) rfl
    · exact refused rfl ha hv (handleTuneGroup_group (groupAt_outside hk)) rfl
  · exact fun ha => refused rfl ha hv (handleTuneTc_index index_missing) rfl
  · exact fun ha => refused rfl ha hv (handleTuneGroup_group (e := .range (some 3)) rfl) rfl
  · exact fun ha => refused rfl ha hv (handleClearTc_index index_missing) rfl
  · exact fun ha => refused rfl ha hv (handleClearLev_index index_missing) rfl
  · exact fun c rest hc => ⟨fun ha => refused rfl ha hv (handleTuneTc_unloaded rfl hc) rfl,
      fun ha => refused rfl ha hv (handleClearTc_unloaded rfl hc) rfl⟩
  · refine fun c w v f k m hc => ⟨fun hw ha => ?_, fun hf => ⟨fun ha => ?_, fun hd ha => ?_⟩⟩
    · exact refused rfl ha hv (handleTuneTc_values rfl hc (readTune_unknown _ _ _ (tuneField_none hw))) rfl
    · exact refused rfl ha hv (handleTuneTc_values rfl hc (readTune_twice _ _ _ (tuneField_word hf))) rfl
    · exact refused rfl ha hv (handleTuneTc_values rfl hc (readTune_badValue _ _ _ (tuneField_word hf) hd)) rfl
  · intro g w v hl hh hw ha
    exact refused rfl ha hv
      (handleTuneGroup_values (groupAt_inside hl hh) (readTune_unknown _ _ _ (groupField_none hw))) rfl
  · intro g k m hl hh f hf ha
    exact refused rfl ha hv
      (handleTuneGroup_values (groupAt_inside hl hh) (readTune_twice _ _ _ (groupField_word hf))) rfl

end Sys2Proof.Machine


/-! ### Reading a lever record -/

namespace Sys2Proof.Machine

/-! #### Field words and the words after them -/

theorem digits_not_mem {ks : List Text} (h : ∀ w ∈ ks, decimal? w = none) (n : Nat) : digits n ∉ ks := fun hm => by
  have := h _ hm
  rw [decimal_digits] at this
  cases this

theorem ordinal_not_mem {k : Nat} {ks : List Text} (h : ∀ w ∈ ks, decimal? w = none) (n : Fin k) : ordinal n ∉ ks :=
  digits_not_mem h _

/-- The groups that fields written one after another make. -/
def fieldGroups : Nat → List (Text × List Text) → List Group
  | _, [] => []
  | pos, (k, as) :: fs => ⟨k, pos, as⟩ :: fieldGroups (pos + 1 + as.length) fs

section
variable {isKey : Text → Bool}

theorem groups_args {as ws : List Text} (ha : ∀ a ∈ as, isKey a = false) (pos : Nat) :
    groups isKey pos (as ++ ws) =
      ((groups isKey (pos + as.length) ws).1, as ++ (groups isKey (pos + as.length) ws).2) := by
  induction as generalizing pos with
  | nil => rfl
  | cons a as ih =>
    have ih := ih (fun b hb => ha b (List.mem_cons_of_mem _ hb)) (pos + 1)
    have hp : pos + 1 + as.length = pos + (as.length + 1) := by omega
    simp [groups, ih, ha a (by simp), hp]

/-- Fields written one after another are read as their groups. -/
theorem groups_fields (fs : List (Text × List Text)) (pos : Nat)
    (h : ∀ f ∈ fs, isKey f.1 = true ∧ ∀ a ∈ f.2, isKey a = false) :
    groups isKey pos (fs.flatMap fun f => f.1 :: f.2) = (fieldGroups pos fs, []) := by
  induction fs generalizing pos with
  | nil => rfl
  | cons f fs ih =>
    obtain ⟨k, as⟩ := f
    obtain ⟨hk, ha⟩ := h (k, as) (by simp)
    have ih := ih (pos + 1 + as.length) fun g hg => h g (List.mem_cons_of_mem _ hg)
    simp only [List.flatMap_cons, List.cons_append, groups, hk, if_true, groups_args ha, ih, fieldGroups, List.append_nil]

theorem groups_leftover {w : Text} {ws : List Text} (pos : Nat) (hw : isKey w = false) :
    (groups isKey pos (w :: ws)).2.isEmpty = false := by
  simp [groups, hw]

end

theorem fieldGroups_append (fs gs : List (Text × List Text)) (pos : Nat) :
    fieldGroups pos (fs ++ gs) = fieldGroups pos fs ++ fieldGroups (pos + (fs.flatMap fun f => f.1 :: f.2).length) gs := by
  induction fs generalizing pos with
  | nil => rfl
  | cons f fs ih =>
    obtain ⟨k, as⟩ := f
    simp only [List.cons_append, fieldGroups, ih, List.flatMap_cons, List.length_append, List.length_cons]
    congr 3
    omega

/-! #### Lists of indices -/

theorem index_distinct {k most : Nat} (ns : List (Fin k)) (seen : List (Fin k)) (pos : Nat) (hd : (seen ++ ns).Nodup)
    (hl : (seen ++ ns).length ≤ most) (ws : List Text) :
    indexList k most seen pos (ns.map ordinal ++ ws) = indexList k most (seen ++ ns) (pos + ns.length) ws := by
  induction ns generalizing seen pos with
  | nil => simp
  | cons n ns ih =>
    have hn : n ∉ seen := fun hm => (List.nodup_append.1 hd).2.2 n hm n (by simp) rfl
    have hlt : ¬most ≤ seen.length := by
      simp only [List.length_append, List.length_cons] at hl
      omega
    have ih := ih (seen ++ [n]) (pos + 1) (by simpa using hd) (by simpa using hl)
    have hp : pos + 1 + ns.length = pos + (ns.length + 1) := by omega
    simp only [List.map_cons, List.cons_append, indexList, index_ordinal, hlt, hn, if_false, ih, List.length_cons, hp,
      List.append_assoc, List.nil_append]

/-- Distinct indices are read as they stand. -/
theorem indexList_ordinals {k most pos : Nat} {ns : List (Fin k)} (hd : ns.Nodup) (hl : ns.length ≤ most) :
    indexList k most [] pos (ns.map ordinal) = .ok ns := by
  have h := index_distinct (most := most) ns [] pos (by simpa using hd) (by simpa using hl) []
  simpa [indexList] using h

theorem indexList_outside {k most pos n : Nat} {ws : List Text} (h : n < 1 ∨ k < n) :
    indexList k most [] pos (digits n :: ws) = .error (.range (some pos)) := by
  simp [indexList, index_outside h]

theorem indexList_twice {k most pos : Nat} (n : Fin k) (hm : 2 ≤ most) :
    indexList k most [] pos [ordinal n, ordinal n] = .error (.conflict (pos + 1)) := by
  have h0 : ¬most ≤ 0 := by omega
  have h1 : ¬most ≤ 1 := by omega
  simp [indexList, index_ordinal, h0, h1]

/-- One index more than a list may hold. -/
theorem indexList_full {k most pos : Nat} {ns : List (Fin k)} (hd : ns.Nodup) (hl : ns.length = most) (n : Fin k) :
    indexList k most [] pos (ns.map ordinal ++ [ordinal n]) = .error (.range (some (pos + most))) := by
  rw [index_distinct ns [] pos (by simpa using hd) (by simp [hl])]
  simp [indexList, index_ordinal, hl]

/-! #### The fields of a lever record -/

section
variable (kind : LeverKind) (r : LevRead) (pos : Nat) (as : List Text)

theorem field_track : r.field kind ⟨W.TC, pos, as⟩ =
    r.take 0 (readTrack kind r.tracks ⟨W.TC, pos, as⟩) fun t => { r with tracks := r.tracks ++ [t] } := rfl

theorem field_proving : r.field kind ⟨W.G, pos, as⟩ =
    r.take 1 (readProving kind r.provings ⟨W.G, pos, as⟩) fun t => { r with provings := r.provings ++ [t] } := rfl

theorem field_block : r.field kind ⟨W.BLOCK, pos, as⟩ =
    r.take 2 (readSection kind r.block.isSome ⟨W.BLOCK, pos, as⟩) fun x => { r with block := some x } := rfl

theorem field_approach : r.field kind ⟨W.APPROACH, pos, as⟩ =
    r.take 3 (readApproach kind r.approach.isSome ⟨W.APPROACH, pos, as⟩) fun ts => { r with approach := some ts } := rfl

theorem field_sec : r.field kind ⟨W.ASEC, pos, as⟩ =
    r.take 4 (readSection kind r.sec.isSome ⟨W.ASEC, pos, as⟩) fun x => { r with sec := some x } := rfl

theorem field_time : r.field kind ⟨W.TIME, pos, as⟩ =
    r.take 5 (readTime kind r.time.isSome ⟨W.TIME, pos, as⟩) fun n => { r with time := some n } := rfl

theorem fields_append (gs hs : List Group) : r.fields kind (gs ++ hs) = (r.fields kind gs).fields kind hs := by
  induction gs generalizing r with
  | nil => rfl
  | cons g gs ih => exact ih _

end

theorem qualifier_word {kind : LeverKind} {pos : Nat} {a : Applies} (h : kind = .signal → a = .leaveN) :
    qualifier kind pos (wordFor appliesTable a) = .ok a := by
  have hs : ¬(kind = .signal ∧ a ≠ .leaveN) := fun ⟨hk, ha⟩ => ha (h hk)
  simp [qualifier, oneOf, wordAt, wordAt?, lookup_applies, Except.mapError, refuseIf, hs]

/-- A qualifier that is none, or that a SIGNAL does not carry. -/
theorem qualifier_refused {kind : LeverKind} {pos : Nat} {w : Text}
    (h : lookup appliesTable w = none ∨ kind = .signal ∧ lookup appliesTable w ≠ some .leaveN) :
    qualifier kind pos w = .error (.form (some pos)) := by
  cases hl : lookup appliesTable w with
  | none => simp [qualifier, oneOf, wordAt, wordAt?, hl, Except.mapError]
  | some a =>
    obtain ⟨hk, ha⟩ := h.resolve_left (by simp [hl])
    have ha : a ≠ .leaveN := fun hc => ha (hc ▸ hl)
    simp [qualifier, oneOf, wordAt, wordAt?, hl, Except.mapError, refuseIf, hk, ha]

@[simp] theorem group_arg_one (k w : Text) (pos : Nat) (ws : List Text) : (Group.mk k pos (w :: ws)).arg 1 = .ok w := rfl
@[simp] theorem group_arg_two (k v w : Text) (pos : Nat) (ws : List Text) :
    (Group.mk k pos (v :: w :: ws)).arg 2 = .ok w := rfl
@[simp] theorem group_arg_three (k u v w : Text) (pos : Nat) (ws : List Text) :
    (Group.mk k pos (u :: v :: w :: ws)).arg 3 = .ok w := rfl
@[simp] theorem group_arg_missing (k : Text) (pos : Nat) :
    (Group.mk k pos []).arg 1 = .error (.form (some (pos + 1))) := rfl

@[simp] theorem refuseIf_false (e : Err) : refuseIf false e = .ok () := rfl
@[simp] theorem refuseIf_true (e : Err) : refuseIf true e = .error e := rfl

/-! Each field: when it is read, and the refusals. -/

section
variable {kind : LeverKind} {pos : Nat}

/-- The words of a track term's field. -/
def trackArgs (t : TrackTerm) : List Text := [ordinal t.circuit, wordFor appliesTable t.applies]

def provingArgs (p : ProvingTerm) : List Text :=
  [ordinal p.input, wordFor activeTable p.active, wordFor appliesTable p.applies]

theorem readTrack_ok {terms : List TrackTerm} {t : TrackTerm} (hk : kind ≠ .spare) (hl : terms.length < 4)
    (hd : t.circuit ∉ terms.map (·.circuit)) (ha : kind = .signal → t.applies = .leaveN) :
    readTrack kind terms ⟨W.TC, pos, trackArgs t⟩ = .ok t := by
  have hany : (terms.any fun u => decide (u.circuit = t.circuit)) = false := by
    rw [List.any_eq_false]
    intro u hu
    simpa using fun he => hd (List.mem_map.2 ⟨u, hu, he⟩)
  have hl : ¬4 ≤ terms.length := by omega
  simp only [readTrack, trackArgs, hk, hl, decide_false, refuseIf_false, parsed_ok_bind, group_arg_one, group_arg_two,
    index_ordinal, hany, qualifier_word ha]
  rfl

theorem readProving_ok {terms : List ProvingTerm} {t : ProvingTerm} (hk : kind ≠ .spare) (hl : terms.length < 2)
    (hd : t.input ∉ terms.map (·.input)) (ha : kind = .signal → t.applies = .leaveN) :
    readProving kind terms ⟨W.G, pos, provingArgs t⟩ = .ok t := by
  have hany : (terms.any fun u => decide (u.input = t.input)) = false := by
    rw [List.any_eq_false]
    intro u hu
    simpa using fun he => hd (List.mem_map.2 ⟨u, hu, he⟩)
  have hl : ¬2 ≤ terms.length := by omega
  simp only [readProving, provingArgs, hk, hl, decide_false, refuseIf_false, parsed_ok_bind, group_arg_one, group_arg_two,
    group_arg_three, Group.tableArg, lookup_active, index_ordinal, hany, qualifier_word ha, parsed_pure_eq]
  rfl

theorem readTrack_spare {terms : List TrackTerm} {g : Group} : readTrack .spare terms g = .error (.form (some g.pos)) := by
  simp [readTrack]

theorem readProving_spare {terms : List ProvingTerm} {g : Group} :
    readProving .spare terms g = .error (.form (some g.pos)) := by
  simp [readProving]

theorem readTrack_full {terms : List TrackTerm} {g : Group} (hk : kind ≠ .spare) (h : terms.length = 4) :
    readTrack kind terms g = .error (.range (some g.pos)) := by
  simp [readTrack, hk, h]

theorem readProving_full {terms : List ProvingTerm} {g : Group} (hk : kind ≠ .spare) (h : terms.length = 2) :
    readProving kind terms g = .error (.range (some g.pos)) := by
  simp [readProving, hk, h]

theorem readTrack_index {k : Nat} {key w : Text} (hk : kind ≠ .spare) (h : k < 1 ∨ 20 < k) :
    readTrack kind [] ⟨key, pos, [digits k, w]⟩ = .error (.range (some (pos + 1))) := by
  simp [readTrack, hk, index_outside h]

theorem readProving_index {k : Nat} {key v w : Text} (hk : kind ≠ .spare) (h : k < 1 ∨ 16 < k) :
    readProving kind [] ⟨key, pos, [digits k, v, w]⟩ = .error (.range (some (pos + 1))) := by
  simp [readProving, hk, index_outside h]

/-- The circuit of a term before. -/
theorem readTrack_twice {t : TrackTerm} {key w : Text} (hk : kind ≠ .spare) :
    readTrack kind [t] ⟨key, pos, [ordinal t.circuit, w]⟩ = .error (.conflict (pos + 1)) := by
  simp [readTrack, hk, index_ordinal]

theorem readProving_twice {t : ProvingTerm} {key v w : Text} (hk : kind ≠ .spare) :
    readProving kind [t] ⟨key, pos, [ordinal t.input, v, w]⟩ = .error (.conflict (pos + 1)) := by
  simp [readProving, hk, index_ordinal]

/-- A qualifier refused. -/
def badQualifier (kind : LeverKind) (w : Text) : Prop :=
  lookup appliesTable w = none ∨ kind = .signal ∧ lookup appliesTable w ≠ some .leaveN

theorem readTrack_qualifier {c : Circuit} {key w : Text} (hk : kind ≠ .spare) (h : badQualifier kind w) :
    readTrack kind [] ⟨key, pos, [ordinal c, w]⟩ = .error (.form (some (pos + 2))) := by
  simp [readTrack, hk, index_ordinal, qualifier_refused h]

theorem readProving_qualifier {i : Input} {b : Bool} {key w : Text} (hk : kind ≠ .spare) (h : badQualifier kind w) :
    readProving kind [] ⟨key, pos, [ordinal i, wordFor activeTable b, w]⟩ = .error (.form (some (pos + 3))) := by
  simp [readProving, hk, index_ordinal, Group.tableArg, lookup_active, parsed_pure_eq, qualifier_refused h]

theorem readProving_active {i : Input} {key v w : Text} (hk : kind ≠ .spare) (h : lookup activeTable v = none) :
    readProving kind [] ⟨key, pos, [ordinal i, v, w]⟩ = .error (.form (some (pos + 2))) := by
  simp [readProving, hk, index_ordinal, Group.tableArg, h]

theorem signalOnce_ok {g : Group} : signalOnce .signal false g = .ok () := by
  simp [signalOnce]

theorem signalOnce_other {given : Bool} {g : Group} (hk : kind ≠ .signal) :
    signalOnce kind given g = .error (.form (some g.pos)) := by
  simp [signalOnce, hk]

theorem sectionWord_letter (x : Sec) : sectionWord pos (sectionLetter x) = .ok x := by
  simp [sectionWord]

theorem secOf_none {w : Text} (h : w ∉ [W.A, W.B, W.C]) : secOf? w = none := by
  simp only [List.mem_cons, List.not_mem_nil, or_false, not_or] at h
  simp [secOf?, h]

theorem readSection_ok {key : Text} (x : Sec) :
    readSection .signal false ⟨key, pos, [sectionLetter x]⟩ = .ok x := by
  simp only [readSection, signalOnce_ok, parsed_ok_bind, group_arg_one, sectionWord_letter]
  rfl

theorem readSection_word {key w : Text} (h : w ∉ [W.A, W.B, W.C]) :
    readSection .signal false ⟨key, pos, [w]⟩ = .error (.range (some (pos + 1))) := by
  simp [readSection, signalOnce_ok, sectionWord, secOf_none h]

theorem readApproach_ok {key : Text} {cs : List Circuit} (hne : cs ≠ []) (hl : cs.length ≤ 3) (hd : cs.Nodup) :
    readApproach .signal false ⟨key, pos, cs.map ordinal⟩ = .ok cs := by
  have he : (cs.map ordinal).isEmpty = false := by simpa using hne
  simp [readApproach, signalOnce_ok, he, indexList_ordinals hd hl]

theorem readApproach_list {key w : Text} {ws : List Text} :
    readApproach .signal false ⟨key, pos, w :: ws⟩ = indexList 20 3 [] (pos + 1) (w :: ws) := by
  simp [readApproach, signalOnce_ok]

theorem readApproach_missing {key : Text} :
    readApproach .signal false ⟨key, pos, []⟩ = .error (.form (some (pos + 1))) := by
  simp [readApproach, signalOnce_ok]

theorem readTime_ok {key : Text} (n : Nat) : readTime .signal false ⟨key, pos, [digits n]⟩ = .ok n := by
  simp only [readTime, signalOnce_ok, parsed_ok_bind, group_arg_one, number_digits, bareForm_ok]
  rfl

theorem readTime_missing {key : Text} : readTime .signal false ⟨key, pos, []⟩ = .error (.form none) := by
  simp [readTime, signalOnce_ok]

theorem readTime_bad {key w : Text} (h : decimal? w = none) :
    readTime .signal false ⟨key, pos, [w]⟩ = .error (.form none) := by
  simp [readTime, signalOnce_ok, number_bad h]

end

/-! #### A record written and read -/

/-- The fields of a record's canonical text after its kind. -/
def blockFields (o : Option Sec) : List (Text × List Text) :=
  o.toList.map fun x => (W.BLOCK, [sectionLetter x])

def approachFields : Option Approach → List (Text × List Text)
  | none => []
  | some a => (W.APPROACH, a.circuits.map ordinal) ::
      (a.sec.toList.map fun x => (W.ASEC, [sectionLetter x])) ++ [(W.TIME, [digits a.time])]

def levFields (r : LevRecord) : List (Text × List Text) :=
  (r.tracks.map fun t => (W.TC, trackArgs t)) ++ (r.provings.map fun p => (W.G, provingArgs p)) ++
    blockFields r.block ++ approachFields r.approach

/-- Fields as words. -/
def fieldWords (fs : List (Text × List Text)) : List Text := fs.flatMap fun f => f.1 :: f.2

theorem levWords_eq (n : Lever) (r : LevRecord) (h : ∀ a ∈ r.approach, a.circuits ≠ []) :
    levWords n r = [W.LEV, ordinal n, wordFor kindTable r.kind] ++ fieldWords (levFields r) := by
  have ht : r.tracks.flatMap trackTermWords = fieldWords (r.tracks.map fun t => (W.TC, trackArgs t)) := by
    simp only [fieldWords, List.flatMap_map]
    rfl
  have hp : r.provings.flatMap provingTermWords = fieldWords (r.provings.map fun p => (W.G, provingArgs p)) := by
    simp only [fieldWords, List.flatMap_map]
    rfl
  have hb : sectionField W.BLOCK r.block = fieldWords (blockFields r.block) := by
    cases r.block <;> rfl
  have ha : approachWords r.approach = fieldWords (approachFields r.approach) := by
    cases hr : r.approach with
    | none => rfl
    | some a =>
      have hl : listField W.APPROACH a.circuits = W.APPROACH :: a.circuits.map ordinal := by
        cases hc : a.circuits with
        | nil => exact absurd hc (h a hr)
        | cons c cs => rfl
      rw [approachWords, hl]
      cases hs : a.sec <;> simp [approachFields, fieldWords, sectionField, hs]
  rw [levWords, ht, hp, hb, ha]
  simp [levFields, fieldWords]

/-- Field words, with no field word among those after them. -/
def WellFormed (ks : List Text) (fs : List (Text × List Text)) : Prop :=
  ∀ f ∈ fs, f.1 ∈ ks ∧ ∀ a ∈ f.2, a ∉ ks

@[simp] theorem wellFormed_nil (ks : List Text) : WellFormed ks [] := by simp [WellFormed]

@[simp] theorem wellFormed_cons {ks : List Text} {f : Text × List Text} {fs : List (Text × List Text)} :
    WellFormed ks (f :: fs) ↔ (f.1 ∈ ks ∧ ∀ a ∈ f.2, a ∉ ks) ∧ WellFormed ks fs := List.forall_mem_cons

theorem groups_fieldWords {ks : List Text} {fs : List (Text × List Text)} (h : WellFormed ks fs) (pos : Nat) :
    groups (fun w => decide (w ∈ ks)) pos (fieldWords fs) = (fieldGroups pos fs, []) :=
  groups_fields fs pos fun f hf => ⟨by simpa using (h f hf).1, fun a ha => by simpa using (h f hf).2 a ha⟩

theorem levKeys_decimal : ∀ w ∈ levKeys, decimal? w = none := by decide

@[simp] theorem ordinal_not_levKey {k : Nat} (n : Fin k) : ordinal n ∉ levKeys := ordinal_not_mem levKeys_decimal n
@[simp] theorem digits_not_levKey (n : Nat) : digits n ∉ levKeys := digits_not_mem levKeys_decimal n
@[simp] theorem tc_levKey : W.TC ∈ levKeys := by decide
@[simp] theorem g_levKey : W.G ∈ levKeys := by decide
@[simp] theorem block_levKey : W.BLOCK ∈ levKeys := by decide
@[simp] theorem approach_levKey : W.APPROACH ∈ levKeys := by decide
@[simp] theorem asec_levKey : W.ASEC ∈ levKeys := by decide
@[simp] theorem time_levKey : W.TIME ∈ levKeys := by decide

@[simp] theorem appliesWord_not_key (a : Applies) : wordFor appliesTable a ∉ levKeys := by cases a <;> decide

@[simp] theorem activeWord_not_key (b : Bool) : wordFor activeTable b ∉ levKeys := by cases b <;> decide

@[simp] theorem sectionLetter_not_key (x : Sec) : sectionLetter x ∉ levKeys := by cases x <;> decide

theorem levFields_wellFormed (r : LevRecord) : WellFormed levKeys (levFields r) := by
  intro f hf
  simp only [levFields, List.mem_append, List.mem_map, or_assoc] at hf
  obtain ⟨t, -, rfl⟩ | ⟨p, -, rfl⟩ | hf | hf := hf
  · simp [trackArgs]
  · simp [provingArgs]
  · obtain ⟨x, -, rfl⟩ := List.mem_map.1 hf
    simp
  · cases hr : r.approach with
    | none => simp [hr, approachFields] at hf
    | some a =>
      simp only [hr, approachFields, List.cons_append, List.mem_cons, List.mem_append, List.mem_map, List.not_mem_nil,
        or_false] at hf
      obtain rfl | ⟨x, -, rfl⟩ | rfl := hf <;> simp

/-- The fields are read one after another. -/
def readFields (kind : LeverKind) (fs : List (Text × List Text)) : LevRead :=
  (LevRead.empty.fields kind (fieldGroups 4 fs)).needApproach (fieldGroups 4 fs)

theorem readLev_fields (kind : LeverKind) (a b c : Text) {fs : List (Text × List Text)} (h : WellFormed levKeys fs) :
    readLev kind ([a, b, c] ++ fieldWords fs) = readFields kind fs := by
  have hg : groups (fun w => decide (w ∈ levKeys)) 4 (([a, b, c] ++ fieldWords fs).drop 3) = (fieldGroups 4 fs, []) :=
    groups_fieldWords h 4
  rw [readLev, hg]
  rfl

section
variable {kind : LeverKind}

/-- The track terms of a record, read after those read already. -/
theorem fields_tracks (ts : List TrackTerm) (r : LevRead) (pos : Nat) (hk : ts ≠ [] → kind ≠ .spare)
    (hl : (r.tracks ++ ts).length ≤ 4) (hd : ((r.tracks ++ ts).map (·.circuit)).Nodup)
    (ha : kind = .signal → ∀ t ∈ ts, t.applies = .leaveN) :
    r.fields kind (fieldGroups pos (ts.map fun t => (W.TC, trackArgs t))) = { r with tracks := r.tracks ++ ts } := by
  induction ts generalizing r pos with
  | nil => simp [fieldGroups, LevRead.fields]
  | cons t ts ih =>
    have hk := hk (by simp)
    have hlt : r.tracks.length < 4 := by
      simp only [List.length_append, List.length_cons] at hl
      omega
    have hnd : t.circuit ∉ r.tracks.map (·.circuit) := fun hm => by
      rw [List.map_append, List.nodup_append] at hd
      exact hd.2.2 _ hm t.circuit (by simp) rfl
    have hread := readTrack_ok (pos := pos) hk hlt hnd fun h => ha h t (by simp)
    simp only [List.map_cons, fieldGroups, LevRead.fields, field_track, hread, LevRead.take]
    rw [ih { r with tracks := r.tracks ++ [t] } _ (fun _ => hk) (by simpa using hl) (by simpa using hd)
      fun h u hu => ha h u (List.mem_cons_of_mem _ hu)]
    simp

/-- The proving terms likewise. -/
theorem fields_provings (ts : List ProvingTerm) (r : LevRead) (pos : Nat) (hk : ts ≠ [] → kind ≠ .spare)
    (hl : (r.provings ++ ts).length ≤ 2) (hd : ((r.provings ++ ts).map (·.input)).Nodup)
    (ha : kind = .signal → ∀ t ∈ ts, t.applies = .leaveN) :
    r.fields kind (fieldGroups pos (ts.map fun t => (W.G, provingArgs t))) = { r with provings := r.provings ++ ts } := by
  induction ts generalizing r pos with
  | nil => simp [fieldGroups, LevRead.fields]
  | cons t ts ih =>
    have hk := hk (by simp)
    have hlt : r.provings.length < 2 := by
      simp only [List.length_append, List.length_cons] at hl
      omega
    have hnd : t.input ∉ r.provings.map (·.input) := fun hm => by
      rw [List.map_append, List.nodup_append] at hd
      exact hd.2.2 _ hm t.input (by simp) rfl
    have hread := readProving_ok (pos := pos) hk hlt hnd fun h => ha h t (by simp)
    simp only [List.map_cons, fieldGroups, LevRead.fields, field_proving, hread, LevRead.take]
    rw [ih { r with provings := r.provings ++ [t] } _ (fun _ => hk) (by simpa using hl) (by simpa using hd)
      fun h u hu => ha h u (List.mem_cons_of_mem _ hu)]
    simp

theorem fields_block (o : Option Sec) (r : LevRead) (pos : Nat) (hk : o ≠ none → kind = .signal) (hr : r.block = none) :
    r.fields kind (fieldGroups pos (blockFields o)) = { r with block := o } := by
  cases o with
  | none =>
    cases r
    cases hr
    rfl
  | some x =>
    obtain rfl := hk (by simp)
    have hread := readSection_ok (pos := pos) (key := W.BLOCK) x
    simp [blockFields, fieldGroups, LevRead.fields, field_block, hr, hread, LevRead.take]

theorem fields_approach (a : Approach) (r : LevRead) (pos : Nat) (hne : a.circuits ≠ []) (hl : a.circuits.length ≤ 3)
    (hd : a.circuits.Nodup) (hr : r.approach = none ∧ r.sec = none ∧ r.time = none) :
    r.fields .signal (fieldGroups pos (approachFields (some a))) =
      { r with approach := some a.circuits, sec := a.sec, time := some a.time } := by
  obtain ⟨h1, h2, h3⟩ := hr
  have hread := fun pos => readApproach_ok (pos := pos) (key := W.APPROACH) hne hl hd
  have htime := fun pos => readTime_ok (pos := pos) (key := W.TIME) a.time
  cases hs : a.sec with
  | none =>
    simp [approachFields, fieldGroups, LevRead.fields, field_approach, field_time, h1, h3, hread, htime, LevRead.take, hs, h2]
  | some x =>
    have hsec := fun pos => readSection_ok (pos := pos) (key := W.ASEC) x
    simp [approachFields, fieldGroups, LevRead.fields, field_approach, field_time, field_sec, h1, h2, h3, hread, htime,
      hsec, LevRead.take, hs]

end

/-- What is read of a record's own fields. -/
def LevRecord.asRead (r : LevRecord) : LevRead where
  tracks := r.tracks
  provings := r.provings
  block := r.block
  approach := r.approach.map (·.circuits)
  sec := r.approach.bind (·.sec)
  time := r.approach.map (·.time)
  refusal := none

theorem fieldGroups_keys (fs : List (Text × List Text)) (pos : Nat) :
    (fieldGroups pos fs).map (·.key) = fs.map (·.1) := by
  induction fs generalizing pos with
  | nil => rfl
  | cons f fs ih =>
    obtain ⟨k, as⟩ := f
    simp [fieldGroups, ih]

/-- Approach circuits given, or no field that needs them. -/
theorem needApproach_same {fs : List (Text × List Text)} (r : LevRead) (pos : Nat)
    (h : W.APPROACH ∈ fs.map (·.1) ∨ W.ASEC ∉ fs.map (·.1) ∧ W.TIME ∉ fs.map (·.1)) :
    r.needApproach (fieldGroups pos fs) = r := by
  rw [← fieldGroups_keys fs pos] at h
  obtain h | ⟨hs, ht⟩ := h
  · obtain ⟨g, hg, hk⟩ := List.mem_map.1 h
    have ha : ((fieldGroups pos fs).any fun g => decide (g.key = W.APPROACH)) = true :=
      List.any_eq_true.2 ⟨g, hg, decide_eq_true hk⟩
    simp [LevRead.needApproach, ha]
  · have hs : ((fieldGroups pos fs).find? fun g => decide (g.key = W.ASEC)) = none := by
      simpa using fun g hg hk => hs (List.mem_map.2 ⟨g, hg, hk⟩)
    have ht : ((fieldGroups pos fs).find? fun g => decide (g.key = W.TIME)) = none := by
      simpa using fun g hg hk => ht (List.mem_map.2 ⟨g, hg, hk⟩)
    simp [LevRead.needApproach, hs, ht]

theorem levFields_keys (r : LevRecord) : W.APPROACH ∈ (levFields r).map (·.1) ∨
    W.ASEC ∉ (levFields r).map (·.1) ∧ W.TIME ∉ (levFields r).map (·.1) := by
  cases hr : r.approach with
  | some a => exact .inl (by simp [levFields, approachFields, hr])
  | none =>
    have hkeys : ∀ k ∈ (levFields r).map (·.1), k = W.TC ∨ k = W.G ∨ k = W.BLOCK := by
      intro k hk
      simp only [levFields, hr, approachFields, blockFields, List.append_nil, List.map_append, List.map_map, List.mem_append,
        List.mem_map, Function.comp_apply] at hk
      obtain (⟨t, -, rfl⟩ | ⟨t, -, rfl⟩) | ⟨x, -, rfl⟩ := hk <;> simp
    exact .inr ⟨fun hm => absurd (hkeys _ hm) (by decide), fun hm => absurd (hkeys _ hm) (by decide)⟩

/-- A record's fields are read as the record's own. -/
theorem readFields_levFields {r : LevRecord} (h : r.valid) : readFields r.kind (levFields r) = r.asRead := by
  obtain ⟨htl, htd, hpl, hpd, hsig, hoth, hspare, happ⟩ := h
  rw [readFields, needApproach_same _ _ (levFields_keys r), levFields]
  simp only [fieldGroups_append, fields_append]
  rw [fields_tracks _ _ _ (fun hne hk => hne (hspare hk).1) (by simpa [LevRead.empty] using htl)
      (by simpa [LevRead.empty] using htd) (fun hk => (hsig hk).1),
    fields_provings _ _ _ (fun hne hk => hne (hspare hk).2) (by simpa [LevRead.empty] using hpl)
      (by simpa [LevRead.empty] using hpd) (fun hk => (hsig hk).2),
    fields_block _ _ _ (fun hne => Classical.byContradiction fun hk => hne (hoth hk).1) rfl]
  cases hr : r.approach with
  | none => simp [approachFields, fieldGroups, LevRead.fields, LevRecord.asRead, LevRead.empty, hr]
  | some a =>
    have hk : r.kind = .signal := Classical.byContradiction fun hk => by
      have hno := (hoth hk).2
      rw [hr] at hno
      cases hno
    obtain ⟨hne, hl, hd, -, -⟩ := happ a hr
    rw [hk, fields_approach a _ _ hne hl hd ⟨rfl, rfl, rfl⟩]
    simp [LevRecord.asRead, LevRead.empty, hr]

theorem asRead_record {r : LevRecord} (h : r.valid) : r.asRead.record r.kind = r := by
  obtain ⟨-, -, -, -, -, -, -, happ⟩ := h
  obtain ⟨kind, tracks, provings, block, approach⟩ := r
  cases approach with
  | none => rfl
  | some a =>
    obtain ⟨-, -, -, hlo, hhi⟩ := happ a rfl
    have ht : clampNat 10 600 a.time = a.time := by
      rw [clampNat_eq (by decide)]
      omega
    simp [LevRead.record, LevRecord.asRead, ht]

theorem asRead_clamped {r : LevRecord} (h : r.valid) : r.asRead.clamped = false := by
  obtain ⟨-, -, -, -, -, -, -, happ⟩ := h
  cases hr : r.approach with
  | none => simp [LevRead.clamped, LevRecord.asRead, hr]
  | some a =>
    obtain ⟨-, -, -, hlo, hhi⟩ := happ a hr
    have ht : clampNat 10 600 a.time = a.time := by
      rw [clampNat_eq (by decide)]
      omega
    simp [LevRead.clamped, LevRecord.asRead, ht, hr]

/-! #### The request -/

section
variable {s : State} (n : Lever) (kind : LeverKind)

/-- A LEV request whose fields are read with no refusal. -/
theorem handleLev_fields {ws : List Text} {r : LevRead} (hr : readLev kind (W.LEV :: ordinal n :: wordFor kindTable kind :: ws) = r)
    (hn : r.refusal = none) :
    handleLev (W.LEV :: ordinal n :: wordFor kindTable kind :: ws) s =
      .ok (storeLev n (some (r.record kind)) s, levWords n (r.record kind) ++ optional r.clamped W.CLAMPED) := by
  have hi : indexAt 48 (W.LEV :: ordinal n :: wordFor kindTable kind :: ws) 2 = .ok n := indexAt_ordinal rfl
  simp only [handleLev, hi, parsed_ok_bind, oneOf, wordAt_some wordAt?_three, lookup_kind, hr, hn, parsed_pure_eq]

theorem handleLev_refused {ws : List Text} {r : LevRead} {k : Nat} {e : Err}
    (hr : readLev kind (W.LEV :: ordinal n :: wordFor kindTable kind :: ws) = r) (hf : r.refusal = some (k, e)) :
    handleLev (W.LEV :: ordinal n :: wordFor kindTable kind :: ws) s = .error e := by
  have hi : indexAt 48 (W.LEV :: ordinal n :: wordFor kindTable kind :: ws) 2 = .ok n := indexAt_ordinal rfl
  simp only [handleLev, hi, parsed_ok_bind, oneOf, wordAt_some wordAt?_three, lookup_kind, hr, hf]

theorem handleLev_index {ws : List Text} {e : Err} (h : indexAt 48 ws 2 = .error e) : handleLev ws s = .error e := by
  simp only [handleLev, h, parsed_error_bind]

theorem handleLev_kind {ws : List Text} {e : Err} (hi : indexAt 48 ws 2 = .ok n)
    (h : oneOf (lookup kindTable) ws 3 = .error e) : handleLev ws s = .error e := by
  simp only [handleLev, hi, parsed_ok_bind, h, parsed_error_bind]

/-- A LEV request accepted, and what it stores. -/
theorem lev_accepted (hs : s.service.state = .configure) {ws : List Text} {r : LevRead}
    (ha : s.asks .lev (W.LEV :: ordinal n :: wordFor kindTable kind :: ws))
    (hr : readLev kind (W.LEV :: ordinal n :: wordFor kindTable kind :: ws) = r) (hn : r.refusal = none) :
    ∃ t, exec .lev s = .next t ∧
      repliesWith (success (levWords n (r.record kind) ++ optional r.clamped W.CLAMPED)) s t ∧
      t.lever n = { s.lever n with record := some (r.record kind), backlock := .idle } ∧
      ∀ m, m ≠ n → t.lever m = s.lever m := by
  obtain ⟨hx, hrep⟩ := request_ok rfl ha (inConfigure_of hs) (handleLev_fields n kind hr hn) (by simp only [storeLev, State.setLever_link])
  refine ⟨_, hx, hrep, ?_, fun m hm => ?_⟩
  · rw [commit_lever, reply_lever, storeLev, State.lever_setLever_same]
  · rw [commit_lever, reply_lever, storeLev, State.lever_setLever_ne _ _ hm]

/-- A LEV request refused for a field. -/
theorem lev_refused (hs : s.service.state = .configure) {ws : List Text} {k : Nat} {e : Err}
    (hf : (readLev kind (W.LEV :: ordinal n :: wordFor kindTable kind :: ws)).refusal = some (k, e)) {answer : List Text}
    (hr : answer = e.words) (ha : s.asks .lev (W.LEV :: ordinal n :: wordFor kindTable kind :: ws)) :
    answersOnly .lev answer s :=
  refused rfl ha (inConfigure_of hs) (handleLev_refused n kind rfl hf) hr

end

/-! #### Refusals -/

section
variable {kind : LeverKind}

theorem fail_refusal {r : LevRead} (h : r.refusal = none) (k : Nat) (e : Err) : (r.fail k e).refusal = some (k, e) := by
  simp [LevRead.fail, h]

/-- The fields before the last are read, and the last is refused. -/
theorem lastField_refused {fs : List (Text × List Text)} {r : LevRead} {key : Text} {as : List Text} {rank : Nat} {e : Err}
    {ks : List Text} (hfs : LevRead.empty.fields kind (fieldGroups 4 fs) = r) (hn : r.refusal = none)
    (hlast : r.field kind ⟨key, 4 + (fieldWords fs).length, as⟩ = r.fail rank e)
    (hks : fs.map (·.1) ++ [key] = ks) (hkeys : W.APPROACH ∈ ks ∨ W.ASEC ∉ ks ∧ W.TIME ∉ ks) :
    (readFields kind (fs ++ [(key, as)])).refusal = some (rank, e) := by
  rw [← hks, ← List.map_singleton (f := fun f : Text × List Text => f.1) (a := (key, as)), ← List.map_append] at hkeys
  rw [readFields, needApproach_same _ _ hkeys, fieldGroups_append, fields_append, hfs]
  show (r.field kind _).refusal = _
  rw [← fieldWords, hlast, fail_refusal hn]

section
variable {as : List Text} {e : Err}

theorem track_refused (h : readTrack kind [] ⟨W.TC, 4, as⟩ = .error e) :
    (readFields kind [(W.TC, as)]).refusal = some (0, e) :=
  lastField_refused (fs := []) rfl rfl (by rw [field_track]; exact congrArg (LevRead.empty.take 0 · _) h) rfl (by decide)

theorem proving_refused (h : readProving kind [] ⟨W.G, 4, as⟩ = .error e) :
    (readFields kind [(W.G, as)]).refusal = some (1, e) :=
  lastField_refused (fs := []) rfl rfl (by rw [field_proving]; exact congrArg (LevRead.empty.take 1 · _) h) rfl (by decide)

theorem block_refused (h : readSection kind false ⟨W.BLOCK, 4, as⟩ = .error e) :
    (readFields kind [(W.BLOCK, as)]).refusal = some (2, e) :=
  lastField_refused (fs := []) rfl rfl (by rw [field_block]; exact congrArg (LevRead.empty.take 2 · _) h) rfl (by decide)

theorem approach_refused (h : readApproach kind false ⟨W.APPROACH, 4, as⟩ = .error e) :
    (readFields kind [(W.APPROACH, as)]).refusal = some (3, e) :=
  lastField_refused (fs := []) rfl rfl (by rw [field_approach]; exact congrArg (LevRead.empty.take 3 · _) h) rfl (by decide)

end

/-- The approach circuit alone, read. -/
theorem fields_oneApproach (c : Circuit) : LevRead.empty.fields .signal (fieldGroups 4 [(W.APPROACH, [ordinal c])]) =
    { LevRead.empty with approach := some [c] } := by
  show LevRead.empty.field .signal ⟨W.APPROACH, 4, [c].map ordinal⟩ = _
  rw [field_approach]
  exact congrArg (LevRead.empty.take 3 · _) (readApproach_ok (by simp) (by simp) (by simp))

theorem time_refused (c : Circuit) {as : List Text} {e : Err} (h : readTime .signal false ⟨W.TIME, 6, as⟩ = .error e) :
    (readFields .signal [(W.APPROACH, [ordinal c]), (W.TIME, as)]).refusal = some (5, e) :=
  lastField_refused (fields_oneApproach c) rfl (by rw [field_time]; exact congrArg (LevRead.take _ 5 · _) h) rfl (.inl (.head _))

theorem sec_refused (c : Circuit) {as : List Text} {e : Err} (h : readSection .signal false ⟨W.ASEC, 6, as⟩ = .error e) :
    (readFields .signal [(W.APPROACH, [ordinal c]), (W.ASEC, as)]).refusal = some (4, e) :=
  lastField_refused (fields_oneApproach c) rfl (by rw [field_sec]; exact congrArg (LevRead.take _ 4 · _) h) rfl (.inl (.head _))

/-! A term after others. -/

theorem repeated_key {α : Type} {k w : Text} (f : α → List Text) (ts : List α) (hw : w ≠ k) :
    w ∉ (ts.map fun t => (k, f t)).map (·.1) ++ [k] := by
  simp [hw, hw.symm]

theorem fieldWords_length {α : Type} {k m : Nat} (f : α → Text × List Text) (hf : ∀ t, (f t).2.length = k) (hm : m = k + 1)
    (ts : List α) : (fieldWords (ts.map f)).length = m * ts.length := by
  induction ts with
  | nil => rfl
  | cons t ts ih =>
    rw [fieldWords] at ih ⊢
    simp only [List.map_cons, List.flatMap_cons, List.length_append, List.length_cons, hf, ih, ← hm]
    rw [Nat.mul_succ, Nat.add_comm]

/-- A track term after others, refused. -/
theorem lastTrack_refused {ts : List TrackTerm} {as : List Text} {e : Err} (hk : kind ≠ .spare) (hl : ts.length ≤ 4)
    (hd : (ts.map (·.circuit)).Nodup) (ha : ∀ t ∈ ts, t.applies = .leaveN)
    (h : readTrack kind ts ⟨W.TC, 4 + 3 * ts.length, as⟩ = .error e) :
    (readFields kind ((ts.map fun t => (W.TC, trackArgs t)) ++ [(W.TC, as)])).refusal = some (0, e) := by
  have hfs := fields_tracks ts .empty 4 (fun _ => hk) (by simpa [LevRead.empty] using hl)
    (by simpa [LevRead.empty] using hd) fun _ => ha
  have hlen := fieldWords_length (m := 3) (fun t => (W.TC, trackArgs t)) (fun _ => rfl) rfl ts
  refine lastField_refused hfs rfl ?_ rfl (.inr ⟨repeated_key _ ts ?_, repeated_key _ ts ?_⟩)
  · rw [field_track, hlen]
    exact congrArg (LevRead.take _ 0 · _) h
  · decide
  · decide

/-- A proving term after others, refused. -/
theorem lastProving_refused {ts : List ProvingTerm} {as : List Text} {e : Err} (hk : kind ≠ .spare) (hl : ts.length ≤ 2)
    (hd : (ts.map (·.input)).Nodup) (ha : ∀ t ∈ ts, t.applies = .leaveN)
    (h : readProving kind ts ⟨W.G, 4 + 4 * ts.length, as⟩ = .error e) :
    (readFields kind ((ts.map fun t => (W.G, provingArgs t)) ++ [(W.G, as)])).refusal = some (1, e) := by
  have hfs := fields_provings ts .empty 4 (fun _ => hk) (by simpa [LevRead.empty] using hl)
    (by simpa [LevRead.empty] using hd) fun _ => ha
  have hlen := fieldWords_length (m := 4) (fun t => (W.G, provingArgs t)) (fun _ => rfl) rfl ts
  refine lastField_refused hfs rfl ?_ rfl (.inr ⟨repeated_key _ ts ?_, repeated_key _ ts ?_⟩)
  · rw [field_proving, hlen]
    exact congrArg (LevRead.take _ 1 · _) h
  · decide
  · decide

/-- An index outside in the second term and in a field that ranks before it: the field's stands. -/
theorem provingThenTrack_refused {k m : Nat} {v w x : Text} (hk : kind ≠ .spare) (hm : m < 1 ∨ 16 < m) (h : k < 1 ∨ 20 < k) :
    (readFields kind [(W.G, [digits m, v, w]), (W.TC, [digits k, x])]).refusal = some (0, .range (some 9)) := by
  rw [readFields, needApproach_same _ _ (.inr (by simp +decide))]
  simp only [fieldGroups, LevRead.fields, field_proving, LevRead.empty, readProving_index hk hm, LevRead.take, LevRead.fail]
  rw [field_track, readTrack_index hk h]
  rfl

/-! Fields that need approach circuits, without them. -/

theorem field_sec_letter {r : LevRead} (h : r.sec = none) (pos : Nat) (x : Sec) :
    r.field .signal ⟨W.ASEC, pos, [sectionLetter x]⟩ = { r with sec := some x } := by
  rw [field_sec, h]
  exact congrArg (r.take 4 · _) (readSection_ok x)

theorem field_time_digits {r : LevRead} (h : r.time = none) (pos k : Nat) :
    r.field .signal ⟨W.TIME, pos, [digits k]⟩ = { r with time := some k } := by
  rw [field_time, h]
  exact congrArg (r.take 5 · _) (readTime_ok k)

theorem secAlone_refused (x : Sec) : (readFields .signal [(W.ASEC, [sectionLetter x])]).refusal = some (3, .form (some 4)) := by
  show ((LevRead.empty.field .signal ⟨W.ASEC, 4, _⟩).needApproach _).refusal = _
  rw [field_sec_letter rfl]
  rfl

theorem timeAlone_refused (k : Nat) : (readFields .signal [(W.TIME, [digits k])]).refusal = some (3, .form (some 4)) := by
  show ((LevRead.empty.field .signal ⟨W.TIME, 4, _⟩).needApproach _).refusal = _
  rw [field_time_digits rfl]
  rfl

theorem readTime_other {given : Bool} {g : Group} (hk : kind ≠ .signal) : readTime kind given g = .error (.form (some g.pos)) := by
  simp [readTime, signalOnce_other hk]

theorem readSection_other {given : Bool} {g : Group} (hk : kind ≠ .signal) :
    readSection kind given g = .error (.form (some g.pos)) := by
  simp [readSection, signalOnce_other hk]

theorem readApproach_other {given : Bool} {g : Group} (hk : kind ≠ .signal) :
    readApproach kind given g = .error (.form (some g.pos)) := by
  simp [readApproach, signalOnce_other hk]

theorem timeThenSec_refused (k : Nat) (x : Sec) :
    (readFields kind [(W.TIME, [digits k]), (W.ASEC, [sectionLetter x])]).refusal = some (3, .form (some 6)) := by
  show (((LevRead.empty.field kind ⟨W.TIME, 4, _⟩).field kind ⟨W.ASEC, 6, _⟩).needApproach _).refusal = _
  by_cases hk : kind = .signal
  · subst hk
    rw [field_time_digits rfl, field_sec_letter rfl]
    rfl
  · rw [field_time, field_sec, readTime_other hk, readSection_other hk]
    rfl

end

/-! #### The clauses on LEV -/

section
variable {s : State} (hs : s.service.state = .configure) (n : Lever) (kind : LeverKind)
include hs

/-- Fields that are refused. -/
theorem levFields_refused {fs : List (Text × List Text)} {k : Nat} {e : Err} {answer : List Text}
    (hw : WellFormed levKeys fs) (hf : (readFields kind fs).refusal = some (k, e)) (hr : answer = e.words)
    (ha : s.asks .lev ([W.LEV, ordinal n, wordFor kindTable kind] ++ fieldWords fs)) : answersOnly .lev answer s :=
  lev_refused n kind hs (by rw [← readLev_fields kind W.LEV (ordinal n) (wordFor kindTable kind) hw] at hf; exact hf) hr ha

/-- The canonical text of a record. -/
theorem levWords_loaded {r : LevRecord} (h : r.valid) (ha : s.asks .lev (levWords n r)) :
    ∃ t, exec .lev s = .next t ∧ repliesWith (success (levWords n r)) s t ∧
      t.lever n = { s.lever n with record := some r, backlock := .idle } ∧ ∀ m, m ≠ n → t.lever m = s.lever m := by
  have heq := levWords_eq n r fun a hr => (h.2.2.2.2.2.2.2 a hr).1
  have hread := (readLev_fields r.kind W.LEV (ordinal n) (wordFor kindTable r.kind) (levFields_wellFormed r)).trans
    (readFields_levFields h)
  rw [heq] at ha
  have hacc := lev_accepted n r.kind hs ha hread rfl
  rw [asRead_record h, asRead_clamped h, optional, if_neg (by decide), List.append_nil] at hacc
  exact hacc

/-- One approach circuit, with its time release or the default. -/
theorem levApproach_loaded (c : Circuit) {fs : List (Text × List Text)} {o : Option Nat}
    (hw : WellFormed levKeys ((W.APPROACH, [ordinal c]) :: fs))
    (hf : readFields .signal ((W.APPROACH, [ordinal c]) :: fs) = { LevRead.empty with approach := some [c], time := o })
    (ha : s.asks .lev ([W.LEV, ordinal n, W.SIGNAL] ++ fieldWords ((W.APPROACH, [ordinal c]) :: fs))) :
    ∃ t, exec .lev s = .next t ∧
      (t.lever n).record = some ⟨.signal, [], [], none, some ⟨[c], none, max 10 (min 600 (o.getD 120))⟩⟩ ∧
      repliesWith (['=' :: W.LEV, ordinal n, W.SIGNAL, W.APPROACH, ordinal c, W.TIME, digits (max 10 (min 600 (o.getD 120)))] ++
        if o.getD 120 < 10 ∨ 600 < o.getD 120 then [W.CLAMPED] else []) s t := by
  have hread := (readLev_fields .signal W.LEV (ordinal n) W.SIGNAL hw).trans hf
  obtain ⟨t, hx, hrep, hl, -⟩ := lev_accepted n .signal hs ha hread rfl
  have hc : clampNat 10 600 (o.getD 120) = max 10 (min 600 (o.getD 120)) := clampNat_eq (by decide)
  refine ⟨t, hx, ?_, ?_⟩
  · rw [hl, ← hc]
    rfl
  · have hcl : LevRead.clamped { LevRead.empty with approach := some [c], time := o } =
        decide (o.getD 120 < 10 ∨ 600 < o.getD 120) := by
      cases o with
      | none => rfl
      | some v =>
        simp only [LevRead.clamped, Option.getD_some, decide_eq_decide]
        rw [clampNat_eq (by decide)]
        omega
    rw [hcl, optional] at hrep
    simp only [decide_eq_true_eq] at hrep
    rw [← hc]
    exact hrep

end

end Sys2Proof.Machine

/-! ### Reading locking entries, section records and switch-out lists -/

namespace Sys2Proof.Machine

/-! #### Terms in lever order -/

theorem insertTerm_eq (t : LeverTerm) (ts : List LeverTerm) :
    insertTerm t ts = ts.orderedInsert (fun a b => a.lever ≤ b.lever) t := by
  induction ts with
  | nil => rfl
  | cons u us ih => rw [insertTerm, List.orderedInsert, ih]

theorem sortTerms_eq (ts : List LeverTerm) : sortTerms ts = ts.insertionSort fun a b => a.lever ≤ b.lever := by
  induction ts with
  | nil => rfl
  | cons t ts ih => rw [sortTerms, List.insertionSort_cons, ih, insertTerm_eq]

theorem sortTerms_pairwise (ts : List LeverTerm) : (sortTerms ts).Pairwise fun a b => a.lever ≤ b.lever := by
  rw [sortTerms_eq]
  have : Std.Total fun a b : LeverTerm => a.lever ≤ b.lever := ⟨fun a b => le_total a.lever b.lever⟩
  have : IsTrans LeverTerm fun a b => a.lever ≤ b.lever := ⟨fun a b c => le_trans⟩
  exact List.pairwise_insertionSort _ ts

theorem sortTerms_perm (ts : List LeverTerm) : (sortTerms ts).Perm ts := by
  rw [sortTerms_eq]
  exact List.perm_insertionSort _ ts

theorem lever_injective_of_nodup {ts : List LeverTerm} (hd : (ts.map (·.lever)).Nodup) :
    ∀ a ∈ ts, ∀ b ∈ ts, a.lever = b.lever → a = b := fun _ ha _ hb h => List.inj_on_of_nodup_map hd ha hb h

/-- Terms of distinct levers have one order. -/
theorem sortTerms_eq_of_perm {ts us : List LeverTerm} (hp : ts.Perm us) (hd : (us.map (·.lever)).Nodup) :
    sortTerms ts = sortTerms us := by
  have hmem : ∀ a, a ∈ sortTerms us ↔ a ∈ us := fun a => (sortTerms_perm us).mem_iff
  have hperm : (sortTerms ts).Perm (sortTerms us) := (sortTerms_perm ts).trans (hp.trans (sortTerms_perm us).symm)
  refine List.Perm.eq_of_pairwise (fun a b ha hb hab hba => ?_) (sortTerms_pairwise ts) (sortTerms_pairwise us) hperm
  exact lever_injective_of_nodup hd a ((hmem a).1 (hperm.mem_iff.1 ha)) b ((hmem b).1 hb) (le_antisymm hab hba)

/-! #### Terms in a request -/

section
variable {ws : List Text} {pos : Nat}

theorem readTerm_words {n : Lever} {p : LeverEnd} (hn : wordAt? ws pos = some (ordinal n))
    (hp : wordAt? ws (pos + 1) = some (endWord p)) : readTerm ws pos = .ok ⟨n, p⟩ := by
  simp only [readTerm, wordAt_some hn, parsed_ok_bind, index_ordinal, oneOf, wordAt_some hp, position_word]
  rfl

theorem readTerm_missing (h : wordAt? ws pos = none) : readTerm ws pos = .error (.form (some pos)) := by
  simp only [readTerm, wordAt_none h, parsed_error_bind]

theorem readTerm_outside {k : Nat} (hk : k < 1 ∨ 48 < k) (h : wordAt? ws pos = some (digits k)) :
    readTerm ws pos = .error (.range (some pos)) := by
  simp only [readTerm, wordAt_some h, parsed_ok_bind, index_outside hk, parsed_error_bind]

theorem position_none {w : Text} (h : w ∉ [W.N, W.R]) : position? w = none := by
  simp only [List.mem_cons, List.not_mem_nil, or_false, not_or] at h
  simp [position?, h]

theorem readTerm_noPosition {n : Lever} (hn : wordAt? ws pos = some (ordinal n)) (h : wordAt? ws (pos + 1) = none) :
    readTerm ws pos = .error (.form (some (pos + 1))) := by
  simp only [readTerm, wordAt_some hn, parsed_ok_bind, index_ordinal, oneOf, wordAt_none h, parsed_error_bind]

theorem readTerm_position {n : Lever} {w : Text} (hn : wordAt? ws pos = some (ordinal n)) (h : wordAt? ws (pos + 1) = some w)
    (hw : w ∉ [W.N, W.R]) : readTerm ws pos = .error (.form (some (pos + 1))) := by
  simp only [readTerm, wordAt_some hn, parsed_ok_bind, index_ordinal, oneOf, wordAt_some h, position_none hw,
    parsed_error_bind]

end

/-! #### LOCK -/

/-- The words of conditions as a request gives them. -/
def condWords (conds : List LeverTerm) : List Text :=
  if conds = [] then [] else W.IF :: conds.flatMap termWords

section
variable {x y c : LeverTerm} {s : State}

theorem readConds_one {ws : List Text} (h6 : wordAt? ws 6 = some W.IF) (h7 : readTerm ws 7 = .ok c) (hl : ws.length = 8) :
    readConds ws = .ok [c] := by
  simp only [readConds, hl, Nat.reduceLeDiff, if_false, h6, h7]
  rfl

theorem readConds_two {d : LeverTerm} {ws : List Text} (h6 : wordAt? ws 6 = some W.IF) (h7 : readTerm ws 7 = .ok c)
    (h9 : wordAt? ws 9 = some (ordinal d.lever)) (h10 : wordAt? ws 10 = some (endWord d.pos)) (hl : ws.length = 10)
    (hd : d.lever ≠ c.lever) : readConds ws = .ok (sortTerms [c, d]) := by
  simp only [readConds, hl, Nat.reduceLeDiff, if_false, h6, h7, wordAt_some h9, parsed_ok_bind, index_ordinal, hd,
    decide_false, refuseIf_false, oneOf, wordAt_some h10, position_word, ne_eq, not_true_eq_false]
  rfl

theorem readConds_words {conds : List LeverTerm} (hl : conds.length ≤ 2) (hd : (conds.map (·.lever)).Nodup) :
    readConds (W.LOCK :: (termWords x ++ termWords y ++ condWords conds)) = .ok (sortTerms conds) := by
  match conds, hl, hd with
  | [], _, _ => rfl
  | [c], _, _ => exact readConds_one rfl (readTerm_words rfl rfl) rfl
  | [c, d], _, hd => exact readConds_two rfl (readTerm_words rfl rfl) rfl rfl rfl (by simpa [eq_comm] using hd)

/-- The lever of the first condition named again. -/
theorem readConds_twice {ws : List Text} (h6 : wordAt? ws 6 = some W.IF) (h7 : readTerm ws 7 = .ok c)
    (h9 : wordAt? ws 9 = some (ordinal c.lever)) (hl : 8 < ws.length) : readConds ws = .error (.conflict 9) := by
  have h5 : ¬ws.length ≤ 5 := by omega
  have h6l : ¬ws.length ≤ 6 := by omega
  have h8 : ¬ws.length ≤ 8 := by omega
  simp [readConds, h5, h6l, h8, h6, h7, wordAt_some h9, index_ordinal]

/-- A third condition. -/
theorem readConds_third {m : Lever} {p : LeverEnd} {ws : List Text} (h6 : wordAt? ws 6 = some W.IF)
    (h7 : readTerm ws 7 = .ok c) (h9 : wordAt? ws 9 = some (ordinal m)) (h10 : wordAt? ws 10 = some (endWord p))
    (hm : m ≠ c.lever) (hl : 10 < ws.length) : readConds ws = .error (.range (some 11)) := by
  have h5 : ¬ws.length ≤ 5 := by omega
  have h6l : ¬ws.length ≤ 6 := by omega
  have h8 : ¬ws.length ≤ 8 := by omega
  simp [readConds, h5, h6l, h8, h6, h7, wordAt_some h9, index_ordinal, hm, oneOf, wordAt_some h10, hl]

/-- The first condition refused. -/
theorem readConds_first {ws : List Text} {e : Err} (h6 : wordAt? ws 6 = some W.IF) (h7 : readTerm ws 7 = .error e)
    (hl : 6 < ws.length) : readConds ws = .error e := by
  have h5 : ¬ws.length ≤ 5 := by omega
  have h6l : ¬ws.length ≤ 6 := by omega
  simp [readConds, h5, h6l, h6, h7]

theorem lockTail_eq {e : LockEntry} (h : sortTerms e.conds = e.conds) :
    lockTail e = termWords e.x ++ termWords e.y ++ condWords e.conds := by
  rw [lockTail, h, condWords]
  cases e.conds <;> rfl

theorem indexOf_none {α : Type} [DecidableEq α] {y : α} {l : List α} (h : y ∉ l) : indexOf? y l = none := by
  induction l with
  | nil => rfl
  | cons z zs ih =>
    obtain ⟨hne, hzs⟩ := not_or.1 (mt List.mem_cons.2 h)
    simp [indexOf?, Ne.symm hne, ih hzs]

theorem indexOf_first {α : Type} [DecidableEq α] {y : α} {before after : List α} (h : y ∉ before) :
    indexOf? y (before ++ y :: after) = some (before.length + 1) := by
  induction before with
  | nil => simp [indexOf?]
  | cons z zs ih =>
    obtain ⟨hne, hzs⟩ := not_or.1 (mt List.mem_cons.2 h)
    simp [indexOf?, Ne.symm hne, ih hzs]

section
variable {ws : List Text}

theorem handleLock_first {e : Err} (h : readTerm ws 2 = .error e) : handleLock ws s = .error e := by
  simp only [handleLock, h, parsed_error_bind]

theorem handleLock_second {e : Err} (hx : readTerm ws 2 = .ok x) (h : readTerm ws 4 = .error e) :
    handleLock ws s = .error e := by
  simp only [handleLock, hx, h, parsed_ok_bind, parsed_error_bind]

theorem handleLock_conds {e : Err} (hx : readTerm ws 2 = .ok x) (hy : readTerm ws 4 = .ok y) (h : readConds ws = .error e) :
    handleLock ws s = .error e := by
  simp only [handleLock, hx, hy, h, parsed_ok_bind, parsed_error_bind]

/-- An entry read as it stands. -/
theorem handleLock_entry {conds : List LeverTerm} (hl : conds.length ≤ 2) (hd : (conds.map (·.lever)).Nodup) :
    handleLock (W.LOCK :: (termWords x ++ termWords y ++ condWords conds)) s =
      (mayAdd (indexOf? (⟨x, y, sortTerms conds⟩ : LockEntry) s.locking) s.locking Config.maxLocks).bind fun _ =>
        .ok ({ s with locking := s.locking ++ [⟨x, y, sortTerms conds⟩] },
          W.LOCK :: digits (s.locking.length + 1) :: lockTail ⟨x, y, sortTerms conds⟩) := by
  have hx : readTerm (W.LOCK :: (termWords x ++ termWords y ++ condWords conds)) 2 = .ok x := readTerm_words rfl rfl
  have hy : readTerm (W.LOCK :: (termWords x ++ termWords y ++ condWords conds)) 4 = .ok y := readTerm_words rfl rfl
  simp only [handleLock, hx, hy, readConds_words hl hd, parsed_ok_bind]
  rfl

end

end

/-! #### SEC -/

/-- A list's field, where the list has members. -/
def listFields {k : Nat} (key : Text) (ns : List (Fin k)) : List (Text × List Text) :=
  if ns = [] then [] else [(key, ns.map ordinal)]

theorem fieldWords_listFields {k : Nat} (key : Text) (ns : List (Fin k)) :
    fieldWords (listFields key ns) = listField key ns := by
  cases ns <;> simp [listFields, fieldWords, listField]

/-- The field words that `readSec` has seen after a list's field. -/
def listKeys {k : Nat} (key : Text) (ns : List (Fin k)) : List Text :=
  if ns = [] then [] else [key]

theorem mem_listKeys {k : Nat} {key w : Text} {ns : List (Fin k)} (h : w ∈ listKeys key ns) : w = key := by
  rw [listKeys] at h
  split at h
  · cases h
  · simpa using h

/-- The fields of a section record's canonical text. -/
def secFields (r : SecRecord) : List (Text × List Text) :=
  listFields W.ACCEPT r.accept ++ listFields W.CLEARING r.clearing ++ listFields W.ARRIVAL r.arrival ++
    [(W.AUTOTOL, [if r.autotol then ['1'] else ['0']])]

theorem secWords_eq (x : Sec) (r : SecRecord) : secWords x r = [W.SEC, sectionLetter x] ++ fieldWords (secFields r) := by
  simp only [secWords, ← fieldWords_listFields]
  simp [fieldWords, secFields]

theorem secKeys_decimal : ∀ w ∈ secKeys, decimal? w = none := by decide

@[simp] theorem ordinal_not_secKey {k : Nat} (n : Fin k) : ordinal n ∉ secKeys := ordinal_not_mem secKeys_decimal n
@[simp] theorem digits_not_secKey (n : Nat) : digits n ∉ secKeys := digits_not_mem secKeys_decimal n
@[simp] theorem accept_secKey : W.ACCEPT ∈ secKeys := by decide
@[simp] theorem clearing_secKey : W.CLEARING ∈ secKeys := by decide
@[simp] theorem arrival_secKey : W.ARRIVAL ∈ secKeys := by decide
@[simp] theorem autotol_secKey : W.AUTOTOL ∈ secKeys := by decide

theorem listFields_wellFormed {k : Nat} {key : Text} (hk : key ∈ secKeys) (ns : List (Fin k)) :
    WellFormed secKeys (listFields key ns) := by
  rw [listFields]
  split <;> simp [hk]

theorem wellFormed_append {ks : List Text} {fs gs : List (Text × List Text)} (hf : WellFormed ks fs) (hg : WellFormed ks gs) :
    WellFormed ks (fs ++ gs) := fun f hm => (List.mem_append.1 hm).elim (hf f) (hg f)

theorem secFields_wellFormed (r : SecRecord) : WellFormed secKeys (secFields r) := by
  have hflag : (if r.autotol = true then ['1'] else ['0']) ∉ secKeys := by cases r.autotol <;> decide
  exact wellFormed_append (wellFormed_append (wellFormed_append (listFields_wellFormed accept_secKey _)
    (listFields_wellFormed clearing_secKey _)) (listFields_wellFormed arrival_secKey _)) (by simp [hflag])

theorem readList_ok {k most : Nat} {key : Text} {pos : Nat} {ns : List (Fin k)} (hd : ns.Nodup) (hl : ns.length ≤ most) :
    readList k most false ⟨key, pos, ns.map ordinal⟩ = .ok ns := by
  simp only [readList, refuseIf_false, parsed_ok_bind, indexList_ordinals hd hl]

section
variable {seen : List Text} {r : SecRecord} {pos : Nat} {gs : List Group}

theorem readSec_accept (hs : W.ACCEPT ∉ seen) (as : List Text) : readSec seen r (⟨W.ACCEPT, pos, as⟩ :: gs) =
    ((readList 48 6 false ⟨W.ACCEPT, pos, as⟩).map fun ns => { r with accept := ns }) >>=
      fun r' => readSec (W.ACCEPT :: seen) r' gs := by
  simp only [readSec, hs, decide_false, if_true]

theorem readSec_clearing (hs : W.CLEARING ∉ seen) (as : List Text) : readSec seen r (⟨W.CLEARING, pos, as⟩ :: gs) =
    ((readList 20 4 false ⟨W.CLEARING, pos, as⟩).map fun ns => { r with clearing := ns }) >>=
      fun r' => readSec (W.CLEARING :: seen) r' gs := by
  have h : W.CLEARING ≠ W.ACCEPT := by decide
  simp only [readSec, hs, decide_false, if_true, h, if_false]

theorem readSec_arrival (hs : W.ARRIVAL ∉ seen) (as : List Text) : readSec seen r (⟨W.ARRIVAL, pos, as⟩ :: gs) =
    ((readList 20 4 false ⟨W.ARRIVAL, pos, as⟩).map fun ns => { r with arrival := ns }) >>=
      fun r' => readSec (W.ARRIVAL :: seen) r' gs := by
  have h : W.ARRIVAL ≠ W.ACCEPT ∧ W.ARRIVAL ≠ W.CLEARING := by decide
  simp only [readSec, hs, decide_false, if_true, h, if_false]

theorem readSec_autotol (hs : W.AUTOTOL ∉ seen) (as : List Text) : readSec seen r (⟨W.AUTOTOL, pos, as⟩ :: gs) =
    ((readFlag false ⟨W.AUTOTOL, pos, as⟩).map fun b => { r with autotol := b }) >>=
      fun r' => readSec (W.AUTOTOL :: seen) r' gs := by
  have h : W.AUTOTOL ≠ W.ACCEPT ∧ W.AUTOTOL ≠ W.CLEARING ∧ W.AUTOTOL ≠ W.ARRIVAL := by decide
  simp only [readSec, hs, decide_false, h, if_false]

theorem readSec_accepts {ns : List Lever} (hs : W.ACCEPT ∉ seen) (hr : r.accept = []) (hd : ns.Nodup) (hl : ns.length ≤ 6) :
    readSec seen r (fieldGroups pos (listFields W.ACCEPT ns) ++ gs) =
      readSec (listKeys W.ACCEPT ns ++ seen) { r with accept := ns } gs := by
  by_cases h : ns = []
  · subst h
    cases r
    cases hr
    rfl
  · simp only [listFields, listKeys, h, if_false, fieldGroups, List.cons_append, List.nil_append, readSec_accept hs,
      readList_ok hd hl, Except.map, parsed_ok_bind]

theorem readSec_clearings {ns : List Circuit} (hs : W.CLEARING ∉ seen) (hr : r.clearing = []) (hd : ns.Nodup)
    (hl : ns.length ≤ 4) : readSec seen r (fieldGroups pos (listFields W.CLEARING ns) ++ gs) =
      readSec (listKeys W.CLEARING ns ++ seen) { r with clearing := ns } gs := by
  by_cases h : ns = []
  · subst h
    cases r
    cases hr
    rfl
  · simp only [listFields, listKeys, h, if_false, fieldGroups, List.cons_append, List.nil_append, readSec_clearing hs,
      readList_ok hd hl, Except.map, parsed_ok_bind]

theorem readSec_arrivals {ns : List Circuit} (hs : W.ARRIVAL ∉ seen) (hr : r.arrival = []) (hd : ns.Nodup)
    (hl : ns.length ≤ 4) : readSec seen r (fieldGroups pos (listFields W.ARRIVAL ns) ++ gs) =
      readSec (listKeys W.ARRIVAL ns ++ seen) { r with arrival := ns } gs := by
  by_cases h : ns = []
  · subst h
    cases r
    cases hr
    rfl
  · simp only [listFields, listKeys, h, if_false, fieldGroups, List.cons_append, List.nil_append, readSec_arrival hs,
      readList_ok hd hl, Except.map, parsed_ok_bind]

theorem readFlag_word {key : Text} (b : Bool) : readFlag false ⟨key, pos, [if b then ['1'] else ['0']]⟩ = .ok b := by
  cases b <;> rfl

end

/-- A section record's fields are read as they stand. -/
theorem readSec_secFields {r : SecRecord} (h : r.valid) : readSec [] ⟨[], [], [], false⟩ (fieldGroups 3 (secFields r)) = .ok r := by
  obtain ⟨hal, had, hcl, hcd, hrl, hrd⟩ := h
  have hseen : ∀ {k : Nat} {key w : Text} {ns : List (Fin k)} {seen : List Text}, w ≠ key → w ∉ seen →
      w ∉ listKeys key ns ++ seen := fun hne hs hm => (List.mem_append.1 hm).elim (fun h => hne (mem_listKeys h)) hs
  simp only [secFields, fieldGroups_append, List.append_assoc]
  have hn : ∀ w : Text, w ∉ ([] : List Text) := fun _ => List.not_mem_nil
  rw [readSec_accepts (hn _) rfl had hal, readSec_clearings (hseen (by decide) (hn _)) rfl hcd hcl,
    readSec_arrivals (hseen (by decide) (hseen (by decide) (hn _))) rfl hrd hrl]
  simp only [fieldGroups]
  rw [readSec_autotol (hseen (by decide) (hseen (by decide) (hseen (by decide) (hn _)))), readFlag_word]
  rfl

section
variable {s : State} (x : Sec)

theorem sectionAt_letter {ws : List Text} : sectionAt (W.SEC :: sectionLetter x :: ws) 2 = .ok x := by
  simp [sectionAt, sectionWord]

/-- A SEC request by what is read of its fields. -/
theorem handleSec_fields {fs : List (Text × List Text)} (hw : WellFormed secKeys fs) :
    handleSec ([W.SEC, sectionLetter x] ++ fieldWords fs) s =
      (readSec [] ⟨[], [], [], false⟩ (fieldGroups 3 fs)).bind fun r => .ok (storeSec x (some r) s, secWords x r) := by
  have hg : groups (fun w => decide (w ∈ secKeys)) 3 (([W.SEC, sectionLetter x] ++ fieldWords fs).drop 2) =
      (fieldGroups 3 fs, []) := groups_fieldWords hw 3
  simp only [handleSec, hg]
  simp only [List.cons_append, sectionAt_letter, parsed_ok_bind, List.isEmpty_nil, Bool.not_true, refuseIf_false]
  rfl

theorem handleSec_leftover {w : Text} {ws : List Text} (hw : w ∉ secKeys) :
    handleSec (W.SEC :: sectionLetter x :: w :: ws) s = .error (.form (some 3)) := by
  have hl := groups_leftover (isKey := fun w => decide (w ∈ secKeys)) (ws := ws) 3 (decide_eq_false hw)
  have hd : (W.SEC :: sectionLetter x :: w :: ws).drop 2 = w :: ws := rfl
  simp only [handleSec, sectionAt_letter, parsed_ok_bind, hd, hl, Bool.not_false, refuseIf_true, parsed_error_bind]

theorem handleSec_section {ws : List Text} {e : Err} (h : sectionAt ws 2 = .error e) : handleSec ws s = .error e := by
  simp only [handleSec, h, parsed_error_bind]

theorem sectionAt_other {w : Text} {ws : List Text} (h : w ∉ [W.A, W.B, W.C]) :
    sectionAt (W.SEC :: w :: ws) 2 = .error (.range (some 2)) := by
  simp [sectionAt, sectionWord, secOf_none h]

end

/-! #### BOXOUT -/

theorem readTerms_words (ts seen : List LeverTerm) (pos : Nat) (hl : (seen ++ ts).length ≤ 8)
    (hd : ((seen ++ ts).map (·.lever)).Nodup) (ws : List Text) :
    readTerms seen pos (ts.flatMap termWords ++ ws) = readTerms (seen ++ ts) (pos + 2 * ts.length) ws := by
  induction ts generalizing seen pos with
  | nil => simp
  | cons t ts ih =>
    have hlt : ¬8 ≤ seen.length := by
      simp only [List.length_append, List.length_cons] at hl
      omega
    have hany : (seen.any fun u => decide (u.lever = t.lever)) = false := by
      rw [List.map_append, List.nodup_append] at hd
      rw [List.any_eq_false]
      intro u hu
      simpa using hd.2.2 u.lever (List.mem_map_of_mem hu) t.lever (by simp)
    have ih := ih (seen ++ [t]) (pos + 2) (by simpa using hl) (by simpa using hd)
    have hp : pos + 2 + 2 * ts.length = pos + 2 * (ts.length + 1) := by omega
    simp only [List.flatMap_cons, termWords, List.cons_append, List.nil_append, readTerms, index_ordinal, parsed_ok_bind, hlt,
      decide_false, refuseIf_false, hany, position_word]
    rw [ih, hp]
    simp

section
variable {n : Lever} {seen : List LeverTerm} {pos : Nat} {rest : List Text}

/-- A term's lever word refused for its number. -/
theorem readTerms_index {w : Text} {e : Err} (h : index 48 pos w = .error e) :
    readTerms seen pos (w :: rest) = .error e := by
  cases rest <;> simp only [readTerms, h, parsed_error_bind]

theorem readTerms_full (h : seen.length = 8) :
    readTerms seen pos (ordinal n :: rest) = .error (.range (some pos)) := by
  cases rest <;> simp [readTerms, index_ordinal, h]

theorem readTerms_twice (h : n ∈ seen.map (·.lever)) (hl : seen.length < 8) :
    readTerms seen pos (ordinal n :: rest) = .error (.conflict pos) := by
  obtain ⟨t, ht, rfl⟩ := List.mem_map.1 h
  have hany : (seen.any fun u => decide (u.lever = t.lever)) = true := List.any_eq_true.2 ⟨t, ht, decide_eq_true rfl⟩
  have hl : ¬8 ≤ seen.length := by omega
  cases rest <;> simp [readTerms, index_ordinal, hany, hl]

theorem readTerms_noPosition : readTerms [] pos [ordinal n] = .error (.form (some (pos + 1))) := by
  simp [readTerms, index_ordinal]

theorem readTerms_position {w : Text} (hw : w ∉ [W.N, W.R]) :
    readTerms [] pos (ordinal n :: w :: rest) = .error (.form (some (pos + 1))) := by
  simp [readTerms, index_ordinal, position_none hw]

end

theorem handleBoxout_refused {s : State} {a : Text} {ws : List Text} {e : Err} (h : readTerms [] 2 ws = .error e) :
    handleBoxout (a :: ws) s = .error e := by
  have hd : (a :: ws).drop 1 = ws := rfl
  simp only [handleBoxout, hd, h, parsed_error_bind]

theorem handleBoxout_words {s : State} {ts : List LeverTerm} (hl : ts.length ≤ 8) (hd : (ts.map (·.lever)).Nodup) :
    handleBoxout (W.BOXOUT :: ts.flatMap termWords) s = .ok (storeBoxout (some (sortTerms ts)) s, boxoutWords ts) := by
  have hread : readTerms [] 2 (ts.flatMap termWords) = .ok ts := by
    have h := readTerms_words ts [] 2 hl hd []
    rwa [List.append_nil] at h
  have hdrop : (W.BOXOUT :: ts.flatMap termWords).drop 1 = ts.flatMap termWords := rfl
  simp only [handleBoxout, hdrop, hread, parsed_ok_bind]
  rfl

end Sys2Proof.Machine

/-! ### The texts of LEV, LOCK, SEC and BOXOUT -/

namespace Sys2Proof.Machine

@[simp] theorem leaveN_not_levKey : W.LEAVE_N ∉ levKeys := by decide
@[simp] theorem leaveR_not_levKey : W.LEAVE_R ∉ levKeys := by decide
@[simp] theorem both_not_levKey : W.BOTH ∉ levKeys := by decide
@[simp] theorem active_not_levKey : W.ACTIVE ∉ levKeys := by decide
@[simp] theorem inactive_not_levKey : W.INACTIVE ∉ levKeys := by decide
@[simp] theorem a_not_levKey : W.A ∉ levKeys := by decide

section
variable {s : State} (hs : s.service.state = .configure)
include hs

/-! #### LEV -/

/-- A word after the kind that opens no field. -/
theorem lev_leftover_refused (n : Lever) (kind : LeverKind) {w : Text} (hw : w ∉ levKeys)
    (ha : s.asks .lev [W.LEV, ordinal n, wordFor kindTable kind, w]) :
    answersOnly .lev [refusalWord W.FORM, digits 4] s := by
  have hread : readLev kind [W.LEV, ordinal n, wordFor kindTable kind, w] = LevRead.empty.fail 6 (.form (some 4)) := by
    have hg : groups (fun w => decide (w ∈ levKeys)) 4 [w] = ([], [w]) := by simp [groups, hw]
    have hd : [W.LEV, ordinal n, wordFor kindTable kind, w].drop 3 = [w] := rfl
    rw [readLev, hd, hg]
    rfl
  exact lev_refused n kind hs (k := 6) (e := .form (some 4)) (by rw [hread]; rfl) rfl ha

/-- A fifth track term. -/
theorem lev_fifthTrack_refused (n : Lever) {kind : LeverKind} (hk : kind ≠ .spare) (d : Circuit) {ts : List Circuit}
    (hd : ts.Nodup) (hl : ts.length = 4)
    (ha : s.asks .lev ([W.LEV, ordinal n, wordFor kindTable kind] ++
      ((ts.flatMap fun t => [W.TC, ordinal t, W.LEAVE_N]) ++ [W.TC, ordinal d, W.LEAVE_N]))) :
    answersOnly .lev [refusalWord W.RANGE, digits 16] s := by
  let terms : List TrackTerm := ts.map fun t => ⟨t, .leaveN⟩
  have hlen : terms.length = 4 := by simp [terms, hl]
  have hfs : fieldWords ((terms.map fun t => (W.TC, trackArgs t)) ++ [(W.TC, [ordinal d, W.LEAVE_N])]) =
      (ts.flatMap fun t => [W.TC, ordinal t, W.LEAVE_N]) ++ [W.TC, ordinal d, W.LEAVE_N] := by
    simp only [terms, fieldWords, List.flatMap_append, List.map_map, List.flatMap_map]
    rfl
  have hfull : readTrack kind terms ⟨W.TC, 4 + 3 * terms.length, [ordinal d, W.LEAVE_N]⟩ = .error (.range (some 16)) := by
    rw [readTrack_full hk hlen, hlen]
  refine levFields_refused hs n kind ?_ (lastTrack_refused hk hlen.le ?_ ?_ hfull) rfl (hfs ▸ ha)
  · refine fun f hf => ?_
    simp only [List.mem_append, List.mem_map, List.mem_singleton] at hf
    obtain ⟨t, -, rfl⟩ | rfl := hf <;> simp [trackArgs]
  · simpa [terms, Function.comp_def] using hd
  · simp [terms]

/-! #### LOCK -/

omit hs in
theorem mayAdd_full {α : Type} {table : List α} {most : Nat} (h : most ≤ table.length) : mayAdd none table most = .error .full := by
  simp [mayAdd, h]

omit hs in
theorem mayAdd_held {α : Type} {i : Nat} {table : List α} {most : Nat} : mayAdd (some i) table most = .error (.conflict i) := rfl

/-- An entry not held, its conditions in any order. -/
theorem lock_loaded {e : LockEntry} {conds : List LeverTerm} (he : e.valid) (hp : conds.Perm e.conds) (hne : e ∉ s.locking)
    (hl : s.locking.length < 320) (ha : s.asks .lock (W.LOCK :: (termWords e.x ++ termWords e.y ++ condWords conds))) :
    ∃ t, exec .lock s = .next t ∧ t.locking = s.locking ++ [e] ∧
      repliesWith (('=' :: W.LOCK) :: digits (s.locking.length + 1) :: (lockWords e).tail) s t := by
  obtain ⟨hcl, hcd, hcs⟩ := he
  have hread := handleLock_entry (x := e.x) (y := e.y) (s := s) (hp.length_eq ▸ hcl) ((hp.map _).nodup_iff.2 hcd)
  have hadd : mayAdd (indexOf? e s.locking) s.locking Config.maxLocks = .ok () := by
    have hl : ¬Config.maxLocks ≤ s.locking.length := by
      rw [Config.maxLocks]
      omega
    rw [indexOf_none hne, mayAdd, decide_eq_false hl, refuseIf_false]
  rw [sortTerms_eq_of_perm hp hcd, hcs, hadd] at hread
  obtain ⟨hx, hrep⟩ := request_ok rfl ha (inConfigure_of hs) hread rfl
  exact ⟨_, hx, by rw [commit_locking, reply_locking], hrep⟩

/-- An entry held already, or one that finds the table full. -/
theorem lock_notAdded {e : LockEntry} (he : e.valid) {r : Err}
    (h : mayAdd (indexOf? e s.locking) s.locking Config.maxLocks = .error r)
    (ha : s.asks .lock (W.LOCK :: (lockWords e).tail)) : answersOnly .lock r.words s := by
  obtain ⟨hcl, hcd, hcs⟩ := he
  have hread := handleLock_entry (x := e.x) (y := e.y) (s := s) hcl hcd
  rw [hcs, h, ← lockTail_eq hcs] at hread
  exact refused rfl ha (inConfigure_of hs) hread rfl

/-! #### SEC -/

/-- A field of a section record refused. -/
theorem secField_refused (x : Sec) {key : Text} {as : List Text} {e : Err} (hk : key ∈ secKeys) (hw : ∀ a ∈ as, a ∉ secKeys)
    (h : readSec [] ⟨[], [], [], false⟩ [⟨key, 3, as⟩] = .error e)
    (ha : s.asks .sec (W.SEC :: sectionLetter x :: key :: as)) : answersOnly .sec e.words s := by
  have hread := handleSec_fields (s := s) x (fs := [(key, as)]) (by simpa [hk] using hw)
  have hwords : [W.SEC, sectionLetter x] ++ fieldWords [(key, as)] = W.SEC :: sectionLetter x :: key :: as := by
    simp [fieldWords]
  rw [hwords] at hread
  refine refused rfl ha (inConfigure_of hs) (hread.trans ?_) rfl
  simp only [fieldGroups, h]
  rfl

theorem sec_loaded (x : Sec) {fs : List (Text × List Text)} {r : SecRecord} (hw : WellFormed secKeys fs)
    (h : readSec [] ⟨[], [], [], false⟩ (fieldGroups 3 fs) = .ok r)
    (ha : s.asks .sec ([W.SEC, sectionLetter x] ++ fieldWords fs)) :
    ∃ t, exec .sec s = .next t ∧ repliesWith (success (secWords x r)) s t ∧
      t.section_ x = { s.section_ x with record := some r } ∧ ∀ y, y ≠ x → t.section_ y = s.section_ y := by
  have hread := handleSec_fields (s := s) x hw
  rw [h] at hread
  obtain ⟨hx, hrep⟩ := request_ok rfl ha (inConfigure_of hs) hread (by simp only [storeSec, State.setSection_link])
  refine ⟨_, hx, hrep, ?_, fun y hy => ?_⟩
  · rw [commit_section, reply_section, storeSec, State.section_setSection, if_pos rfl]
  · rw [commit_section, reply_section, storeSec, State.section_setSection, if_neg hy]

/-! #### BOXOUT -/

theorem boxout_loaded {ts : List LeverTerm} (hl : ts.length ≤ 8) (hd : (ts.map (·.lever)).Nodup)
    (ha : s.asks .boxout (W.BOXOUT :: ts.flatMap termWords)) :
    ∃ t, exec .boxout s = .next t ∧ repliesWith (success (boxoutWords ts)) s t ∧
      t.service.boxout = some (sortTerms ts) := by
  obtain ⟨hx, hrep⟩ := request_ok rfl ha (inConfigure_of hs) (handleBoxout_words hl hd) rfl
  exact ⟨_, hx, hrep, by rw [commit_service, reply_service]; rfl⟩

theorem boxout_refused {ws : List Text} {e : Err} (h : readTerms [] 2 ws = .error e) (ha : s.asks .boxout (W.BOXOUT :: ws)) :
    answersOnly .boxout e.words s :=
  refused rfl ha (inConfigure_of hs) (handleBoxout_refused h) rfl

end

/-- Settles O48: texts of LEV, LOCK, SEC and BOXOUT. -/
theorem canonicalTextsLoadLocking : Obligations.CanonicalTextsLoadLocking := by
  intro s hs range form conflict
  have hv := inConfigure_of hs
  refine ⟨?_, ?_, ?_, ?_, ?_, ?_, ?_, ?_, ?_, ?_, ?_⟩
  · exact fun n r hr ha => levWords_loaded hs n hr ha
  · exact fun e conds he hp hne hl ha => lock_loaded hs he hp hne hl ha
  · exact fun x r hr ha => sec_loaded hs x (secFields_wellFormed r) (readSec_secFields hr) (secWords_eq x r ▸ ha)
  · intro ts hts ha
    obtain ⟨hl, hd, hsort⟩ := hts
    have hload := boxout_loaded hs hl hd (by rwa [boxoutWords, hsort] at ha)
    rwa [hsort] at hload
  · refine fun n c v => ⟨fun ha => ?_, fun ha => ?_⟩
    · refine levApproach_loaded hs n c (fs := [(W.TIME, [digits v])]) (o := some v) (by simp) ?_ ha
      show ((LevRead.empty.fields .signal (fieldGroups 4 [(W.APPROACH, [ordinal c])])).field .signal
        ⟨W.TIME, 6, [digits v]⟩).needApproach _ = _
      rw [fields_oneApproach, field_time_digits rfl]
      rfl
    · refine levApproach_loaded hs n c (fs := []) (o := none) (by simp) ?_ ha
      show (LevRead.empty.fields .signal (fieldGroups 4 [(W.APPROACH, [ordinal c])])).needApproach _ = _
      rw [fields_oneApproach]
      rfl
  · intro x ha
    obtain ⟨t, hx, -, hr, -⟩ := sec_loaded hs x (fs := []) (r := ⟨[], [], [], false⟩) (by simp) rfl ha
    exact ⟨t, hx, by rw [hr]⟩
  · intro m n p q hmn ha
    have hsort : sortTerms [⟨m, p⟩, ⟨n, q⟩] = [⟨n, q⟩, ⟨m, p⟩] := by
      simp [sortTerms, insertTerm, hmn]
    obtain ⟨t, hx, hrep, hb⟩ := boxout_loaded hs (ts := [⟨m, p⟩, ⟨n, q⟩]) (by simp) (by simp [hmn.ne']) ha
    rw [boxoutWords] at hrep
    rw [hsort] at hb hrep
    exact ⟨t, hx, hb, hrep⟩
  · intro n c d i kind k w rest opening isField refused
    have refuse : ∀ {fs : List (Text × List Text)} {k : Nat} {e : Err}, WellFormed levKeys fs →
        (readFields kind fs).refusal = some (k, e) → refused (fieldWords fs) e.words :=
      fun hw hf ha => levFields_refused hs n kind hw hf rfl ha
    have hkey : ¬isField → w ∉ levKeys := id
    refine ⟨?_, ?_, ?_, ?_, ?_, ?_, ?_, ?_, ?_⟩
    · exact fun ha => Machine.refused rfl ha hv (handleLev_index (indexAt_missing rfl)) rfl
    · exact fun hk ha => Machine.refused rfl ha hv (handleLev_index (indexAt_outside hk rfl)) rfl
    · exact fun ha => Machine.refused rfl ha hv (handleLev_kind n (e := .form (some 3)) (indexAt_ordinal rfl) rfl) rfl
    · intro hw ha
      have hform : oneOf (lookup kindTable) (W.LEV :: ordinal n :: w :: rest) 3 = .error (.form (some 3)) := by
        simp only [oneOf, wordAt_some wordAt?_three, hw]
      exact Machine.refused rfl ha hv (handleLev_kind n (indexAt_ordinal rfl) hform) rfl
    · exact fun hw ha => lev_leftover_refused hs n kind hw ha
    · rintro rfl
      exact ⟨refuse (fs := [(W.TC, [ordinal c, W.BOTH])]) (by simp) (track_refused readTrack_spare),
        refuse (fs := [(W.G, [ordinal i, W.ACTIVE, W.BOTH])]) (by simp) (proving_refused readProving_spare)⟩
    · intro hk
      exact ⟨refuse (fs := [(W.BLOCK, [W.A])]) (by simp) (block_refused (readSection_other hk)),
        refuse (fs := [(W.APPROACH, [ordinal c])]) (by simp) (approach_refused (readApproach_other hk)),
        refuse (fs := [(W.TIME, [digits k]), (W.ASEC, [W.A])]) (by simp) (timeThenSec_refused k .a)⟩
    · rintro rfl
      refine ⟨?_, ?_, ?_, ?_, ?_, ?_, ?_, ?_, ?_, ?_, ?_, ?_, ?_⟩
      · exact refuse (fs := [(W.ASEC, [W.A])]) (by simp) (secAlone_refused .a)
      · exact refuse (fs := [(W.TIME, [digits k])]) (by simp) (timeAlone_refused k)
      · exact refuse (fs := [(W.TIME, [digits k]), (W.ASEC, [W.A])]) (by simp) (timeThenSec_refused k .a)
      · exact refuse (fs := [(W.APPROACH, [])]) (by simp) (approach_refused readApproach_missing)
      · exact refuse (fs := [(W.APPROACH, [ordinal c]), (W.TIME, [])]) (by simp) (time_refused c readTime_missing)
      · exact fun hd hw => refuse (fs := [(W.APPROACH, [ordinal c]), (W.TIME, [w])]) (by simp [hkey hw])
          (time_refused c (readTime_bad hd))
      · exact fun hx hw => ⟨refuse (fs := [(W.BLOCK, [w])]) (by simp [hkey hw]) (block_refused (readSection_word hx)),
          refuse (fs := [(W.APPROACH, [ordinal c]), (W.ASEC, [w])]) (by simp [hkey hw]) (sec_refused c (readSection_word hx))⟩
      · exact fun hk => refuse (fs := [(W.APPROACH, [digits k])]) (by simp)
          (approach_refused (readApproach_list.trans (indexList_outside hk)))
      · exact refuse (fs := [(W.APPROACH, [ordinal c, ordinal c])]) (by simp)
          (approach_refused (readApproach_list.trans (indexList_twice c (by decide))))
      · exact refuse (fs := [(W.APPROACH, [digits 1, digits 2, digits 3, digits 4])]) (by simp)
          (approach_refused (readApproach_list.trans (indexList_full (ns := [0, 1, 2]) (by decide) rfl 3)))
      · exact refuse (fs := [(W.TC, [ordinal c, W.LEAVE_R])]) (by simp)
          (track_refused (readTrack_qualifier (by decide) (.inr (by decide))))
      · exact refuse (fs := [(W.TC, [ordinal c, W.BOTH])]) (by simp)
          (track_refused (readTrack_qualifier (by decide) (.inr (by decide))))
      · exact refuse (fs := [(W.G, [ordinal i, W.ACTIVE, W.BOTH])]) (by simp)
          (proving_refused (readProving_qualifier (b := true) (by decide) (.inr (by decide))))
    · intro hk
      refine ⟨?_, ?_, ?_, ?_, ?_, ?_, ?_, ?_, ?_⟩
      · exact fun h => refuse (fs := [(W.TC, [digits k, W.LEAVE_N])]) (by simp) (track_refused (readTrack_index hk h))
      · exact fun h => refuse (fs := [(W.G, [digits k, W.ACTIVE, W.LEAVE_N])]) (by simp) (proving_refused (readProving_index hk h))
      · exact fun hl hw => ⟨refuse (fs := [(W.TC, [ordinal c, w])]) (by simp [hkey hw])
            (track_refused (readTrack_qualifier hk (.inl hl))),
          refuse (fs := [(W.G, [ordinal i, W.ACTIVE, w])]) (by simp [hkey hw])
            (proving_refused (readProving_qualifier (b := true) hk (.inl hl)))⟩
      · exact fun hl hw => refuse (fs := [(W.G, [ordinal i, w, W.LEAVE_N])]) (by simp [hkey hw])
          (proving_refused (readProving_active hk hl))
      · exact refuse (fs := [(W.TC, [ordinal c, W.LEAVE_N]), (W.TC, [ordinal c, W.LEAVE_N])]) (by simp)
          (lastTrack_refused (ts := [⟨c, .leaveN⟩]) hk (by simp) (by simp) (by simp) (readTrack_twice hk))
      · exact refuse (fs := [(W.G, [ordinal i, W.ACTIVE, W.LEAVE_N]), (W.G, [ordinal i, W.INACTIVE, W.LEAVE_N])]) (by simp)
          (lastProving_refused (ts := [⟨i, true, .leaveN⟩]) hk (by simp) (by simp) (by simp) (readProving_twice hk))
      · exact fun ts hd hl ha => lev_fifthTrack_refused hs n hk d hd hl ha
      · exact refuse (fs := [(W.G, [digits 1, W.ACTIVE, W.LEAVE_N]), (W.G, [digits 2, W.ACTIVE, W.LEAVE_N]),
            (W.G, [digits 3, W.ACTIVE, W.LEAVE_N])]) (by simp)
          (lastProving_refused (ts := [⟨0, true, .leaveN⟩, ⟨1, true, .leaveN⟩]) hk (by simp) (by simp) (by simp)
            (readProving_full hk rfl))
      · exact fun h => refuse (fs := [(W.G, [digits 17, W.ACTIVE, W.LEAVE_N]), (W.TC, [digits k, W.LEAVE_N])]) (by simp)
          (provingThenTrack_refused hk (.inr (by decide)) h)
  · intro x y c m p k w rest refused
    have first : ∀ {ws : List Text} {e : Err}, readTerm (W.LOCK :: ws) 2 = .error e → refused ws e.words :=
      fun h ha => Machine.refused rfl ha hv (handleLock_first h) rfl
    have second : ∀ {ws : List Text} {e : Err}, readTerm (W.LOCK :: (termWords x ++ ws)) 4 = .error e →
        refused (termWords x ++ ws) e.words :=
      fun h ha => Machine.refused rfl ha hv (handleLock_second (readTerm_words rfl rfl) h) rfl
    have conds : ∀ {ws : List Text} {e : Err}, readConds (W.LOCK :: (termWords x ++ termWords y ++ ws)) = .error e →
        refused (termWords x ++ termWords y ++ ws) e.words :=
      fun h ha => Machine.refused rfl ha hv (handleLock_conds (readTerm_words rfl rfl) (readTerm_words rfl rfl) h) rfl
    refine ⟨?_, ?_, ?_, ?_, ?_, ?_, ?_, ?_, ?_, ?_⟩
    · exact fun hk => ⟨first (readTerm_outside hk rfl), second (readTerm_outside hk rfl),
        conds (readConds_first rfl (readTerm_outside hk rfl) (by simp [termWords]))⟩
    · exact fun hw => ⟨first (readTerm_position rfl rfl hw), second (readTerm_position rfl rfl hw),
        conds (readConds_first rfl (readTerm_position rfl rfl hw) (by simp [termWords]))⟩
    · exact first (readTerm_missing rfl)
    · exact first (readTerm_noPosition (n := m) rfl rfl)
    · exact second (ws := []) (readTerm_missing rfl)
    · exact second (readTerm_noPosition (n := m) rfl rfl)
    · exact conds (ws := W.IF :: termWords c ++ ordinal c.lever :: rest)
        (readConds_twice (c := c) rfl (readTerm_words rfl rfl) rfl (by simp [termWords]))
    · exact fun hm => conds (ws := W.IF :: termWords c ++ [ordinal m, endWord p] ++ w :: rest)
        (readConds_third (c := c) (p := p) rfl (readTerm_words rfl rfl) rfl rfl hm (by simp [termWords]))
    · intro e before after he hlocks hb ha
      exact lock_notAdded hs he (by rw [hlocks, indexOf_first hb, mayAdd_held]) ha
    · intro e he hne hfull ha
      exact lock_notAdded hs he (by rw [indexOf_none hne]; exact mayAdd_full hfull) ha
  · intro x n c k w rest refused
    have accept : ∀ {as : List Text} {e : Err}, (∀ a ∈ as, a ∉ secKeys) → indexList 48 6 [] 4 as = .error e →
        refused (W.ACCEPT :: as) e.words := fun hw h ha => secField_refused hs x accept_secKey hw
      (by simp [readSec_accept, readList, h, Except.map]) ha
    have clearing : ∀ {as : List Text} {e : Err}, (∀ a ∈ as, a ∉ secKeys) → indexList 20 4 [] 4 as = .error e →
        refused (W.CLEARING :: as) e.words := fun hw h ha => secField_refused hs x clearing_secKey hw
      (by simp [readSec_clearing, readList, h, Except.map]) ha
    have arrival : ∀ {as : List Text} {e : Err}, (∀ a ∈ as, a ∉ secKeys) → indexList 20 4 [] 4 as = .error e →
        refused (W.ARRIVAL :: as) e.words := fun hw h ha => secField_refused hs x arrival_secKey hw
      (by simp [readSec_arrival, readList, h, Except.map]) ha
    have full : ∀ {m : Nat} (ns : List (Fin m)) (d : Fin m), ∀ a ∈ ns.map ordinal ++ [ordinal d], a ∉ secKeys := by
      intro m ns d a hm
      simp only [List.mem_append, List.mem_map, List.mem_singleton] at hm
      obtain ⟨b, -, rfl⟩ | rfl := hm <;> simp
    refine ⟨?_, ?_, ?_, ?_, ?_, ?_, ?_, ?_, ?_, ?_, ?_⟩
    · exact fun ha => Machine.refused rfl ha hv (handleSec_section (e := .range (some 2)) rfl) rfl
    · exact fun hw ha => Machine.refused rfl ha hv (handleSec_section (sectionAt_other hw)) rfl
    · exact fun hw ha => Machine.refused rfl ha hv (handleSec_leftover x hw) rfl
    · exact fun hk => accept (by simp) (indexList_outside hk)
    · exact fun hk => ⟨clearing (by simp) (indexList_outside hk), arrival (by simp) (indexList_outside hk)⟩
    · intro hk ha
      refine secField_refused hs x (e := .form (some 4)) autotol_secKey (by simp) ?_ ha
      simp [readSec_autotol, readFlag, hk, Except.map]
    · exact accept (by simp) (indexList_twice n (by decide))
    · exact clearing (by simp) (indexList_twice c (by decide))
    · exact arrival (by simp) (indexList_twice c (by decide))
    · exact fun ns hd hl => accept (full ns n) (indexList_full hd hl n)
    · exact fun cs hd hl => ⟨clearing (full cs c) (indexList_full hd hl c), arrival (full cs c) (indexList_full hd hl c)⟩
  · intro n p q k w rest refused
    have refuse : ∀ {ws : List Text} {e : Err}, readTerms [] 2 ws = .error e → refused ws e.words :=
      fun h ha => boxout_refused hs h ha
    have after : ∀ {ts : List LeverTerm} (ws : List Text), ts.length ≤ 8 → (ts.map (·.lever)).Nodup →
        readTerms [] 2 (ts.flatMap termWords ++ ws) = readTerms ts (2 + 2 * ts.length) ws :=
      fun ws hl hd => readTerms_words _ [] 2 hl hd ws
    refine ⟨?_, ?_, ?_, ?_, ?_, ?_⟩
    · exact fun hk => refuse (readTerms_index (index_outside hk))
    · exact fun hw => refuse (readTerms_index (by rw [index, number_bad hw]))
    · exact fun hw => refuse (readTerms_position hw)
    · exact refuse readTerms_noPosition
    · exact refuse ((after (ts := [⟨n, p⟩]) (ordinal n :: endWord q :: rest) (by simp) (by simp)).trans
        (readTerms_twice (by simp) (by simp)))
    · intro ts hd hl
      refine refuse (e := .range (some 18)) ((after _ hl.le hd).trans ?_)
      rw [hl]
      exact readTerms_full hl

end Sys2Proof.Machine

/-! ### The reads: what each handler answers -/

namespace Sys2Proof.Machine

/-- A request that is only read is answered, and nothing else changes. -/
theorem read_answered {row : Instr} {f : Handler} {s : State} {ws r answer : List Text}
    (hx : exec row s = .next (commit s (requestStep row afterPowerUp f s))) (ha : s.asks row ws)
    (hs : s.service.state ≠ .powerUp) (hf : f ws s = .ok (s, r)) (hr : success r = answer) : answersOnly row answer s := by
  obtain ⟨he, hrep⟩ := request_ok hx ha (afterPowerUp_of hs) hf rfl
  subst hr
  exact ⟨_, he, hrep, (reply_leaves _ s).commit⟩

section
variable {s : State} {a b : Text} {ws : List Text}

theorem noMore_ok {k : Nat} (h : ws.length ≤ k) : noMore ws k = .ok () := by
  simp [noMore, h]

theorem noMore_over {k : Nat} (h : k < ws.length) : noMore ws k = .error (.form (some (k + 1))) := by
  have h : ¬ws.length ≤ k := by omega
  simp [noMore, h]

theorem indexAt_third {k : Nat} (n : Fin k) : bareForm (indexAt k (a :: b :: ordinal n :: ws) 3) = .ok n := by
  rw [indexAt_ordinal rfl, bareForm_ok]

/-! #### SHOW LEV -/

theorem handleShowLev_first (n : Lever) :
    handleShowLev [W.SHOW, W.LEV, ordinal n] s = .ok (s, W.SHOW :: s.itemWords (.lev n)) := by
  have hm : noMore [W.SHOW, W.LEV, ordinal n] 3 = .ok () := noMore_ok (by simp)
  simp only [handleShowLev, answering, indexAt_third, parsed_ok_bind, hm]
  rfl

theorem handleShowLev_more (n : Lever) (w : Text) (rest : List Text) :
    handleShowLev (a :: b :: ordinal n :: w :: rest) s = .error (.form (some 4)) := by
  have hm : noMore (a :: b :: ordinal n :: w :: rest) 3 = .error (.form (some 4)) := noMore_over (by simp)
  simp only [handleShowLev, answering, indexAt_third, parsed_ok_bind, hm, parsed_error_bind]

theorem handleShowLev_index {e : Err} (h : bareForm (indexAt 48 ws 3) = .error e) : handleShowLev ws s = .error e := by
  simp only [handleShowLev, answering, h, parsed_error_bind]

/-! #### SHOW TC -/

theorem handleShowTc_first (c : Circuit) :
    handleShowTc [W.SHOW, W.TC, ordinal c] s = .ok (s, W.SHOW :: s.itemWords (.tc c)) := by
  have h4 : wordAt? [W.SHOW, W.TC, ordinal c] 4 = none := rfl
  simp only [handleShowTc, answering, indexAt_third, parsed_ok_bind, h4]
  rfl

theorem handleShowTc_set (c : Circuit) :
    handleShowTc [W.SHOW, W.TC, ordinal c, W.SET] s = .ok (s, [W.SHOW, W.TC, ordinal c, W.SET] ++ s.circuitSet c) := by
  have ho : only [W.SHOW, W.TC, ordinal c, W.SET] 4 = .ok () := only_of_le (by simp)
  simp only [handleShowTc, answering, indexAt_third, parsed_ok_bind, wordAt?_four, if_true, ho]
  rfl

theorem handleShowTc_pending (c : Circuit) : handleShowTc [W.SHOW, W.TC, ordinal c, W.PENDING] s =
    .ok (s, [W.SHOW, W.TC, ordinal c, W.PENDING] ++ s.circuitPending c) := by
  have ho : only [W.SHOW, W.TC, ordinal c, W.PENDING] 4 = .ok () := only_of_le (by simp)
  have hne : W.PENDING ≠ W.SET := by decide
  simp only [handleShowTc, answering, indexAt_third, parsed_ok_bind, wordAt?_four, hne, if_false, if_true, ho]
  rfl

theorem handleShowTc_other (c : Circuit) {w : Text} {rest : List Text} (hw : w ∉ [W.SET, W.PENDING]) :
    handleShowTc (a :: b :: ordinal c :: w :: rest) s = .error (.form (some 4)) := by
  simp only [List.mem_cons, List.not_mem_nil, or_false, not_or] at hw
  simp only [handleShowTc, answering, indexAt_third, parsed_ok_bind, wordAt?_four, hw, if_false]

theorem handleShowTc_index {e : Err} (h : bareForm (indexAt 20 ws 3) = .error e) : handleShowTc ws s = .error e := by
  simp only [handleShowTc, answering, h, parsed_error_bind]

/-! #### SHOW SEC -/

theorem sectionAt_third (x : Sec) : sectionAt (a :: b :: sectionLetter x :: ws) 3 = .ok x := by
  simp [sectionAt, sectionWord]

theorem sectionAt_third_other {w : Text} (hw : w ∉ [W.A, W.B, W.C]) :
    sectionAt (a :: b :: w :: ws) 3 = .error (.range (some 3)) := by
  simp [sectionAt, sectionWord, secOf_none hw]

theorem handleShowSec_first (x : Sec) :
    handleShowSec [W.SHOW, W.SEC, sectionLetter x] s = .ok (s, W.SHOW :: s.itemWords (.sec x)) := by
  have h4 : wordAt? [W.SHOW, W.SEC, sectionLetter x] 4 = none := rfl
  simp only [handleShowSec, answering, sectionAt_third, parsed_ok_bind, h4]
  rfl

theorem handleShowSec_part (x : Sec) {w : Text} {data : List Text} (h : s.sectionPart x w = some data) :
    handleShowSec [W.SHOW, W.SEC, sectionLetter x, w] s = .ok (s, sectionPartWords x w data) := by
  have ho : only [W.SHOW, W.SEC, sectionLetter x, w] 4 = .ok () := only_of_le (by simp)
  simp only [handleShowSec, answering, sectionAt_third, parsed_ok_bind, wordAt?_four, h, ho]
  rfl

theorem handleShowSec_other (x : Sec) {w : Text} {rest : List Text} (hw : w ∉ [W.TRAIN, W.BELL, W.SENT, W.RCVD]) :
    handleShowSec (a :: b :: sectionLetter x :: w :: rest) s = .error (.form (some 4)) := by
  simp only [List.mem_cons, List.not_mem_nil, or_false, not_or] at hw
  simp only [handleShowSec, answering, sectionAt_third, parsed_ok_bind, wordAt?_four, State.sectionPart, hw, if_false]

theorem handleShowSec_section {e : Err} (h : sectionAt ws 3 = .error e) : handleShowSec ws s = .error e := by
  simp only [handleShowSec, answering, h, parsed_error_bind]

/-! #### SHOW BOX -/

theorem handleShowBox_first : handleShowBox [W.SHOW, W.BOX] s = .ok (s, W.SHOW :: s.itemWords .box) := rfl

theorem handleShowBox_clock :
    handleShowBox [W.SHOW, W.BOX, W.CLOCK] s = .ok (s, [W.SHOW, W.BOX, W.CLOCK] ++ s.clockWords) := rfl

theorem handleShowBox_port (p : Sec) : handleShowBox [W.SHOW, W.BOX, W.PORT, sectionLetter p] s =
    .ok (s, [W.SHOW, W.BOX, W.PORT, sectionLetter p] ++ s.memoryWords p) := by
  have h4 : sectionAt [W.SHOW, W.BOX, W.PORT, sectionLetter p] 4 = .ok p := by simp [sectionAt, sectionWord]
  have ho : only [W.SHOW, W.BOX, W.PORT, sectionLetter p] 4 = .ok () := only_of_le (by simp)
  have hne : W.PORT ≠ W.CLOCK := by decide
  simp only [handleShowBox, answering, wordAt?_three, hne, if_false, if_true, h4, ho, parsed_ok_bind]
  rfl

theorem handleShowBox_marks :
    handleShowBox [W.SHOW, W.BOX, W.MARKS] s = .ok (s, [W.SHOW, W.BOX, W.MARKS] ++ s.marksWords) := rfl

theorem handleShowBox_other {w : Text} {rest : List Text} (hw : w ∉ [W.CLOCK, W.PORT, W.MARKS]) :
    handleShowBox (a :: b :: w :: rest) s = .error (.form (some 3)) := by
  simp only [List.mem_cons, List.not_mem_nil, or_false, not_or] at hw
  simp only [handleShowBox, answering, wordAt?_three, hw, if_false]

/-! #### SHOW GROUP -/

theorem handleShowGroup_members {g : Nat} (hl : 1 ≤ g) (hh : g ≤ 7) : handleShowGroup [W.SHOW, W.GROUP, digits g] s =
    .ok (s, [W.SHOW, W.GROUP, digits g, W.MEMBERS, digits (s.members g).length] ++ groupValues s (s.members g)) := by
  have hg : groupAt [W.SHOW, W.GROUP, digits g] = .ok g := groupAt_inside hl hh
  have hm : noMore [W.SHOW, W.GROUP, digits g] 3 = .ok () := noMore_ok (by simp)
  simp only [handleShowGroup, answering, hg, hm, parsed_ok_bind]
  rfl

theorem handleShowGroup_group {e : Err} (h : groupAt ws = .error e) : handleShowGroup ws s = .error e := by
  simp only [handleShowGroup, answering, h, parsed_error_bind]

/-! #### SHOW LAMP -/

theorem readCell_cell (c : Cell) : readCell (a :: b :: digits (c.val / 32) :: digits (c.val % 32) :: ws) 3 = .ok c := by
  have hc := c.isLt
  have hr : c.val / 32 < 16 := by omega
  have hl : c.val % 32 < 32 := by omega
  have hcell : cellAt? (c.val / 32) (c.val % 32) = some c := by
    rw [cellAt?, dif_pos ⟨hr, hl⟩]
    congr 1
    exact Fin.ext (by simp only []; omega)
  simp only [readCell, wordAt_some wordAt?_three, wordAt_some wordAt?_four, parsed_ok_bind,
    numberIn_inside (Nat.zero_le _) (Nat.le_of_lt_succ hr), numberIn_inside (Nat.zero_le _) (Nat.le_of_lt_succ hl), hcell]
  rfl

theorem readCell_outside {k c : Nat} (h : 15 < k ∨ 31 < c) :
    bare (readCell (a :: b :: digits k :: digits c :: ws) 3) = .error (.range none) := by
  by_cases hk : 15 < k
  · simp only [readCell, wordAt_some wordAt?_three, parsed_ok_bind, numberIn_outside (.inr hk), parsed_error_bind]
    rfl
  · have hc : 31 < c := h.resolve_left hk
    simp only [readCell, wordAt_some wordAt?_three, wordAt_some wordAt?_four, parsed_ok_bind,
      numberIn_inside (Nat.zero_le k) (Nat.le_of_not_lt hk), numberIn_outside (.inr hc), parsed_error_bind]
    rfl

theorem handleShowLamp_cell (c : Cell) : handleShowLamp [W.SHOW, W.LAMP, digits (c.val / 32), digits (c.val % 32)] s =
    .ok (s, [W.SHOW, W.LAMP, digits (cellRow c), digits (cellCol c)] ++ s.lampWords c) := by
  have hc : bare (readCell [W.SHOW, W.LAMP, digits (c.val / 32), digits (c.val % 32)] 3) = .ok c := by
    rw [readCell_cell]
    rfl
  have hm : noMore [W.SHOW, W.LAMP, digits (c.val / 32), digits (c.val % 32)] 4 = .ok () := noMore_ok (by simp)
  simp only [handleShowLamp, answering, hc, hm, parsed_ok_bind]
  rfl

theorem handleShowLamp_outside {e : Err} (h : bare (readCell ws 3) = .error e) : handleShowLamp ws s = .error e := by
  simp only [handleShowLamp, answering, h, parsed_error_bind]

/-! #### RAW TC -/

theorem rawIndex (c : Circuit) : bare (indexAt 20 (a :: b :: ordinal c :: ws) 3) = .ok c := by
  rw [indexAt_ordinal rfl]
  rfl

theorem handleRawTc_measured {c : Circuit} (h : (s.circuit c).state ≠ .disabled) :
    handleRawTc [W.RAW, W.TC, ordinal c] s = .ok (s, [W.RAW, W.TC, ordinal c] ++ (s.circuit c).rawWords) := by
  have ho : only [W.RAW, W.TC, ordinal c] 3 = .ok () := only_of_le (by simp)
  simp only [handleRawTc, answering, rawIndex, parsed_ok_bind, h, decide_false, refuseIf_false, ho]
  rfl

theorem handleRawTc_disabled {c : Circuit} (h : (s.circuit c).state = .disabled) :
    handleRawTc [W.RAW, W.TC, ordinal c] s = .error (.range none) := by
  simp only [handleRawTc, answering, rawIndex, parsed_ok_bind, h, decide_true, refuseIf_true, parsed_error_bind]

theorem handleRawTc_outside {k : Nat} {rest : List Text} (h : k < 1 ∨ 20 < k) :
    handleRawTc (a :: b :: digits k :: rest) s = .error (.range none) := by
  have hi : bare (indexAt 20 (a :: b :: digits k :: rest) 3) = .error (.range none) := by
    rw [indexAt_outside h rfl]
    rfl
  simp only [handleRawTc, answering, hi, parsed_error_bind]

/-! #### REG -/

/-- The sequence number of a REG request. -/
def readSeq (ws : List Text) : Parsed Nat := bare (do numberIn 0 65535 2 (← wordAt ws 2))

theorem readSeq_digits (q : Seq) : readSeq [W.REG, digits q.toNat] = .ok q.toNat := by
  have hq : q.toNat ≤ 65535 := by
    have := q.isLt
    omega
  simp only [readSeq, wordAt_some wordAt?_two, parsed_ok_bind, numberIn_inside (Nat.zero_le _) hq]
  rfl

theorem handleReg_held {q : Seq} {e : RegEntry} (h : s.register.entry? q = some e) :
    handleReg [W.REG, digits q.toNat] s = .ok (s, entryWords e) := by
  have hr := readSeq_digits q
  have ho : only [W.REG, digits q.toNat] 2 = .ok () := only_of_le (by simp)
  rw [readSeq] at hr
  simp only [handleReg, answering, hr, ho, parsed_ok_bind, BitVec.ofNat_toNat, BitVec.setWidth_eq, h]
  rfl

theorem handleReg_gone {q : Seq} (h : s.register.entry? q = none) :
    handleReg [W.REG, digits q.toNat] s = .error (.gone (s.register.oldest.map (·.toNat))) := by
  have hr := readSeq_digits q
  have ho : only [W.REG, digits q.toNat] 2 = .ok () := only_of_le (by simp)
  rw [readSeq] at hr
  simp only [handleReg, answering, hr, ho, parsed_ok_bind, BitVec.ofNat_toNat, BitVec.setWidth_eq, h]

theorem handleReg_number {e : Err} (h : readSeq ws = .error e) : handleReg ws s = .error e := by
  rw [readSeq] at h
  simp only [handleReg, answering, h, parsed_error_bind]

theorem readSeq_malformed {w : Text} {rest : List Text} (h : decimal? w = none) :
    readSeq (W.REG :: w :: rest) = .error (.form none) := by
  simp only [readSeq, wordAt_some wordAt?_two, parsed_ok_bind, numberIn, number_bad h]
  rfl

theorem readSeq_outside {k : Nat} {rest : List Text} (h : 65535 < k) :
    readSeq (W.REG :: digits k :: rest) = .error (.range none) := by
  simp only [readSeq, wordAt_some wordAt?_two, parsed_ok_bind, numberIn_outside (.inr h)]
  rfl

end

end Sys2Proof.Machine

/-! ### The reads: the words they answer with -/

namespace Sys2Proof.Machine

section
variable {s : State}

theorem optionalNumber_map {α : Type} (w : Text) (o : Option α) (f : α → Nat) :
    optionalNumber w (o.map f) = (o.map fun d => [w, digits (f d)]).getD [] := by
  cases o <;> rfl

theorem optionalTime_eq (w : Text) (o : Option ClockTime) : optionalTime w o = (o.map fun c => [w, timeWord c]).getD [] := by
  cases o <;> rfl

theorem leverWords_unloaded {n : Lever} (h : (s.lever n).record = none) :
    s.leverWords n = [leverPosWord (s.lever n).pos, W.UNLOADED] := by
  simp [State.leverWords, LeverData.loaded, h]

theorem travelWords (l : LeverData) (now : Nat) : optionalNumber W.TRAVEL (l.travelLeft now) =
    match l.limit with
    | some d => if l.pos = .travel ∧ l.lock = true then [W.TRAVEL, digits (secondsLeft now d)] else []
    | none => [] := by
  by_cases hg : l.pos = .travel ∧ l.lock = true
  · have hgr : l.granted = true := by simpa [LeverData.granted] using hg
    cases hl : l.limit <;> simp [LeverData.travelLeft, hgr, hg, hl, optionalNumber]
  · have hgr : l.granted = false := by
      rw [← Bool.not_eq_true]
      simpa [LeverData.granted] using hg
    cases l.limit <;> simp [LeverData.travelLeft, hgr, hg, optionalNumber]

theorem backlockWords (l : LeverData) (now : Nat) : optionalNumber W.BACKLOCK (l.backlockLeft now) =
    match l.backlock with
    | .timing d => if l.pos = .backlocked then [W.BACKLOCK, digits (secondsLeft now d)] else []
    | .due => if l.pos = .backlocked then [W.BACKLOCK, digits 0] else []
    | .idle => [] := by
  by_cases hp : l.pos = .backlocked
  · cases hb : l.backlock <;> simp [LeverData.backlockLeft, hp, hb, optionalNumber]
  · cases hb : l.backlock <;> simp [LeverData.backlockLeft, hp, optionalNumber]

theorem leverWords_loaded {n : Lever} (h : (s.lever n).record ≠ none) : s.leverWords n =
    [leverPosWord (s.lever n).pos, W.LOCK, onOff (s.lever n).lock] ++ optional (s.lever n).refused W.REFUSED ++
      optional (s.lever n).forced W.FORCED ++ optional (s.lever n).stalled W.STALLED ++
      optionalNumber W.TRAVEL ((s.lever n).travelLeft s.now) ++
      optionalNumber W.BACKLOCK ((s.lever n).backlockLeft s.now) := by
  have hl : (s.lever n).loaded = true := by simpa [LeverData.loaded, Option.isSome_iff_ne_none] using h
  simp only [State.leverWords, hl, if_true]

theorem circuitWords_unloaded {c : Circuit} (h : (s.circuit c).stored = none) :
    s.circuitWords c = [W.DISABLED, W.UNLOADED] := by
  simp [State.circuitWords, h]

theorem circuitWords_loaded {c : Circuit} (h : (s.circuit c).stored ≠ none) : s.circuitWords c =
    trackStateWords (s.circuit c).state ++ s.circuitFigures c ++ optional (s.circuit c).stale W.STALE := by
  simp [State.circuitWords, Option.isSome_iff_ne_none, h]

theorem circuitFigures_applied {c : Circuit} {v : TcRecord} {p : Polarity} (hl : (s.circuit c).live = some v)
    (ha : (s.circuit c).applied = some p) : s.circuitFigures c =
      [W.Q, digits (s.circuit c).q, W.R, digits (s.circuit c).clearLevel, W.D, digits (dropThreshold (s.circuit c).clearLevel v),
        W.U, digits (pickThreshold (s.circuit c).clearLevel v), W.CNT, digits (s.circuit c).low, digits (s.circuit c).high,
        digits (s.circuit c).reverse, polarityWord p] := by
  simp only [State.circuitFigures, hl, ha]

theorem circuitSet_unloaded {c : Circuit} (h : (s.circuit c).stored = none) : s.circuitSet c = [W.DISABLED, W.UNLOADED] := by
  simp [State.circuitSet, h]

theorem circuitSet_loaded {c : Circuit} {r : TcRecord} (h : (s.circuit c).stored = some r) :
    s.circuitSet c = tcValueWords ((s.circuit c).live.getD r) := by
  cases hl : (s.circuit c).live <;> simp [State.circuitSet, h, hl]

/-- The last value waiting for each field. -/
theorem pendingWords_eq (vals : List (TcField × Nat)) : pendingWords vals =
    [TcField.coarse, .fine, .window, .ref, .drop, .pick, .floor, .low, .joint, .dropf, .pickf, .phase, .inv, .group].flatMap
      fun f =>
        match vals.reverse.find? fun e => decide (e.1 = f) with
        | some e => [wordFor tcFieldTable f, digits e.2]
        | none => [] := by
  have hf : ∀ w f, optionalNumber w (valueOf f vals.reverse) =
      match vals.reverse.find? fun e => decide (e.1 = f) with
      | some e => [w, digits e.2]
      | none => [] := fun w f => by
    rw [valueOf_eq]
    cases vals.reverse.find? fun e => decide (e.1 = f) <;> rfl
  simp only [pendingWords, hf]
  rfl

theorem circuitPending_unloaded {c : Circuit} (h : (s.circuit c).stored = none) :
    s.circuitPending c = [W.DISABLED, W.UNLOADED] := by
  simp [State.circuitPending, h]

theorem circuitPending_loaded {c : Circuit} (h : (s.circuit c).stored ≠ none) :
    s.circuitPending c = pendingWords (pendingTunes c s.track.ops) := by
  obtain ⟨r, hr⟩ := Option.ne_none_iff_exists'.1 h
  simp only [State.circuitPending, hr]

theorem codeUnmarked_iff (x : Sec) (out : Bool) :
    s.codeUnmarked x out = true ↔ ∃ h ∈ s.inbox.codes, h.port = x ∧ decide (h.dir = .outgoing) = out := by
  simp [State.codeUnmarked]

theorem datumWords_eq (o : Option Nat) : datumWords o = (o.map digits).toList := by
  cases o <;> rfl

theorem sentMark_eq (x : Sec) [Decidable (∃ h ∈ s.inbox.codes, h.port = x ∧ h.dir = .outgoing)] :
    s.sentMark x = if ∃ h ∈ s.inbox.codes, h.port = x ∧ h.dir = .outgoing then none else (s.section_ x).sentMark := by
  simp only [State.sentMark, codeUnmarked_iff, decide_eq_true_eq]

theorem rcvdMark_eq (x : Sec) [Decidable (∃ h ∈ s.inbox.codes, h.port = x ∧ h.dir ≠ .outgoing)] :
    s.rcvdMark x = if ∃ h ∈ s.inbox.codes, h.port = x ∧ h.dir ≠ .outgoing then none else (s.section_ x).rcvdMark := by
  simp only [State.rcvdMark, codeUnmarked_iff, decide_eq_false_iff_not]

theorem senseWord_eq (v : Sense) : senseWord v =
    match v with
    | .idle => W.IDLE
    | .incoming => W.IN
    | .outgoing => W.OUT
    | .clash => W.CLASH := by
  cases v <;> rfl

theorem ownerWord_eq (v : Owner) : ownerWord v =
    match v with
    | .free => W.FREE
    | .incoming => W.IN
    | .outgoing => W.OUT := by
  cases v <;> rfl

theorem driven_word (v : Sounder) : onOff v.driven = if v = .off then W.OFF else W.ON := by
  cases v <;> rfl

theorem serviceWord_eq (v : ServiceState) : serviceWord v =
    match v with
    | .powerUp => W.POWER_UP
    | .configure => W.CONFIGURE
    | .inService => W.IN_SERVICE
    | .switchedOut => W.SWITCHED_OUT := by
  cases v <;> rfl

theorem boxPosWord_eq (v : BoxPos) : boxPosWord v = if v = .out then W.OUT else W.IN := by
  cases v <;> rfl

theorem lastRefusalWords_eq (o : Option BoxRefusal) : lastRefusalWords o =
    match o with
    | none => []
    | some .noList => [W.REFUSED, W.NO_LIST]
    | some (.notBlocked x) => [W.REFUSED, W.NOT_BLOCKED, sectionLetter x]
    | some (.lever n) => [W.REFUSED, W.LEVER, ordinal n]
    | some (.term n) => [W.REFUSED, W.TERM, ordinal n]
    | some (.exchange x) => [W.REFUSED, W.EXCHANGE, sectionLetter x]
    | some (.indicator x) => [W.REFUSED, W.INDICATOR, sectionLetter x] := by
  cases o with
  | none => rfl
  | some r => cases r <;> rfl

theorem pathWord_eq (o : Option Sec) : pathWord o = (o.map sectionLetter).getD W.NONE := by
  cases o <;> rfl

/-- The oldest and the newest entry of the register by their numbers. -/
theorem seqWords_eq (r : Register) : seqWord r.oldest ++ seqWord r.newest =
    match r.ring.head?, r.ring.getLast? with
    | some a, some b => [digits a.seq.toNat, digits b.seq.toNat]
    | _, _ => [] := by
  rw [Register.oldest, Register.newest]
  cases hr : r.ring with
  | nil => rfl
  | cons e es => simp [seqWord, List.getLast?_cons]

theorem maskedWords_eq (ms : List MaskCause) : maskedWords ms = if ms = [] then [] else W.MASKED :: ms.map maskWord := by
  cases ms <;> rfl

/-- SHOW LAMP before the first published frame. -/
theorem lampWords_unpublished (c : Cell) (h : s.diagram.published = none) : s.lampWords c =
    [W.OFF, W.UNLIT, W.TON, digits 0, W.PHYS, digits (remap 15 s.shownFrame.rowrev (cellRow c)),
      digits (remap 31 s.shownFrame.colrev (cellCol c)), W.LEVEL, lightWord s.diagram.level, W.B, digits s.shownFrame.b,
      W.HALF, onOff s.diagram.half, W.UNBOUND] := by
  have hshown : s.shownFrame = { s.snapshot with cells := [], bindings := [], ton := 0 } := by
    simp only [State.shownFrame, h]
  rw [State.lampWords, State.cellBinding, hshown]
  rfl

theorem hostShown_held {c : Cell} {w : Lamp} (h : mapGet s.diagram.host c = some w) : s.hostShown c = w := by
  simp only [State.hostShown, h]

theorem cellBinding_bound {c : Cell} {b : Binding} (h : mapGet s.shownFrame.bindings c = some b) : s.cellBinding c =
    (if b.source = .host then [W.HOST, wordFor lampTable (s.hostShown c)] else []) ++ bindingWords c b := by
  simp only [State.cellBinding, h]

theorem entry_unique {q : Seq} {e : RegEntry} (he : e ∈ s.register.ring) (hq : e.seq = q)
    (hu : ∀ d ∈ s.register.ring, d.seq = q → d = e) : s.register.entry? q = some e := by
  rw [Register.entry?]
  cases hf : s.register.ring.find? fun e => decide (e.seq = q) with
  | none => exact absurd hq (by simpa using List.find?_eq_none.1 hf e he)
  | some d => rw [hu d (List.mem_of_find?_eq_some hf) (by simpa using List.find?_some hf)]

theorem entry_none {q : Seq} (h : ∀ e ∈ s.register.ring, e.seq ≠ q) : s.register.entry? q = none := by
  rw [Register.entry?, List.find?_eq_none]
  simpa using h

end

/-- Settles O55: each read answers its form and changes only the line. -/
theorem readsAnswerAndChangeNothing : Obligations.ReadsAnswerAndChangeNothing := by
  refine ⟨fun c => rfl, ?_⟩
  intro s hs range form has left ind sec stage dir cause cls fail track polarity last mark inOut body
  have hv := afterPowerUp_of hs
  have hind : ∀ i, indWord i = ind i := fun i => by cases i <;> rfl
  have hsec : ∀ st, secStateWord st = sec st := fun st => by cases st <;> rfl
  have hstage : ∀ g, stageWord g = stage g := fun g => by cases g <;> rfl
  have hdir : ∀ d, dirWord d = dir d := fun d => by cases d <;> rfl
  have hcause : ∀ c, causeWord c = cause c := fun c => by cases c <;> rfl
  have hcls : ∀ k, classWords k = cls k := fun k => by
    match k with
    | .meaning m => cases m <;> rfl
    | .unknown => rfl
    | .erroneous none => rfl
    | .erroneous (some c) => exact congrArg (fun w => [W.ERRONEOUS, w]) (hcause c)
  have hfail : ∀ f, failWord f = fail f := fun f => by cases f <;> rfl
  have htrack : ∀ st, trackStateWords st = track st := fun st => by
    cases st with
    | failed f => exact congrArg (fun w => [W.FAILED, w]) (hfail f)
    | _ => rfl
  have hpol : ∀ p, polarityWord p = polarity p := fun p => by cases p <;> rfl
  have hlast : ∀ (waits : Prop) [Decidable waits] (m : Option Mark) (code : Option CodeRecord),
      lastCodeWords (if waits then none else m) code = last waits m code := fun waits _ m code => by
    cases code with
    | none => rfl
    | some r =>
      by_cases hw : waits
      · simp only [last, lastCodeWords, hcls, hw, if_true, markWords]
      · simp only [last, lastCodeWords, hcls, hw, if_false]
        cases m with
        | none => rfl
        | some k => cases k <;> rfl
  have hmark : ∀ p w m, s.exchangeMark p w m = mark p w m := fun p w m => by cases m <;> rfl
  have hbody : ∀ b, bodyWords b = body b := fun b => by
    cases b with
    | bell p d pattern k => simp only [bodyWords, body, hdir, hcls]
    | change x a b train auto =>
      simp only [bodyWords, body, hsec, datumWords_eq]
      rfl
    | train ident x inward k outcome offered entered => cases outcome <;> cases entered <;> rfl
    | lever n e => cases e <;> rfl
    | track c f =>
      cases f with
      | none => rfl
      | some f => exact congrArg (fun w => [W.TRACK, ordinal c, W.FAILED, w]) (hfail f)
    | box e => cases e <;> rfl
    | disagree o => cases o <;> rfl
    | _ => rfl
  refine ⟨?_, ?_, ?_, ?_, ?_, ?_, ?_, ?_, ?_, ?_, ?_, ?_, ?_⟩
  · intro n ha l pos
    have hpos : leverPosWord l.pos = pos := by
      simp only [pos]
      cases l.pos <;> rfl
    refine ⟨fun hr => ?_, fun hr => ?_⟩
    · refine read_answered rfl ha hs (handleShowLev_first n) ?_
      rw [State.itemWords, leverWords_unloaded hr, hpos]
      rfl
    · refine read_answered rfl ha hs (handleShowLev_first n) ?_
      rw [State.itemWords, leverWords_loaded hr, hpos, travelWords, backlockWords]
      rfl
  · intro c k waiting
    have hwaiting : pendingTunes c s.track.ops = waiting := pendingTunes_eq c _
    refine ⟨fun ha => ⟨fun hr => ?_, fun r v p hr hl hp => ?_, fun hr hno => ⟨s.circuitFigures c, ?_⟩⟩,
      fun ha => ⟨fun hr => ?_, fun r hr => ?_⟩, fun ha => ⟨fun hr => ?_, fun hr => ?_⟩, fun w rest hw ha => ?_⟩
    · refine read_answered rfl ha hs (handleShowTc_first c) ?_
      rw [State.itemWords, circuitWords_unloaded hr]
      rfl
    · refine read_answered rfl ha hs (handleShowTc_first c) ?_
      rw [State.itemWords, circuitWords_loaded (by rw [hr]; simp), circuitFigures_applied hl hp, htrack, hpol]
      rfl
    · refine read_answered rfl ha hs (handleShowTc_first c) ?_
      rw [State.itemWords, circuitWords_loaded hr, htrack]
      rfl
    · refine read_answered rfl ha hs (handleShowTc_set c) ?_
      rw [circuitSet_unloaded hr]
      rfl
    · refine read_answered rfl ha hs (handleShowTc_set c) ?_
      rw [circuitSet_loaded hr]
      rfl
    · refine read_answered rfl ha hs (handleShowTc_pending c) ?_
      rw [circuitPending_unloaded hr]
      rfl
    · refine read_answered rfl ha hs (handleShowTc_pending c) ?_
      rw [circuitPending_loaded hr, hwaiting, pendingWords_eq]
      rfl
    · exact refused rfl ha hv (handleShowTc_other c hw) rfl
  · intro x k p
    refine ⟨fun ha => ?_, fun ha => ⟨fun ht => ?_, fun t ht => ?_⟩, fun ha => ?_, fun ha => ?_, fun ha => ?_,
      fun w rest hw ha => ?_⟩
    · refine read_answered rfl ha hs (handleShowSec_first x) ?_
      have hreading : readingWord k.reading = (k.reading.map ind).getD W.INVALID := by
        cases k.reading with
        | none => rfl
        | some i => exact hind i
      have htrain : trainBrief k.train =
          (k.train.map fun t => [W.TRAIN, digits t.ident, stage t.stage, digits t.progress]).getD [] := by
        cases k.train with
        | none => rfl
        | some t => exact congrArg (fun w => [W.TRAIN, digits t.ident, w, digits t.progress]) (hstage t.stage)
      rw [State.itemWords, State.sectionWords, hsec, hind, hind, hreading, htrain, optionalNumber_map]
      rfl
    · refine read_answered rfl ha hs (handleShowSec_part x rfl) ?_
      rw [ht]
      rfl
    · refine read_answered rfl ha hs (handleShowSec_part x rfl) ?_
      rw [ht, trainWords, hstage, optionalTime_eq, optionalTime_eq]
      rfl
    · intro rest
      refine read_answered rfl ha hs (handleShowSec_part x rfl) ?_
      have hspoil : ∀ sp, spoilWord sp = (match sp with
          | .absent => W.NONE
          | .present none => W.ERRONEOUS
          | .present (some e) => cause e) := fun sp => by
        match sp with
        | .absent => rfl
        | .present none => rfl
        | .present (some e) => exact hcause e
      have hhand : codeInHand p.code ++ optional p.suppressed W.SUPPRESSED = (match p.code with
          | none => []
          | some c => [dir c.dir, patternText c.groups,
            match c.spoil with
            | .absent => W.NONE
            | .present none => W.ERRONEOUS
            | .present (some e) => cause e] ++ has c.suppressed W.SUPPRESSED) := by
        rw [PortData.suppressed]
        cases p.code with
        | none => rfl
        | some c =>
          simp only [codeInHand, hdir, hspoil]
          rfl
      have hwords : s.bellWords x = [senseWord p.sense, onOff p.drive, ownerWord p.owner] ++
          (codeInHand p.code ++ optional p.suppressed W.SUPPRESSED) ++ optional p.held W.HELD ++
          [W.LOCAL, onOff p.sounder.driven] := by
        rw [State.bellWords, List.append_assoc [_, _, _]]
      rw [hwords, hhand, senseWord_eq, ownerWord_eq, driven_word]
      rfl
    · refine read_answered rfl ha hs (handleShowSec_part x rfl) ?_
      rw [sentMark_eq, hlast]
      rfl
    · refine read_answered rfl ha hs (handleShowSec_part x rfl) ?_
      rw [rcvdMark_eq, hlast]
      rfl
    · exact refused rfl ha hv (handleShowSec_other x hw) rfl
  · intro ha
    refine read_answered rfl ha hs handleShowBox_first ?_
    rw [State.itemWords, State.boxWords, serviceWord_eq, boxPosWord_eq, lastRefusalWords_eq, pathWord_eq, ServiceUnit.disagree,
      optional]
    simp only [decide_eq_true_eq]
    rfl
  · intro ha
    refine read_answered rfl ha hs handleShowBox_clock ?_
    rw [State.clockWords, List.append_assoc, seqWords_eq]
    rfl
  · intro p code ha
    refine read_answered rfl ha hs (handleShowBox_port p) ?_
    have hcode : ∀ m, memCodeWords m = code m := fun m => by
      cases m with
      | none => rfl
      | some c => exact congrArg (fun ws => [patternText c.pattern] ++ ws ++ [timeWord c.time]) (hcls c.cls)
    rw [State.memoryWords, hcode, hcode]
    simp [success]
  · intro ha
    refine read_answered rfl ha hs handleShowBox_marks ?_
    simp [State.marksWords, allSections, hmark, success]
  · exact fun w rest hw ha => refused rfl ha hv (handleShowBox_other hw) rfl
  · intro g hl hh ha members
    have hmembers : s.members g = members := members_eq s g
    refine ⟨fun hno => ?_, fun c rest r hm hr => ?_⟩
    · refine read_answered rfl ha hs (handleShowGroup_members hl hh) ?_
      rw [hmembers, hno]
      rfl
    · intro v
      refine read_answered rfl ha hs (handleShowGroup_members hl hh) ?_
      have htuned : s.tuned c = some v := by
        simp only [State.tuned, hr, Option.map_some, pendingTunes_eq] <;> rfl
      rw [hmembers, hm]
      simp only [groupValues, htuned]
      rfl
  · intro c ha opening lamp level
    have hlamp : ∀ v, wordFor lampTable v = lamp v := fun v => by cases v <;> rfl
    have hlevel : ∀ v, lightWord v = level v := fun v => by cases v <;> rfl
    refine ⟨fun f hf => ?_, fun hf => ?_⟩
    · intro v figures
      have hshown : s.shownFrame = f := by simp only [State.shownFrame, hf]
      have hlit : ∀ u : Lamp, u.lit f.half = true ↔ u = .on ∨ (u = .flash ∧ f.half = true) := fun u => by
        cases u <;> simp [Lamp.lit]
      have hlitWord : (if v.lit f.half = true then W.LIT else W.UNLIT) =
          if v = .on ∨ (v = .flash ∧ f.half = true) then W.LIT else W.UNLIT := by
        simp only [hlit]
      have hfigures : success ([W.SHOW, W.LAMP, digits (cellRow c), digits (cellCol c)] ++ s.lampWords c) =
          figures ++ s.cellBinding c := by
        simp only [State.lampWords, hshown, hlamp, hlevel]
        rw [hlitWord]
        rfl
      refine ⟨fun hb => ?_, fun b hb => ⟨fun hno => ?_, fun w hh hw => ?_, fun hh hw => ?_⟩⟩
      · refine read_answered rfl ha hs (handleShowLamp_cell c) (hfigures.trans ?_)
        rw [State.cellBinding, hshown, hb]
      · refine read_answered rfl ha hs (handleShowLamp_cell c) (hfigures.trans ?_)
        rw [cellBinding_bound (hshown ▸ hb), if_neg hno]
        rfl
      · refine read_answered rfl ha hs (handleShowLamp_cell c) (hfigures.trans ?_)
        rw [cellBinding_bound (hshown ▸ hb), if_pos hh, hostShown_held hw, hlamp]
        exact (List.append_assoc _ _ _).symm
      · refine ⟨s.hostShown c, read_answered rfl ha hs (handleShowLamp_cell c) (hfigures.trans ?_)⟩
        rw [cellBinding_bound (hshown ▸ hb), if_pos hh, hlamp]
        exact (List.append_assoc _ _ _).symm
    · refine ⟨digits (remap 15 s.shownFrame.rowrev (cellRow c)), digits (remap 31 s.shownFrame.colrev (cellCol c)),
        digits s.shownFrame.b, read_answered rfl ha hs (handleShowLamp_cell c) ?_⟩
      rw [lampWords_unpublished c hf, hlevel]
      rfl
  · intro c ha k
    refine ⟨fun hd => ?_, fun hd hp => ?_, fun m hd hp => ?_⟩
    · exact refused rfl ha hv (handleRawTc_disabled hd) rfl
    · refine read_answered rfl ha hs (handleRawTc_measured hd) ?_
      rw [CircuitData.rawWords, hp]
      rfl
    · refine read_answered rfl ha hs (handleRawTc_measured hd) ?_
      have hsign : signWord m.sign = (m.sign.map polarity).getD W.OFF := by
        cases m.sign with
        | none => rfl
        | some p => exact hpol p
      rw [CircuitData.rawWords, hp]
      simp only [measurementWords, hsign, maskedWords_eq]
      rfl
  · intro q ha
    refine ⟨fun e he hq hu => ?_, fun hno => ⟨fun hr => ?_, fun e rest hr => ?_⟩⟩
    · refine read_answered rfl ha hs (handleReg_held (entry_unique he hq hu)) ?_
      rw [entryWords, hbody, hq]
      rfl
    · exact refused rfl ha hv (handleReg_gone (entry_none hno)) (by rw [Register.oldest, hr]; rfl)
    · exact refused rfl ha hv (handleReg_gone (entry_none hno)) (by rw [Register.oldest, hr]; rfl)
  · intro k c w rest
    refine ⟨?_, ?_, ?_, ?_, ?_, ?_, ?_, ?_, ?_, ?_, ?_, ?_, ?_, ?_⟩
    · exact fun hk ha => refused rfl ha hv (handleShowLev_index (index_out hk)) rfl
    · exact fun hk ha => refused rfl ha hv (handleShowTc_index (index_out hk)) rfl
    · exact fun hw ha => refused rfl ha hv (handleShowSec_section (sectionAt_third_other hw)) rfl
    · exact fun hk ha => refused rfl ha hv (handleShowGroup_group (groupAt_outside hk)) rfl
    · exact fun ha => refused rfl ha hv (handleShowLev_index index_missing) rfl
    · exact fun ha => refused rfl ha hv (handleShowTc_index index_missing) rfl
    · exact fun ha => refused rfl ha hv (handleShowSec_section (e := .range (some 3)) rfl) rfl
    · exact fun ha => refused rfl ha hv (handleShowGroup_group (e := .range (some 3)) rfl) rfl
    · exact fun n ha => refused rfl ha hv (handleShowLev_more n w rest) rfl
    · exact fun h ha => refused rfl ha hv (handleShowLamp_outside (readCell_outside h)) rfl
    · exact fun hk ha => refused rfl ha hv (handleRawTc_outside hk) rfl
    · exact fun hw ha => refused rfl ha hv (handleReg_number (readSeq_malformed hw)) rfl
    · exact fun ha => refused rfl ha hv (handleReg_number (e := .form none) rfl) rfl
    · exact fun hk ha => refused rfl ha hv (handleReg_number (readSeq_outside hk)) rfl

end Sys2Proof.Machine

/-! ### The law of the locking table: what the tests of a lever ask (O14, O15, O17) -/

namespace Sys2Proof.Machine

/-! #### Entries (R24, R25) -/

theorem LeverTerm.condHolds_iff (read : Lever → Option LeverEnd) (c : LeverTerm) :
    c.condHolds read = true ↔ read c.lever = some c.pos ∨ read c.lever = none := by
  simp [LeverTerm.condHolds]

theorem LockEntry.active_iff (read : Lever → Option LeverEnd) (e : LockEntry) :
    e.active read = true ↔ ∀ c ∈ e.conds, read c.lever = some c.pos ∨ read c.lever = none := by
  simp [LockEntry.active, LeverTerm.condHolds_iff]

theorem LockEntry.violated_iff (read : Lever → Option LeverEnd) (e : LockEntry) : e.violated read = true ↔
    e.active read = true ∧ read e.x.lever ≠ some e.x.pos.opposite ∧ read e.y.lever ≠ some e.y.pos := by
  simp [LockEntry.violated]

/-- An unconditional entry is violated by any reading with both its levers away. -/
theorem LockEntry.violated_of_away {read : Lever → Option LeverEnd} {e : LockEntry} (hc : e.conds = [])
    (hx : read e.x.lever = none) (hy : read e.y.lever = none) : e.violated read = true := by
  rw [e.violated_iff, e.active_iff, hc, hx, hy]
  simp

/-! #### The trial state and the table test (R26, R27) -/

theorem State.trial_self (s : State) (z : Lever) : s.trial z z = none := if_pos rfl

/-- The trial state by the lever states it names: any other state counts as away (R26). -/
theorem State.trial_eq (s : State) (z m : Lever) : s.trial z m =
    if m = z then none else if (s.lever m).pos = .nLocked then some .n
    else if (s.lever m).pos = .rLocked then some .r else none := by
  unfold State.trial
  cases (s.lever m).pos <;> rfl

/-- A lever not locked at an end is away in every trial state. -/
theorem State.trial_of_unlocked {s : State} {z m : Lever}
    (h : (s.lever m).pos ∈ [LeverPos.nFree, .rFree, .travel, .backlocked, .fault]) : s.trial z m = none := by
  have hn : (s.lever m).pos ≠ .nLocked := fun hp => by simp [hp] at h
  have hr : (s.lever m).pos ≠ .rLocked := fun hp => by simp [hp] at h
  rw [State.trial_eq, if_neg hn, if_neg hr, ite_self]

theorem State.tableTest_iff (s : State) (z : Lever) :
    s.tableTest z = true ↔ ∀ e ∈ s.locking, e.violated (s.trial z) = false := by
  simp [State.tableTest, tableHolds]

/-! #### The terms of a record (R28 to R30) -/

section
variable (s : State) (z : Lever) (r : LevRecord) (leaving : Option LeverEnd) (x : Sec)

theorem LeverData.controls_iff (l : LeverData) : l.controls x = true ↔ l.blockControl = some x := by
  simp [LeverData.controls]

theorem State.trackTerms_iff : s.trackTerms r leaving = true ↔
    ∀ t ∈ r.tracks, t.applies.to leaving = true → s.lockTrack t.circuit = .clear := by
  simp [State.trackTerms, ← imp_iff_not_or, ← Bool.not_eq_true]

theorem State.provingTerms_iff : s.provingTerms r leaving = true ↔
    ∀ p ∈ r.provings, p.applies.to leaving = true → s.proves p.input = p.active := by
  simp [State.provingTerms, ← imp_iff_not_or, ← Bool.not_eq_true]

theorem State.arrivalWaits_eq_false_iff :
    s.arrivalWaits x = false ↔ ∀ m ∈ s.inbox.atR, (s.lever m).blockControl ≠ some x := by
  simp [State.arrivalWaits, ← Bool.not_eq_true, LeverData.controls_iff]

theorem State.releaseUnheld_iff : s.releaseUnheld z x = true ↔
    ∀ m, m ≠ z → (s.lever m).blockControl = some x → (s.lever m).pos ≠ .nFree ∧ (s.lever m).pos ≠ .travel := by
  simp [State.releaseUnheld, mem_allLevers, ← Bool.not_eq_true, LeverData.controls_iff, imp_iff_not_or, or_assoc]

theorem State.blockMet_iff : s.blockMet z x = true ↔
    (s.section_ x).state = .clearOut ∧ (s.section_ x).releaseUnused = true ∧
      (∀ m ∈ s.inbox.atR, (s.lever m).blockControl ≠ some x) ∧
      ∀ m, m ≠ z → (s.lever m).blockControl = some x → (s.lever m).pos ≠ .nFree ∧ (s.lever m).pos ≠ .travel := by
  simp only [State.blockMet, Bool.and_eq_true, Bool.not_eq_true', decide_eq_true_eq, s.arrivalWaits_eq_false_iff,
    s.releaseUnheld_iff, and_assoc]

theorem State.blockTerm_iff : s.blockTerm z r leaving = true ↔
    ∀ x, r.block = some x → leaving ≠ some .r → s.blockMet z x = true := by
  unfold State.blockTerm
  cases r.block with
  | none => simp
  | some x => simp [← or_iff_not_imp_left]

variable {s z r}

/-- The freedom test of a loaded lever asks four things: the table, the track, proving and block terms. -/
theorem State.freedomTest_iff (hr : (s.lever z).record = some r) : s.freedomTest z = true ↔
    s.tableTest z = true ∧ s.trackTerms r (s.lever z).leaving = true ∧
      s.provingTerms r (s.lever z).leaving = true ∧ s.blockTerm z r (s.lever z).leaving = true := by
  simp [State.freedomTest, hr, and_assoc]

theorem State.tableTest_of_freedomTest (h : s.freedomTest z = true) : s.tableTest z = true := by
  cases hr : (s.lever z).record with
  | none => simp [State.freedomTest, hr] at h
  | some r => exact ((State.freedomTest_iff hr).1 h).1

end

/-- Settles O14: the definitions of R24 and R25, and their use in the table test and in the VIOLATION check. -/
theorem entryActiveAndViolated : Obligations.EntryActiveAndViolated := by
  refine ⟨fun e read => ⟨e.active_iff read, e.violated_iff read⟩, fun s => ⟨s.tableTest_iff, ?_⟩⟩
  simp only [checkViolation_none, Bool.not_eq_true]

/-- Settles O15: the freedom test is its four parts, and each part is the rule it follows. -/
theorem freedomTestIsTheLaw : Obligations.FreedomTestIsTheLaw := by
  intro s z r hr
  refine ⟨s.trial_eq z, (State.freedomTest_iff hr).trans ?_⟩
  refine and_congr (s.tableTest_iff z) (and_congr ((s.trackTerms_iff r _).trans ?_)
    (and_congr (s.provingTerms_iff r _) ((s.blockTerm_iff z r _).trans ?_)))
  · exact Iff.rfl
  · simp only [s.blockMet_iff]

/-! #### Levers that lock one another (R31) -/

section
variable {s : State} {n : Lever}

/-- A lever locked at an end or in travel asks for freedom where its lock is off. -/
theorem asksFreedom_of_lock_off {l : LeverData} (hp : l.pos ∈ [LeverPos.nLocked, .rLocked, .travel])
    (hk : l.lock = false) : l.asksFreedom := by
  simp only [List.mem_cons, List.not_mem_nil, or_false] at hp
  obtain hp | hp | hp := hp
  · exact .inl hp
  · exact .inr (.inl hp)
  · exact .inr (.inr ⟨hp, hk⟩)

/-- A grip in service at which the freedom test fails changes no more of a lever than its refused flag. -/
theorem gripInService_of_test_fails (ht : s.freedomTest n = false) :
    (gripInService n s).lever n = s.lever n ∨ (gripInService n s).lever n = (s.lever n).refuse := by
  have hasks : (s.lever n).asksFreedom → (gripInService n s).lever n = (s.lever n).refuse := fun h => by
    rw [gripInService_asks h, if_neg (by simp [ht])]
  cases hp : (s.lever n).pos with
  | nLocked => exact .inr (hasks (.inl hp))
  | rLocked => exact .inr (hasks (.inr (.inl hp)))
  | travel =>
    cases hk : (s.lever n).lock with
    | false => exact .inr (hasks (.inr (.inr ⟨hp, hk⟩)))
    | true => exact .inl (by rw [gripInService_elsewhere (.inl ⟨hp, hk⟩)])
  | fault => exact .inr (gripInService_fault hp)
  | nFree | rFree | backlocked => exact .inl (by rw [gripInService_elsewhere (by simp [hp])])

/-- A grip at which the freedom test fails changes no more of a lever than its refused flag, in every service state. -/
theorem takeGrip_of_test_fails (ht : s.freedomTest n = false) :
    (takeGrip n s).lever n = s.lever n ∨ (takeGrip n s).lever n = (s.lever n).refuse := by
  cases hl : (s.lever n).loaded with
  | false => exact .inl (by rw [takeGrip_ignored (.inl hl)])
  | true =>
    cases hs : s.service.state with
    | powerUp => exact .inl (by simp [takeGrip, hs])
    | configure => exact .inl (by rw [takeGrip_ignored (.inr hs)])
    | switchedOut => exact .inr (takeGrip_switchedOut hl hs)
    | inService =>
      rw [takeGrip_inService hl hs]
      exact gripInService_of_test_fails ht

/-- The whole step of a grip, with the taking of its event, turns no lock on where the freedom test fails. -/
theorem leverStep_takeGrip_lock (ht : s.freedomTest n = false) :
    ((leverStep n .grip (takeGrip n) s).lever n).lock = (s.lever n).lock := by
  obtain h | ⟨rest, h | h⟩ := leverStep_cases n .grip (takeGrip n) s <;> rw [h]
  · rfl
  · obtain h | h := takeGrip_of_test_fails ((setInbox_frame_freedomTest s rest n).trans ht) <;> rw [h] <;> rfl

/-- A working box refuses a loaded lever that asks for freedom and fails its test. -/
theorem takeGrip_refuses (ht : s.freedomTest n = false) (hl : (s.lever n).loaded = true)
    (hs : s.service.state = .inService ∨ s.service.state = .switchedOut) (ha : (s.lever n).asksFreedom) :
    (takeGrip n s).lever n = (s.lever n).refuse := by
  obtain hs | hs := hs
  · rw [takeGrip_inService hl hs, gripInService_asks ha, if_neg (by simp [ht])]
  · exact takeGrip_switchedOut hl hs

/-- With the other lever of an unconditional entry free or away, a lever fails its freedom test. -/
theorem freedomTest_of_conflict {e : LockEntry} {z₁ z₂ : Lever} (he : e ∈ s.locking) (hc : e.conds = [])
    (hz : (e.x.lever = z₁ ∧ e.y.lever = z₂) ∨ (e.x.lever = z₂ ∧ e.y.lever = z₁))
    (hp : (s.lever z₁).pos ∈ [LeverPos.nFree, .rFree, .travel, .backlocked, .fault]) : s.freedomTest z₂ = false := by
  have h₁ : s.trial z₂ z₁ = none := State.trial_of_unlocked hp
  have h₂ : s.trial z₂ z₂ = none := s.trial_self z₂
  have hv : e.violated (s.trial z₂) = true := by
    obtain ⟨hx, hy⟩ | ⟨hx, hy⟩ := hz
    · exact LockEntry.violated_of_away hc (hx ▸ h₁) (hy ▸ h₂)
    · exact LockEntry.violated_of_away hc (hx ▸ h₂) (hy ▸ h₁)
  rw [← Bool.not_eq_true]
  intro ht
  have hok := (s.tableTest_iff z₂).1 (State.tableTest_of_freedomTest ht) e he
  rw [hv] at hok
  cases hok

end

/-- Settles O17: both levers count as away in the trial state of the second, so the entry is violated there, and a grip
at which the freedom test fails turns no lock on. -/
theorem conflictingLeversNeverBothFreed : Obligations.ConflictingLeversNeverBothFreed := by
  intro s e z₁ z₂ hne he hc hz hp hk
  have ht : s.freedomTest z₂ = false := freedomTest_of_conflict he hc hz hp
  refine ⟨_, rfl, ?_, ?_, fun hw hl hs hpos => ?_⟩
  · rw [commit_lever, leverStep_takeGrip_lock ht, hk]
  · exact exec_lever (c := .grip z₂) (by simp) rfl (by simp [writes, hne])
  · have hv : s.service.state ≠ .powerUp := fun h => by simp [h] at hs
    obtain ⟨rest, hr⟩ := leverStep_of_waits (takeGrip z₂) hw hv
    rw [commit_lever, hr]
    exact takeGrip_refuses ht hl hs (asksFreedom_of_lock_off hpos hk)

end Sys2Proof.Machine

section
/-! ### The bounds of the Track unit, the register and the link -/

namespace Sys2Proof.Machine

/-! #### The Track unit (R51, R61, R66, R68) -/

/-- The generator has no zero step: its state 0 is reached from 0 only (R51). -/
theorem stepGenerator_ne_zero : ∀ {g : BitVec 7}, g ≠ 0 → stepGenerator g ≠ 0 := by decide

theorem advanceReversal_ne_zero {g : BitVec 7} (h : g ≠ 0) (count reverse : Nat) :
    (advanceReversal g count reverse).1 ≠ 0 := by
  unfold advanceReversal
  split
  · exact stepGenerator_ne_zero h
  · exact h

/-- What `State.trackOk` asks of one circuit. -/
def CircuitData.bounded (k : CircuitData) : Prop :=
  k.q ≤ Config.maxReference ∧ (∀ r, k.live = some r → r.refOk) ∧
    k.low ≤ Config.maxCount ∧ k.high ≤ Config.maxCount ∧ k.reverse ≤ Config.maxCount

theorem trackOk_iff (s : State) :
    s.trackOk ↔ s.track.gen ≠ 0 ∧ (∀ o ∈ s.track.ops, o.refOk) ∧ ∀ t : Circuit, (s.circuit t).bounded :=
  Iff.rfl

/-- A step that changes the circuits, and neither the generator nor what waits. -/
theorem State.trackOk_of_circuits {s t : State} (h : s.trackOk) (hg : t.track.gen = s.track.gen)
    (ho : t.track.ops = s.track.ops) (hc : ∀ c : Circuit, (t.circuit c).bounded) : t.trackOk :=
  (trackOk_iff t).2 ⟨hg ▸ h.1, ho ▸ h.2.1, hc⟩

/-- The fields a circuit's bounds speak of. -/
theorem CircuitData.bounded_congr {k k' : CircuitData} (h : k.bounded) (hq : k'.q = k.q) (hl : k'.live = k.live)
    (h1 : k'.low = k.low) (h2 : k'.high = k.high) (h3 : k'.reverse = k.reverse) : k'.bounded := by
  unfold CircuitData.bounded
  rw [hq, hl, h1, h2, h3]
  exact h

theorem CircuitData.enter_bounded {k : CircuitData} (h : k.bounded) (st : TrackState) : (k.enter st).bounded :=
  ⟨h.1, h.2.1, Nat.zero_le _, Nat.zero_le _, Nat.zero_le _⟩

theorem raise_le {n : Nat} (h : n ≤ Config.maxCount) : raise n ≤ Config.maxCount := by
  unfold raise
  split <;> omega

theorem CircuitData.counted_bounded {k : CircuitData} (h : k.bounded) (v : Verdict) : (k.counted v).bounded := by
  obtain ⟨hq, hl, h1, h2, h3⟩ := h
  cases v with
  | reverse => exact ⟨hq, hl, raise_le h1, Nat.zero_le _, raise_le h3⟩
  | low => exact ⟨hq, hl, raise_le h1, Nat.zero_le _, Nat.zero_le _⟩
  | high => exact ⟨hq, hl, Nat.zero_le _, raise_le h2, Nat.zero_le _⟩
  | hold => exact ⟨hq, hl, Nat.zero_le _, Nat.zero_le _, Nat.zero_le _⟩

theorem CircuitData.decided_bounded {k : CircuitData} (h : k.bounded) (r : TcRecord) : (k.decided r).bounded := by
  unfold CircuitData.decided
  split
  · exact enter_bounded h _
  · split
    · exact enter_bounded h _
    · split
      · exact enter_bounded h _
      · exact h

/-- A number clamped is the nearest of its range. -/
theorem clampInt_eq {lo hi i : Int} (h : lo ≤ hi) : clampInt lo hi i = max lo (min hi i) := by
  unfold clampInt
  split
  · omega
  · split <;> omega

theorem trackedReference_eq (q : Nat) (p : Int) (track : Nat) : (trackedReference q p track : Int) =
    max 0 (min 40000 ((q : Int) + (p * 16 - (q : Int)).tdiv ((2 ^ track : Nat) : Int))) := by
  unfold trackedReference
  rw [clampInt_eq (by decide), show (Config.maxReference : Int) = 40000 from rfl]
  omega

theorem trackedReference_le (q : Nat) (p : Int) (track : Nat) : trackedReference q p track ≤ Config.maxReference := by
  have h := trackedReference_eq q p track
  show _ ≤ 40000
  omega

theorem CircuitData.tracked_bounded {k : CircuitData} (h : k.bounded) (p : Int) (track : Nat) :
    CircuitData.bounded { k with q := trackedReference k.q p track } :=
  ⟨trackedReference_le _ _ _, h.2⟩

theorem CircuitData.trackedInClear_bounded {k : CircuitData} (h : k.bounded) (r : TcRecord) (p : Int) (track : Nat) :
    (k.trackedInClear r p track).bounded := by
  simp only [CircuitData.trackedInClear]
  split
  · exact enter_bounded (tracked_bounded h p track) _
  · exact tracked_bounded h p track

theorem CircuitData.trackedInLowRef_bounded {k : CircuitData} (h : k.bounded) (r : TcRecord) (p : Int) (track : Nat) :
    (k.trackedInLowRef r p track).bounded := by
  simp only [CircuitData.trackedInLowRef]
  split
  · exact enter_bounded (tracked_bounded h p track) _
  · exact tracked_bounded h p track

theorem CircuitData.judged_bounded {k : CircuitData} (h : k.bounded) (r : TcRecord) (m : Measurement) (track : Nat) :
    (k.judged r m track).bounded := by
  simp only [CircuitData.judged]
  split
  · exact trackedInClear_bounded (decided_bounded (counted_bounded h _) r) r _ _
  · exact decided_bounded (counted_bounded h _) r

theorem CircuitData.proofTested_bounded {k : CircuitData} (h : k.bounded) (r : TcRecord) (m : Measurement) :
    (k.proofTested r m).bounded := by
  unfold CircuitData.proofTested
  split
  · exact h
  · split
    · exact enter_bounded h _
    · exact h

/-- Whatever a measurement does, the circuit stays within its bounds. -/
theorem CircuitData.handled_bounded {k : CircuitData} (h : k.bounded) (r : TcRecord) (m : Measurement) (track : Nat) :
    (k.handled r m track).bounded := by
  unfold CircuitData.handled
  split
  · exact proofTested_bounded h r m
  · split
    · exact h
    · split
      · exact judged_bounded h r m track
      · exact judged_bounded h r m track
      · split
        · exact h
        · exact trackedInLowRef_bounded h r _ _
      all_goals exact h

/-! The requests of a frame start. -/

theorem TcRecord.setAll_refOk {r : TcRecord} {vals : List (TcField × Nat)} (h : r.refOk)
    (hv : ∀ e ∈ vals, e.1 = .ref → e.2 ≤ 2500) : (r.setAll vals).refOk := by
  induction vals generalizing r with
  | nil => exact h
  | cons e vals ih =>
    obtain ⟨f, v⟩ := e
    refine ih ?_ fun e he => hv e (List.mem_cons_of_mem _ he)
    have hf := hv (f, v) (by simp)
    cases f with
    | ref => exact hf rfl
    | _ => exact h

theorem refOk_reference {r : TcRecord} (h : r.refOk) : r.ref * 16 ≤ Config.maxReference := by
  unfold TcRecord.refOk at h
  show _ ≤ 40000
  omega

theorem CircuitData.takeRecord_bounded (k : CircuitData) {r : TcRecord} (h : r.refOk) : (k.takeRecord r).bounded :=
  ⟨refOk_reference h, fun _ hr => Option.some.inj hr ▸ h, Nat.zero_le _, Nat.zero_le _, Nat.zero_le _⟩

theorem CircuitData.disable_bounded {k : CircuitData} (h : k.bounded) : k.disable.bounded :=
  ⟨h.1, by simp [disable], Nat.zero_le _, Nat.zero_le _, Nat.zero_le _⟩

theorem CircuitData.takeTune_bounded {k : CircuitData} {vals : List (TcField × Nat)} (h : k.bounded)
    (hv : ∀ e ∈ vals, e.1 = .ref → e.2 ≤ 2500) : (k.takeTune vals).bounded := by
  unfold CircuitData.takeTune
  split
  · exact h
  · rename_i r hr
    have hok : (r.setAll vals).refOk := TcRecord.setAll_refOk (h.2.1 r hr) hv
    have hlive : ∀ r', some (r.setAll vals) = some r' → r'.refOk := fun r' he => Option.some.inj he ▸ hok
    split
    · exact ⟨refOk_reference hok, hlive, Nat.zero_le _, Nat.zero_le _, Nat.zero_le _⟩
    · exact ⟨h.1, hlive, h.2.2⟩

theorem CircuitData.takeClear_bounded {k : CircuitData} (h : k.bounded) : k.takeClear.bounded := by
  unfold CircuitData.takeClear
  split
  · exact enter_bounded h _
  · exact enter_bounded h _
  · exact h

/-- What a request that takes effect at a frame start makes of circuit `c` (R47, R57, R72). -/
def TrackOp.onCircuit (c : Circuit) (k : CircuitData) : TrackOp → CircuitData
  | .load t r => if t = c then k.takeRecord r else k
  | .erase => k.disable
  | .tune t vals => if t = c then k.takeTune vals else k
  | .clear t => if t = c then k.takeClear else k

/-- A circuit among circuits of which one is replaced. -/
theorem getElem_set_circuit (v : Vector CircuitData 20) (t c : Circuit) (k : CircuitData) :
    (v.set t.val k)[c] = if t = c then k else v[c] := by
  simp only [Fin.getElem_fin, Vector.getElem_set, Fin.val_inj]

theorem apply_circuit (w : StartWork) (o : TrackOp) (c : Circuit) :
    (w.apply o).circuits[c] = o.onCircuit c w.circuits[c] := by
  cases o with
  | erase => simp [StartWork.apply, TrackOp.onCircuit]
  | load t r =>
    simp only [StartWork.apply, TrackOp.onCircuit, getElem_set_circuit]
    split <;> simp_all
  | tune t vals =>
    simp only [StartWork.apply, TrackOp.onCircuit, getElem_set_circuit]
    split <;> simp_all
  | clear t =>
    simp only [StartWork.apply, TrackOp.onCircuit, getElem_set_circuit]
    split <;> simp_all

theorem TrackOp.onCircuit_bounded {k : CircuitData} (h : k.bounded) {o : TrackOp} (ho : o.refOk) (c : Circuit) :
    (o.onCircuit c k).bounded := by
  cases o with
  | erase => exact k.disable_bounded h
  | load t r =>
    simp only [TrackOp.onCircuit]
    split
    · exact k.takeRecord_bounded ho
    · exact h
  | tune t vals =>
    simp only [TrackOp.onCircuit]
    split
    · exact k.takeTune_bounded h ho
    · exact h
  | clear t =>
    simp only [TrackOp.onCircuit]
    split
    · exact k.takeClear_bounded h
    · exact h

theorem applyAll_bounded {w : StartWork} {os : List TrackOp} (hw : ∀ c : Circuit, w.circuits[c].bounded)
    (ho : ∀ o ∈ os, o.refOk) (c : Circuit) : ((w.applyAll os).circuits[c]).bounded := by
  induction os generalizing w with
  | nil => exact hw c
  | cons o os ih =>
    refine ih (fun d => ?_) fun p hp => ho p (List.mem_cons_of_mem _ hp)
    rw [apply_circuit]
    exact TrackOp.onCircuit_bounded (hw d) (ho o (by simp)) d

theorem setFeed_bounded {w : StartWork} {c : Circuit} (h : w.circuits[c].bounded) (g : BitVec 7)
    (proof : Option Circuit) : (setFeed w g proof c).bounded := by
  obtain ⟨p, f, ms, hk⟩ := setFeed_eq w g proof c
  rw [hk]
  exact CircuitData.bounded_congr h rfl rfl rfl rfl rfl

theorem startFrame_trackOk {s : State} (h : s.trackOk) (s₁ : State) : (startFrame s s₁).trackOk := by
  obtain ⟨hg, ho, hc⟩ := (trackOk_iff s).1 h
  refine (trackOk_iff _).2 ⟨advanceReversal_ne_zero hg _ _, nofun, fun c => ?_⟩
  have hw : ((startWork s.track).applyAll s.track.ops).circuits[c].bounded := applyAll_bounded (w := startWork s.track) hc ho c
  show (Vector.ofFn fun t => setFeed _ _ _ t)[c].bounded
  rw [Fin.getElem_fin, Vector.getElem_ofFn]
  exact setFeed_bounded hw _ _

theorem completeMeasurement_trackOk {s : State} (h : s.trackOk) (samples : List Sample) :
    (completeMeasurement samples s).trackOk := by
  simp only [completeMeasurement]
  split
  · exact h
  · split
    · exact h
    · split
      · have hc := ((trackOk_iff s).1 h).2.2
        refine State.trackOk_of_circuits h rfl rfl fun c => ?_
        simp only [State.circuit, State.enterAll_track, State.setTrack_track, getElem_set_circuit]
        split
        · exact CircuitData.bounded_congr (CircuitData.handled_bounded (hc _) _ _ _) rfl rfl rfl rfl rfl
        · exact hc c
      · exact h

theorem scanFrameComplete_trackOk {s : State} (h : s.trackOk) : (scanFrameComplete s).trackOk := by
  unfold scanFrameComplete
  split
  · have hc := ((trackOk_iff s).1 h).2.2
    refine State.trackOk_of_circuits h (by rw [State.setTrack_track]) (by rw [State.setTrack_track]) fun c => ?_
    have hp : (publish s.track c).bounded := CircuitData.bounded_congr (hc c) rfl rfl rfl rfl rfl
    simpa only [State.circuit, State.setTrack_track, Fin.getElem_fin, Vector.getElem_ofFn] using hp
  · exact h

end Sys2Proof.Machine
end

section
/-! ### The register and the link within their bounds, and every step -/

namespace Sys2Proof.Machine

/-! #### The register (R127, R129) -/

theorem numberedFrom_append {q : Seq} {es : List RegEntry} (h : numberedFrom q es) {e : RegEntry}
    (he : e.seq = q + BitVec.ofNat 16 es.length) : numberedFrom q (es ++ [e]) := by
  induction es generalizing q with
  | nil => exact ⟨by simpa using he, trivial⟩
  | cons d es ih =>
    obtain ⟨hd, hes⟩ := h
    refine ⟨hd, ih hes ?_⟩
    rw [he, List.length_cons, BitVec.add_assoc]
    congr 1
    rw [BitVec.add_comm]
    exact BitVec.ofNat_add ..

/-- An entry displaced from the front of the ring takes its number with it. -/
theorem numberedFrom_drop {q : Seq} {es : List RegEntry} (h : numberedFrom q es) (hne : es ≠ []) :
    numberedFrom (q + 1) (es.drop 1) := by
  cases es with
  | nil => exact absurd rfl hne
  | cons d es => exact h.2

theorem appendRing_ok {r : Register} (h : r.ok) {e : RegEntry} (he : e.seq = r.next) :
    Register.ok { r with ring := (appendRing r.ring e).1, next := r.next + 1 } := by
  obtain ⟨hlen, hnum, hclock⟩ := h
  unfold appendRing
  split
  · rename_i hlt
    refine ⟨by simpa using hlt, ?_, hclock⟩
    have hq : r.next + 1 - BitVec.ofNat 16 (r.ring ++ [e]).length = r.next - BitVec.ofNat 16 r.ring.length := by
      rw [List.length_append, List.length_singleton, BitVec.ofNat_add]
      bv_omega
    show numberedFrom (r.next + 1 - BitVec.ofNat 16 (r.ring ++ [e]).length) (r.ring ++ [e])
    rw [hq]
    exact numberedFrom_append hnum (by rw [he]; bv_omega)
  · rename_i hge
    have hfull : r.ring.length = 256 := le_antisymm hlen (not_lt.1 hge)
    have hdrop : (r.ring.drop 1 ++ [e]).length = 256 := by simp [hfull]
    refine ⟨le_of_eq hdrop, ?_, hclock⟩
    rw [hfull] at hnum
    show numberedFrom (r.next + 1 - BitVec.ofNat 16 (r.ring.drop 1 ++ [e]).length) (r.ring.drop 1 ++ [e])
    rw [hdrop]
    have hq : r.next + 1 - BitVec.ofNat 16 256 = r.next - BitVec.ofNat 16 256 + 1 := by bv_omega
    rw [hq]
    refine numberedFrom_append (numberedFrom_drop hnum (by intro hn; simp [hn] at hfull)) ?_
    rw [he, List.length_drop, hfull]
    bv_omega

theorem ClockTime.tick_ok {c : ClockTime} (hd : c.day < 65536) :
    c.tick.tenths < Config.tenthsPerDay ∧ c.tick.day < 65536 := by
  unfold ClockTime.tick
  split
  · exact ⟨‹_›, hd⟩
  · exact ⟨Nat.succ_pos _, Nat.mod_lt _ (Nat.succ_pos _)⟩

/-! #### The link (R145, R146, R155, R156) -/

section
variable {k : Link}

theorem Link.answer_ok (h : k.ok) (ws held : List Text) : Link.ok { k.answer ws with heldWords := held } := by
  obtain ⟨hlen, htally, howed, hrest⟩ := h
  refine ⟨?_, fun w hw => htally w (List.mem_of_mem_drop hw), ?_, hrest⟩
  · show (k.queue.drop 1).length ≤ _
    rw [List.length_drop]
    omega
  · show k.frontTally ≤ _
    unfold Link.frontTally
    split
    · exact Nat.zero_le _
    · rename_i w ws hq
      exact htally w (by simp [hq])

theorem Link.addItems_ok (h : k.ok) (is : List Item) :
    Link.ok { k with reports := addItems k.classes k.reports is } := by
  obtain ⟨hlen, htally, howed, hb, hline, hcount, hnd, hcls, hmark⟩ := h
  refine ⟨hlen, htally, howed, hb, hline, hcount, nodup_addItems _ _ hnd, fun i hi => ?_, hmark⟩
  obtain hi | ⟨-, hi⟩ := (mem_addItems _ _ _ _).1 hi
  · exact hcls i hi
  · exact hi

theorem markAfter_isSome (mark : Option Seq) (e : Option RegEntry) : (markAfter mark e).isSome = mark.isSome := by
  unfold markAfter
  split
  · split <;> rfl
  · rfl

theorem Link.mark_ok (h : k.ok) {m : Option Seq} (hm : m.isSome = k.mark.isSome) : Link.ok { k with mark := m } := by
  obtain ⟨hlen, htally, howed, hb, hline, hcount, hnd, hcls, hmark⟩ := h
  exact ⟨hlen, htally, howed, hb, hline, hcount, hnd, hcls, by rw [← hmark, ← hm]⟩

theorem raiseTally_length (ws : List Waiting) : (raiseTally ws).length = ws.length := by
  fun_induction raiseTally ws <;> simp_all

theorem raiseTally_le {ws : List Waiting} (h : ∀ w ∈ ws, w.tally ≤ Config.maxTally) :
    ∀ w ∈ raiseTally ws, w.tally ≤ Config.maxTally := by
  fun_induction raiseTally ws with
  | case1 => exact nofun
  | case2 w => simp
  | case3 w ws hne ih => simpa [h w (by simp)] using ih fun v hv => h v (by simp [hv])

theorem Link.finishLine_ok (h : k.ok) : k.finishLine.ok := by
  have hk := h
  obtain ⟨hlen, htally, howed, hb, hline, hcount, hrest⟩ := h
  unfold Link.finishLine
  split
  · exact hk
  · split
    · exact ⟨by rw [raiseTally_length]; exact hlen, raiseTally_le htally, howed, Nat.zero_le _, Nat.zero_le _,
        Nat.zero_le _, hrest⟩
    · refine ⟨?_, fun w hw => ?_, howed, Nat.zero_le _, Nat.zero_le _, Nat.zero_le _, hrest⟩
      · rw [List.length_append, List.length_singleton]
        omega
      · obtain hw | hw := List.mem_append.1 hw
        · exact htally w hw
        · rw [List.mem_singleton.1 hw]
          exact Nat.zero_le _

theorem Link.addChar_ok (h : k.ok) (c : Option Char) : (k.addChar c).ok := by
  obtain ⟨hlen, htally, howed, hb, hline, hcount, hrest⟩ := h
  unfold Link.addChar
  split
  · exact ⟨hlen, htally, howed, Nat.zero_le _, Nat.zero_le _, le_refl _, hrest⟩
  · cases c with
    | none => exact ⟨hlen, htally, howed, by dsimp only; omega, hline, by dsimp only; omega, hrest⟩
    | some ch =>
      have hl : (k.building ++ [ch]).length = k.building.length + 1 := by simp
      exact ⟨hlen, htally, howed, by dsimp only; omega, by dsimp only; omega, by dsimp only; omega, hrest⟩

theorem Link.receive_ok (h : k.ok) (ch : RxChar) : (k.receive ch).ok := by
  cases ch with
  | framingError => exact addChar_ok h none
  | byte b =>
    simp only [Link.receive]
    split
    · exact h
    · split
      · exact finishLine_ok h
      · exact addChar_ok h _

end

/-! #### The bounds together -/

/-- The bounds that every step keeps. -/
def State.boundsOk (s : State) : Prop :=
  s.trackOk ∧ s.register.ok ∧ s.link.ok

/-- The parts the bounds of the register and the link speak of. -/
def registerParts : List Part :=
  [.ring, .clock, .rx, .queue, .replySlot, .classes, .mark, .reports]

section
variable {s t : State}

theorem State.trackOk_congr (h : s.trackOk) (ht : t.track = s.track) : t.trackOk := by
  unfold State.trackOk State.circuit
  rw [ht]
  exact h

theorem Register.ok_congr {r r' : Register} (h : r.ok) (h1 : r'.ring = r.ring ∧ r'.next = r.next)
    (h2 : r'.clock = r.clock) : r'.ok := by
  unfold Register.ok
  rw [h1.1, h1.2, h2]
  exact h

theorem Link.ok_congr {k k' : Link} (h : k.ok) (hb : k'.building = k.building) (hc : k'.count = k.count)
    (hq : k'.queue = k.queue) (ho : k'.owed = k.owed) (hcl : k'.classes = k.classes) (hm : k'.mark = k.mark)
    (hr : k'.reports = k.reports) : k'.ok := by
  unfold Link.ok
  rw [hb, hc, hq, ho, hcl, hm, hr]
  exact h

/-- A command's own part that writes nothing of the register and of the link's bounded parts keeps their bounds. -/
theorem Leaves.registerOk {ps : List Part} (h : Leaves ps s t) (hd : ∀ p ∈ registerParts, p ∉ ps)
    (hs : s.register.ok ∧ s.link.ok) : t.register.ok ∧ t.link.ok := by
  have hk : ∀ p ∈ registerParts, p.same ps s t := fun p hp => h p (hd p hp)
  have hrx : t.link.building = s.link.building ∧ t.link.count = s.link.count ∧ _ := hk .rx (by simp [registerParts])
  have hslot : _ ∧ t.link.owed = s.link.owed ∧ _ := hk .replySlot (by simp [registerParts])
  constructor
  · exact Register.ok_congr hs.1 (hk .ring (by simp [registerParts])) (hk .clock (by simp [registerParts]))
  · exact Link.ok_congr hs.2 hrx.1 hrx.2.1 (hk .queue (by simp [registerParts])) hslot.2.1
      (hk .classes (by simp [registerParts])) (hk .mark (by simp [registerParts])) (hk .reports (by simp [registerParts]))

/-- One that writes nothing of the Track unit either keeps every bound. -/
theorem Leaves.boundsOk {ps : List Part} (h : Leaves ps s t) (hd : ∀ p ∈ .track :: registerParts, p ∉ ps)
    (hs : s.boundsOk) : t.boundsOk :=
  ⟨State.trackOk_congr hs.1 (h .track (hd .track (by simp))),
    h.registerOk (fun p hp => hd p (List.mem_cons_of_mem _ hp)) hs.2⟩

/-- One that writes the Track unit only. -/
theorem Leaves.boundsOk_of_track (h : Leaves [.track] s t) (ht : t.trackOk) (hs : s.boundsOk) : t.boundsOk :=
  ⟨ht, h.registerOk (by simp [registerParts]) hs.2⟩

theorem State.report_boundsOk (h : s.boundsOk) (is : List Item) : (s.report is).boundsOk :=
  ⟨h.1, h.2.1, Link.addItems_ok h.2.2 is⟩

theorem State.boundsOk.setService (h : s.boundsOk) (v : ServiceUnit) : (s.setService v).boundsOk := h

theorem State.boundsOk.enter (h : s.boundsOk) (u : RegUnit) (e : RegBody) : (s.enter u e).boundsOk := h

/-- The end of a step only adds to the pending set. -/
theorem commit_boundsOk (s : State) (h : t.boundsOk) : (commit s t).boundsOk :=
  ⟨h.1, h.2.1, Link.addItems_ok h.2.2 _⟩

theorem reply_boundsOk (h : s.boundsOk) (ws : List Text) : (reply ws s).boundsOk :=
  ⟨h.1, h.2.1, Link.answer_ok h.2.2 ws []⟩

theorem append_boundsOk (h : s.boundsOk) (body : RegBody) : (append body s).boundsOk :=
  ⟨h.1, appendRing_ok h.2.1 rfl, Link.mark_ok h.2.2 (markAfter_isSome _ _)⟩

/-- A request keeps the bounds where its accepted handling does. -/
theorem requestStep_boundsOk {row : Instr} {accept : ServiceState → Bool} {f : Handler} (h : s.boundsOk)
    (hf : ∀ ws t r, f ws s = .ok (t, r) → t.boundsOk) : (requestStep row accept f s).boundsOk :=
  requestStep_keeps h (fun ws t r _ _ => hf ws t r) fun ws _ ht => reply_boundsOk ht ws

theorem answering_boundsOk {f : List Text → State → Parsed (List Text)} (h : s.boundsOk) :
    ∀ ws t r, answering f ws s = .ok (t, r) → t.boundsOk :=
  fun _ _ _ hf => answering_ok hf ▸ h

/-! #### What the requests write -/

theorem clampField_ref_le (drop n : Nat) : clampField drop .ref n ≤ 2500 := by
  rw [clampField, clampNat_eq (by decide)]
  omega

theorem loadTc_boundsOk (h : s.boundsOk) (c : Circuit) {r : TcRecord} (hr : r.refOk) : (loadTc c r s).boundsOk := by
  obtain ⟨hg, ho, hc⟩ := (trackOk_iff s).1 h.1
  refine (loadTc_leaves s c r).boundsOk_of_track ((trackOk_iff _).2 ⟨hg, fun o hm => ?_, fun d => ?_⟩) h
  · obtain hm | hm := List.mem_append.1 hm
    · exact ho o (List.mem_of_mem_filter hm)
    · rw [List.mem_singleton.1 hm]
      exact hr
  · simp only [loadTc, State.circuit, State.setTrack_track, getElem_set_circuit]
    split
    · exact CircuitData.bounded_congr (hc _) rfl rfl rfl rfl rfl
    · exact hc d

theorem handleTc_boundsOk (h : s.boundsOk) (ws : List Text) (t : State) (r : List Text)
    (hf : handleTc ws s = .ok (t, r)) : t.boundsOk := by
  simp only [handleTc, parsed_bind_ok, parsed_pure_ok] at hf
  obtain ⟨c, -, vals, -, hf⟩ := hf
  cases hf
  exact loadTc_boundsOk h c (clampField_ref_le 0 _)

theorem eraseCircuits_boundsOk (h : s.boundsOk) : (eraseCircuits s).boundsOk := by
  obtain ⟨hg, ho, hc⟩ := (trackOk_iff s).1 h.1
  refine (eraseCircuits_leaves s).boundsOk_of_track ((trackOk_iff _).2 ⟨?_, fun o hm => ?_, fun d => ?_⟩) h
  · simpa only [eraseCircuits, State.setTrack_track] using hg
  · simp only [eraseCircuits, State.setTrack_track] at hm
    obtain hm | hm := List.mem_append.1 hm
    · exact ho o (List.mem_of_mem_filter hm)
    · rw [List.mem_singleton.1 hm]
      trivial
  · rw [eraseCircuits_circuit]
    exact CircuitData.bounded_congr (hc d) rfl rfl rfl rfl rfl

theorem tuneValues_refOk (r : TcRecord) (vals : List (TcField × Nat)) :
    ∀ e ∈ tuneValues r vals, e.1 = .ref → e.2 ≤ 2500 := by
  intro e he hf
  rw [tuneValues_eq] at he
  obtain he | he := List.mem_append.1 he
  · obtain ⟨⟨f, v⟩, -, rfl⟩ := List.mem_map.1 he
    obtain rfl : f = .ref := hf
    exact clampField_ref_le (dropAfter r vals) v
  · split at he
    · rw [List.mem_singleton.1 he] at hf
      cases hf
    · cases he

theorem tuneCircuit_boundsOk (h : s.boundsOk) (c : Circuit) (r : TcRecord) (vals : List (TcField × Nat)) :
    (tuneCircuit c r vals s).boundsOk := by
  obtain ⟨hg, ho, hc⟩ := (trackOk_iff s).1 h.1
  refine (tuneCircuit_leaves s c r vals).boundsOk_of_track ((trackOk_iff _).2 ⟨hg, fun o hm => ?_, fun d => ?_⟩) h
  · rw [tuneCircuit_ops] at hm
    obtain hm | hm := List.mem_append.1 hm
    · exact ho o hm
    · rw [List.mem_singleton.1 hm]
      exact tuneValues_refOk r vals
  · rw [tuneCircuit_circuit]
    split
    · exact CircuitData.bounded_congr (hc _) rfl rfl rfl rfl rfl
    · exact hc d

theorem tuneMembers_boundsOk (vals : List (TcField × Nat)) (ts : List Circuit) (h : s.boundsOk) :
    (tuneMembers vals ts s).boundsOk := by
  induction ts generalizing s with
  | nil => exact h
  | cons c ts ih =>
    simp only [tuneMembers]
    split
    · exact ih (tuneCircuit_boundsOk h c _ vals)
    · exact ih h

theorem clearCircuit_boundsOk (h : s.boundsOk) (c : Circuit) : (clearCircuit c s).boundsOk := by
  obtain ⟨hg, ho, hc⟩ := (trackOk_iff s).1 h.1
  refine (clearCircuit_leaves s c).boundsOk_of_track ((trackOk_iff _).2 ⟨hg, fun o hm => ?_, hc⟩) h
  obtain hm | hm := List.mem_append.1 hm
  · exact ho o hm
  · rw [List.mem_singleton.1 hm]
    trivial

theorem setClasses_boundsOk (h : s.boundsOk) (k : Classes) : (setClasses k s).boundsOk := by
  obtain ⟨htrack, hreg, hlen, htally, howed, hb, hline, hcount, hnd, hcls, hmark⟩ := h
  refine ⟨htrack, hreg, hlen, htally, howed, hb, hline, hcount, hnd.filter _, fun i hi => ?_, ?_⟩
  · exact (List.mem_filter.1 hi).2
  · show (markOnNotify s.link.classes.reg k.reg s.link.mark s.register.next).isSome = true ↔ k.reg = true
    unfold markOnNotify
    split
    · split <;> simp_all
    · simp_all

theorem readTimeOfDay_lt {pos n : Nat} {w : Text} (h : readTimeOfDay pos w = .ok n) : n < Config.tenthsPerDay := by
  unfold readTimeOfDay at h
  split at h
  · split at h
    · cases h
      show _ < 864000
      omega
    · cases h
  · cases h

theorem numberIn_le {lo hi pos n : Nat} {w : Text} (h : numberIn lo hi pos w = .ok n) : n ≤ hi := by
  unfold numberIn at h
  split at h
  · split at h
    · cases h
      omega
    · cases h
  · cases h

theorem handleClock_boundsOk (h : s.boundsOk) (ws : List Text) (t : State) (r : List Text)
    (hf : handleClock ws s = .ok (t, r)) : t.boundsOk := by
  simp only [handleClock, parsed_bind_ok, parsed_pure_ok] at hf
  obtain ⟨w, -, n, hn, v, -, d, hd, -, -, hf⟩ := hf
  cases hf
  obtain ⟨htrack, ⟨hlen, hnum, -⟩, hlink⟩ := h
  have hset : (s.setRegister { s.register with clock := ⟨d, n, false⟩ }).boundsOk :=
    ⟨htrack, ⟨hlen, hnum, readTimeOfDay_lt hn, Nat.lt_succ_of_le (numberIn_le hd)⟩, hlink⟩
  exact append_boundsOk hset _

/-! #### Every command -/

theorem busyReply_boundsOk (h : s.boundsOk) : (busyReply s).boundsOk := by
  obtain ⟨htrack, hreg, hlen, htally, howed, hrest⟩ := h
  unfold busyReply
  split
  · exact ⟨htrack, hreg, hlen, htally, (Nat.sub_le _ _).trans howed, hrest⟩
  · exact ⟨htrack, hreg, hlen, htally, howed, hrest⟩

/-- The transmitter takes an item out of the pending set, or moves the mark on while REG is notified. -/
theorem chooseLine_boundsOk (h : s.boundsOk) : (chooseLine s).boundsOk := by
  have hs := h
  obtain ⟨htrack, hreg, hlen, htally, howed, hb, hline, hcount, hnd, hcls, hmark⟩ := h
  unfold chooseLine
  split
  · exact hs
  · split
    · rename_i e he
      have hon : s.link.classes.reg = true := by
        unfold State.entryAtMark at he
        split at he
        · assumption
        · cases he
      exact ⟨htrack, hreg, Link.mark_ok hs.2.2 (m := some (e.seq + 1)) (by simp [hmark.2 hon])⟩
    · split
      · exact hs
      · rename_i i rest hr
        rw [hr] at hnd hcls
        exact ⟨htrack, hreg, hlen, htally, howed, hb, hline, hcount, hnd.of_cons,
          fun j hj => hcls j (List.mem_cons_of_mem i hj), hmark⟩

theorem lineSent_boundsOk (h : s.boundsOk) : (lineSent s).boundsOk := by
  unfold lineSent
  split
  · exact chooseLine_boundsOk h
  · exact h

theorem registerAppend_boundsOk (h : s.boundsOk) (u : RegUnit) : (registerAppend u s).boundsOk := by
  unfold registerAppend
  split
  · exact h
  · exact append_boundsOk (s := s.setInbox _) h _

theorem clockTick_boundsOk (h : s.boundsOk) : (clockTick s).boundsOk := by
  obtain ⟨htrack, ⟨hlen, hnum, hclock⟩, hlink⟩ := h
  unfold clockTick
  split
  · exact ⟨htrack, ⟨hlen, hnum, hclock⟩, hlink⟩
  · exact ⟨htrack, ⟨hlen, hnum, ClockTime.tick_ok hclock.2⟩, hlink⟩

theorem characterReceived_boundsOk (h : s.boundsOk) (ch : RxChar) : (characterReceived ch s).boundsOk := by
  unfold characterReceived
  split
  · exact h
  · exact ⟨h.1, h.2.1, Link.receive_ok h.2.2 ch⟩

theorem faultedLine_boundsOk (h : s.boundsOk) : (faultedLine s).boundsOk := by
  unfold faultedLine
  split
  · exact reply_boundsOk h _
  · exact h

theorem unknownKeyword_boundsOk (h : s.boundsOk) : (unknownKeyword s).boundsOk := by
  unfold unknownKeyword
  split
  · exact reply_boundsOk h _
  · exact h

theorem moreLine_boundsOk (h : s.boundsOk) : (moreLine s).boundsOk := by
  unfold moreLine
  split
  · exact ⟨h.1, h.2.1, Link.answer_ok h.2.2 _ _⟩
  · exact h

theorem moreRequest_boundsOk (h : s.boundsOk) : (moreRequest s).boundsOk := by
  unfold moreRequest
  split
  · split
    · exact reply_boundsOk h _
    · split
      · exact ⟨h.1, h.2.1, Link.answer_ok h.2.2 _ _⟩
      · exact reply_boundsOk h _
  · exact h

/-- A completed code taken by a section writes none of the bounded parts, but may report the section. -/
theorem codeTaken_boundsOk {u : State} {x : Sec} (h : s.boundsOk)
    (hu : u = s ∨ ∃ t k m, Leaves [.section_ x, .lastTrain, .handedCodes] s t ∧ u = t.setMark x k m) : u.boundsOk := by
  obtain rfl | ⟨t, k, m, ht, rfl⟩ := hu
  · exact h
  · have hsec : Leaves [.section_ x, .lastTrain, .handedCodes] s (t.setSection x k) := ht.setSection (by simp)
    exact State.report_boundsOk (hsec.boundsOk (by simp [registerParts]) h) _

theorem enterService_boundsOk (h : s.boundsOk) : (enterService s).boundsOk := by
  have hx : ∀ x {t : State}, t.boundsOk → (startSection x t).boundsOk :=
    fun x t ht => (startSection_own_leaves t x).boundsOk (by simp [registerParts]) ht
  have hl : ∀ ls, { s with levers := ls }.boundsOk :=
    fun ls => (Leaves.levers (ps := everyLever) (Leaves.refl _ s) (by simp)).boundsOk (by simp [registerParts, everyLever]) h
  unfold enterService
  refine hx .c (hx .b (hx .a ?_))
  exact ((State.report_boundsOk (hl _) _).setService _).enter _ _

/-- WITHDRAW closes the loaded sections and cuts the tappers. -/
theorem leaveService_boundsOk (h : s.boundsOk) : (leaveService s).boundsOk := by
  have hx : ∀ x {t : State}, t.boundsOk → (enterLoaded .closed x t).boundsOk :=
    fun x t ht => (enterLoaded_leaves x t .closed).boundsOk (by simp [registerParts]) ht
  have hc : ∀ p {t : State}, t.boundsOk → (cutTapper p t).boundsOk :=
    fun p t ht => (cutTapper_leaves p t).boundsOk (by simp [registerParts]) ht
  exact ((hc .c (hc .b (hc .a (hx .c (hx .b (hx .a h)))))).setService _).enter _ _

/-- The requests of a frame start are ends of steps for the register and the link. -/
theorem handWaiting_registerOk (h : s.register.ok ∧ s.link.ok) : (handWaiting s).register.ok ∧ (handWaiting s).link.ok := by
  unfold handWaiting
  split
  · exact h
  · exact handEach_keeps (fun t => t.register.ok ∧ t.link.ok) (fun t w ht => ⟨ht.1, Link.addItems_ok ht.2 _⟩) _ _ h

theorem scanFrameStart_boundsOk (h : s.boundsOk) : (scanFrameStart s (handWaiting s)).boundsOk := by
  unfold scanFrameStart
  split
  · rename_i hf
    rw [handWaiting, if_pos hf]
    exact h
  · exact ⟨startFrame_trackOk h.1 _,
      (startFrame_leaves s _).registerOk (by simp [registerParts]) (handWaiting_registerOk h.2)⟩

theorem powerUp_boundsOk (held : Bool) (strap : Fin 4) (s : State) : (powerUp held strap s).boundsOk :=
  ⟨State.trackOk_congr reset_trackOk rfl, reset_registerOk⟩

/-- Every command keeps the bounds: those of another unit write none of the bounded parts; the others are the steps and
requests above. -/
theorem exec_boundsOk {c : Instr} (hs : s.boundsOk) (h : exec c s = .next t) : t.boundsOk := by
  have other : Instr.isPlain c = true → (∀ p ∈ .track :: registerParts, p ∉ ownParts c) → t.boundsOk := fun hp hd => by
    obtain ⟨u, hu, hl⟩ := exec_plain c s hp
    cases hu.symm.trans h
    exact commit_boundsOk s (hl.boundsOk hd hs)
  have own : ∀ {u : State}, exec c s = .next (commit s u) → u.boundsOk → t.boundsOk := fun hu hok => by
    cases hu.symm.trans h
    exact commit_boundsOk s hok
  have request : ∀ {row accept f}, exec c s = .next (commit s (requestStep row accept f s)) →
      (∀ ws t r, f ws s = .ok (t, r) → t.boundsOk) → t.boundsOk := fun hu hf => own hu (requestStep_boundsOk hs hf)
  cases c with
  | reset b => cases h; exact powerUp_boundsOk _ _ _
  | restartPowerUp b =>
    cases h
    split
    · exact powerUp_boundsOk _ _ _
    · exact hs
  | resetRelease => cases h; exact hs
  | scanFrameStart => cases h; exact commit_boundsOk _ (scanFrameStart_boundsOk hs)
  | start =>
    cases h
    have hr : (requestStep .start inConfigure handleStart s).boundsOk :=
      requestStep_boundsOk hs fun ws t r hf => handleStart_ok hf ▸ enterService_boundsOk hs
    unfold clearChangesAtStart
    split <;> exact commit_boundsOk s hr
  | measurementComplete samples => 
    exact own rfl ((completeMeasurement_leaves samples s).boundsOk_of_track (completeMeasurement_trackOk hs.1 _) hs)
  | scanFrameComplete => exact own rfl ((scanFrameComplete_leaves s).boundsOk_of_track (scanFrameComplete_trackOk hs.1) hs)
  | outCodeTaken x => exact own rfl (codeTaken_boundsOk hs (outCodeTaken_cases x s))
  | inCodeTaken x => exact own rfl (codeTaken_boundsOk hs (inCodeTaken_cases x s))
  | registerAppend u => exact own rfl (registerAppend_boundsOk hs u)
  | clockTick => exact own rfl (clockTick_boundsOk hs)
  | characterReceived ch => exact own rfl (characterReceived_boundsOk hs ch)
  | faultedLine => exact own rfl (faultedLine_boundsOk hs)
  | busyReply => exact own rfl (busyReply_boundsOk hs)
  | unknownKeyword => exact own rfl (unknownKeyword_boundsOk hs)
  | moreLine => exact own rfl (moreLine_boundsOk hs)
  | lineSent => exact own rfl (lineSent_boundsOk hs)
  | more => exact own rfl (moreRequest_boundsOk hs)
  | notify =>
    exact request rfl fun ws t r hf => by
      obtain ⟨k, rfl⟩ := handleNotify_ok hf
      exact setClasses_boundsOk hs k
  | tc => exact request rfl (handleTc_boundsOk hs)
  | clock => exact request rfl (handleClock_boundsOk hs)
  | eraseTc => exact request rfl fun ws t r hf => handleErase_ok hf ▸ eraseCircuits_boundsOk hs
  | tuneTc =>
    exact request rfl fun ws t r hf => by
      obtain ⟨k, rec_, vals, rfl⟩ := handleTuneTc_ok hf
      exact tuneCircuit_boundsOk hs k _ vals
  | tuneGroup =>
    exact request rfl fun ws t r hf => by
      obtain ⟨vals, ts, rfl⟩ := handleTuneGroup_ok hf
      exact tuneMembers_boundsOk vals ts hs
  | clearTc =>
    exact request rfl fun ws t r hf => by
      obtain ⟨k, rfl⟩ := handleClearTc_ok hf
      exact clearCircuit_boundsOk hs k
  | lev =>
    exact request rfl fun ws t r hf => by
      obtain ⟨n, rec_, rfl⟩ := handleLev_ok hf
      exact (storeLev_leaves s n _).boundsOk (by simp [registerParts, everyLever]) hs
  | lock =>
    exact request rfl fun ws t r hf => by
      obtain ⟨es, rfl⟩ := handleLock_ok hf
      exact hs
  | sec =>
    exact request rfl fun ws t r hf => by
      obtain ⟨x, rec_, rfl⟩ := handleSec_ok hf
      exact (storeSec_leaves s x _).boundsOk (by simp [registerParts, everySection]) hs
  | code =>
    exact request rfl fun ws t r hf => by
      obtain ⟨es, rfl⟩ := handleCode_ok hf
      exact hs
  | lamp =>
    exact request rfl fun ws t r hf => by
      obtain ⟨k, b, rfl⟩ := handleLamp_ok hf
      exact (storeLamp_leaves s k b).boundsOk (by simp [registerParts]) hs
  | times =>
    exact request rfl fun ws t r hf => by
      obtain ⟨v, rfl⟩ := handleTimes_ok hf
      exact (storeTimes_leaves s v).boundsOk (by simp [registerParts]) hs
  | boxout =>
    exact request rfl fun ws t r hf => by
      obtain ⟨ts, rfl⟩ := handleBoxout_ok hf
      exact (storeBoxout_leaves s ts).boundsOk (by simp [registerParts]) hs
  | clearLev =>
    exact request rfl fun ws t r hf => by
      obtain ⟨n, rfl⟩ := handleClearLev_ok hf
      exact (clearForced_leaves s n).boundsOk (by simp [registerParts, everyLever]) hs
  | bright =>
    exact request rfl fun ws t r hf => by
      obtain ⟨k, rfl⟩ := handleBright_ok hf
      exact hs
  | dim =>
    exact request rfl fun ws t r hf => by
      obtain ⟨k, rfl⟩ := handleDim_ok hf
      exact hs
  | paint =>
    exact request rfl fun ws t r hf => by
      obtain ⟨n, vs, rfl⟩ := handlePaint_ok hf
      exact hs
  | withdraw =>
    exact request rfl fun ws t r hf => by
      obtain ⟨-, rfl⟩ := handleWithdraw_ok hf
      exact leaveService_boundsOk hs
  | restart =>
    exact request rfl fun ws t r hf => by
      obtain rfl := handleRestart_ok hf
      exact Leaves.boundsOk (ps := [.restartPhase]) (by simp) (by simp [registerParts]) hs
  | eraseLev =>
    exact request rfl fun ws t r hf => by
      obtain rfl := handleErase_ok hf
      exact (eraseLevers_leaves s).boundsOk (by simp [registerParts, everyLever]) hs
  | eraseSec =>
    exact request rfl fun ws t r hf => by
      obtain rfl := handleErase_ok hf
      exact (eraseSections_leaves s).boundsOk (by simp [registerParts, everySection]) hs
  | eraseLamp =>
    exact request rfl fun ws t r hf => by
      obtain rfl := handleErase_ok hf
      exact (eraseLamps_leaves s).boundsOk (by simp [registerParts]) hs
  | eraseBoxout =>
    exact request rfl fun ws t r hf => by
      obtain rfl := handleErase_ok hf
      exact (storeBoxout_leaves s none).boundsOk (by simp [registerParts]) hs
  | eraseLock | eraseCode =>
    exact request rfl fun ws t r hf => by
      obtain rfl := handleErase_ok hf
      exact hs
  | ident | mode | check | showLev | showTc | showSec | showBox | showGroup | showLamp | rawTc | reg =>
    exact request rfl (answering_boundsOk hs)
  | _ => exact other rfl (by simp [registerParts, ownParts, writes, everyLever, everySection, portAndPair])

end

/-- Settles O60: what each command does to the Track unit, the register and the link, command by command. -/
theorem everyStepKeepsBounds : Obligations.EveryStepKeepsBounds := by
  intro s t hs h
  unfold step at h
  split at h
  · cases h
    exact hs
  · rename_i c rest _
    exact exec_boundsOk (s := { s with pending := rest }) hs h

end Sys2Proof.Machine
end

section
/-! ### Measurements: their figures, and what they do to their circuit (R55, R59, R62 to R71) -/

namespace Sys2Proof.Machine

/-! #### The measurement of the circuit in turn -/

/-- The measurement that samples make of circuit `c` on record `r` in the frame in progress (R59, R62). -/
def State.measured (s : State) (c : Circuit) (r : TcRecord) (samples : List Sample) : Measurement :=
  measure r (if .proof ∈ (s.circuit c).masks then none else (s.circuit c).applied) (s.circuit c).masks samples

/-- The circuit as that measurement leaves it. -/
def State.afterMeasurement (s : State) (c : Circuit) (r : TcRecord) (samples : List Sample) : CircuitData :=
  { (s.circuit c).handled r (s.measured c r samples) s.track.params.track with
    taken := some (s.measured c r samples) }

theorem mem_masks_measured (s : State) (c : Circuit) (r : TcRecord) (samples : List Sample) :
    (s.measured c r samples).masks = (s.circuit c).masks := rfl

section
variable {samples : List Sample} {s : State} {c : Circuit} {rest : List Circuit} {r : TcRecord}

theorem completeMeasurement_of_turn (ht : s.track.toMeasure = c :: rest) (hr : (s.circuit c).live = some r)
    (hn : samples.length = r.window) : completeMeasurement samples s =
      (s.setTrack { s.track with
        circuits := s.track.circuits.set c.val (s.afterMeasurement c r samples), toMeasure := rest }).enterAll .track
        (trackEntry c (s.circuit c).state (s.afterMeasurement c r samples).state) := by
  simp only [completeMeasurement, ht, hr, if_pos hn]
  rfl

/-- MEASUREMENT_COMPLETE of the circuit in turn: the circuit alone is changed, and the entry of its change of state is
handed on. -/
theorem measurementComplete_of_turn (ht : s.track.toMeasure = c :: rest) (hr : (s.circuit c).live = some r)
    (hn : samples.length = r.window) : ∃ t, exec (.measurementComplete samples) s = .next t ∧
      t.track.toMeasure = rest ∧ t.circuit c = s.afterMeasurement c r samples ∧
      (∀ d, d ≠ c → t.circuit d = s.circuit d) ∧
      t.inbox.entries = s.inbox.entries ++
        (trackEntry c (s.circuit c).state (s.afterMeasurement c r samples).state).map (.track, ·) := by
  have hm := completeMeasurement_of_turn ht hr hn
  have hc : ∀ d, (completeMeasurement samples s).circuit d =
      if c = d then s.afterMeasurement c r samples else s.circuit d := fun d => by
    rw [hm]
    exact getElem_set_circuit _ c d _
  refine ⟨_, rfl, ?_, ?_, fun d hd => ?_, ?_⟩
  · rw [commit_track, hm]
    rfl
  · rw [commit_circuit, hc, if_pos rfl]
  · rw [commit_circuit, hc, if_neg (Ne.symm hd)]
  · have he : (commit s (completeMeasurement samples s)).inbox.entries = (completeMeasurement samples s).inbox.entries :=
      commit_entries_of_sections _ _ (by rw [hm]; rfl) (by rw [hm]; rfl)
    rw [he, hm]
    rfl

end

/-! #### What a measurement does, by masks and state -/

section
variable {k : CircuitData} {r : TcRecord} {m : Measurement} {track : Nat}

theorem handled_of_proof (hp : .proof ∈ m.masks) : k.handled r m track = k.proofTested r m := by
  simp [CircuitData.handled, hp]

theorem handled_of_masked (hm : m.masks ≠ []) (hp : .proof ∉ m.masks) : k.handled r m track = k := by
  simp [CircuitData.handled, hp, hm]

theorem handled_of_lowRef (hm : m.masks = []) (hk : k.state = .failed .lowRef) :
    k.handled r m track = if m.saturated then k else k.trackedInLowRef r m.signed track := by
  simp [CircuitData.handled, hm, hk]

theorem handled_of_clear (hm : m.masks = []) (hk : k.state = .clear) : k.handled r m track = k.judged r m track := by
  simp [CircuitData.handled, hm, hk]

/-- A circuit that is FAILED does not fail again (R71). -/
theorem proofTested_of_failed {f : FailCause} (hk : k.state = .failed f) : k.proofTested r m = k := by
  simp [CircuitData.proofTested, hk]

theorem proofTested_of_enabled (hk : k.state = .occupied ∨ k.state = .clear) :
    k.proofTested r m = if r.floor ≤ m.level.natAbs then k.enter (.failed .proof) else k := by
  obtain hk | hk := hk <;> simp [CircuitData.proofTested, hk]

/-- A circuit failed JOINT or PROOF waits for CLEAR TC (R71). -/
theorem handled_of_latched (hk : k.state = .failed .joint ∨ k.state = .failed .proof) : k.handled r m track = k := by
  obtain hk | hk := hk
  all_goals
    unfold CircuitData.handled
    split
    · exact proofTested_of_failed hk
    · simp [hk]

/-- A level at the pick-up threshold or above is a high input (R65). -/
theorem verdictOf_high {p : Int} {joint d u : Nat} (hdu : d ≤ u) (hp : (u : Int) ≤ p) : verdictOf p joint d u = .high := by
  rw [verdictOf, if_neg (by omega), if_neg (by omega), if_pos hp]

theorem dropThreshold_le_pick (level : Nat) (r : TcRecord) : dropThreshold level r ≤ pickThreshold level r := by
  unfold pickThreshold
  omega

/-- A high input in CLEAR: the high count is raised, no state decision applies, and the reference follows an unsaturated
level (R65 to R69). -/
theorem judged_of_high (hk : k.state = .clear) (hd : 1 ≤ r.dropf)
    (hp : (pickThreshold k.clearLevel r : Int) ≤ m.signed) : k.judged r m track =
      if m.saturated then k.counted .high else (k.counted .high).trackedInClear r m.signed track := by
  have hv : verdictOf m.signed r.joint (dropThreshold k.clearLevel r) (pickThreshold k.clearLevel r) = .high :=
    verdictOf_high (dropThreshold_le_pick _ _) hp
  have hc : (k.counted .high).decided r = k.counted .high := by
    have hlow : ¬r.dropf ≤ 0 := by omega
    simp [CircuitData.decided, CircuitData.counted, hk, hlow]
  simp only [CircuitData.judged, hv, hc, hk]
  cases m.saturated <;> simp

/-- Tracking in CLEAR, and its low-reference test (R68, R69). -/
theorem trackedInClear_cases (r : TcRecord) (p : Int) (track : Nat) :
    let k' := { k with q := trackedReference k.q p track }
    (k.trackedInClear r p track).q = k'.q ∧
      (k'.q / 16 < r.low → k.trackedInClear r p track = k'.enter (.failed .lowRef)) ∧
      (r.low ≤ k'.q / 16 → k.trackedInClear r p track = k') := by
  refine ⟨?_, fun h => ?_, fun h => ?_⟩
  · simp only [CircuitData.trackedInClear]
    split <;> rfl
  · exact if_pos h
  · exact if_neg (by simpa [CircuitData.clearLevel] using h)

/-- Tracking in LOW_REF, and the test for its recovery (R68, R70). -/
theorem trackedInLowRef_cases (r : TcRecord) (p : Int) (track : Nat) :
    let k' := { k with q := trackedReference k.q p track }
    (k.trackedInLowRef r p track).q = k'.q ∧
      (r.low + r.low / 8 ≤ k'.q / 16 → k.trackedInLowRef r p track = k'.enter .occupied) ∧
      (k'.q / 16 < r.low + r.low / 8 → k.trackedInLowRef r p track = k') := by
  refine ⟨?_, fun h => ?_, fun h => ?_⟩
  · simp only [CircuitData.trackedInLowRef]
    split <;> rfl
  · exact if_pos h
  · exact if_neg (by simpa [CircuitData.clearLevel] using h)

theorem trackEntry_self (c : Circuit) (st : TrackState) : trackEntry c st st = [] := by
  cases st <;> rfl

theorem trackEntry_fails {c : Circuit} {st : TrackState} (h : st = .occupied ∨ st = .clear) (f : FailCause) :
    trackEntry c st (.failed f) = [.track c (some f)] := by
  obtain rfl | rfl := h <;> rfl

end

/-- Settles O23: each clause is one branch of what a measurement does by its masks and the state of the circuit. -/
theorem trackingAndFailures : Obligations.TrackingAndFailures := by
  intro samples s c rest r ht hr hn
  obtain ⟨t, hx, -, hc, -, he⟩ := measurementComplete_of_turn ht hr hn
  refine ⟨t, s.measured c r samples, hx, by rw [hc]; rfl, ?_⟩
  generalize hm : s.measured c r samples = m
  have hmasks : m.masks = (s.circuit c).masks := by rw [← hm]; rfl
  rw [State.afterMeasurement, hm] at hc he
  generalize s.circuit c = k at *
  have same : k.handled r m s.track.params.track = k →
      t.circuit c = { k with taken := some m } ∧ t.inbox.entries = s.inbox.entries := fun h => by
    rw [h] at hc he
    exact ⟨hc, by simpa [trackEntry_self] using he⟩
  intro k' d u moved zero unchanged
  have zeroed : ∀ {k₁ : CircuitData} {st : TrackState} {o : Option Measurement},
      t.circuit c = { k₁.enter st with taken := o } → zero := fun h => by
    show (t.circuit c).low = 0 ∧ (t.circuit c).high = 0 ∧ (t.circuit c).reverse = 0
    rw [h]
    exact ⟨rfl, rfl, rfl⟩
  refine ⟨fun h0 hk hs hu hd => ?_, fun h0 hk hs hu hd => ?_, fun h0 hk hs => ?_, fun h0 hk hs => ?_, fun hp hk => ?_,
    fun hne hp => same (handled_of_masked (by rwa [hmasks]) (by rwa [hmasks])), fun hk => same (handled_of_latched hk)⟩
  · rw [handled_of_clear (by rw [hmasks, h0]) hk, judged_of_high hk hd hu, hs, if_neg (by simp)] at hc he
    obtain ⟨hq, hlow, hok⟩ := trackedInClear_cases (k := k.counted .high) r m.signed s.track.params.track
    refine ⟨?_, fun hl => ?_, fun hl => ?_⟩
    · rw [hc]
      exact (congrArg _ hq).trans (trackedReference_eq _ _ _)
    · rw [hc] at hl
      rw [hlow (hq ▸ hl)] at hc he
      exact ⟨by rw [hc]; rfl, zeroed hc, by rw [he, hk]; rfl⟩
    · rw [hc] at hl
      rw [hok (hq ▸ hl)] at hc he
      refine ⟨by rw [hc]; exact hk, by rw [hc]; rfl, by rw [hc]; rfl, by rw [hc]; rfl, ?_⟩
      rw [he]
      simp [CircuitData.counted, trackEntry_self]
  · rw [handled_of_clear (by rw [hmasks, h0]) hk, judged_of_high hk hd hu, hs, if_pos rfl] at hc
    exact ⟨by rw [hc]; rfl, by rw [hc]; exact hk⟩
  · rw [handled_of_lowRef (by rw [hmasks, h0]) hk, hs, if_neg (by simp)] at hc he
    obtain ⟨hq, hrec, hlow⟩ := trackedInLowRef_cases (k := k) r m.signed s.track.params.track
    refine ⟨?_, fun hl => ?_, fun hl => ?_⟩
    · rw [hc]
      exact (congrArg _ hq).trans (trackedReference_eq _ _ _)
    · rw [hc] at hl
      rw [hrec (hq ▸ hl)] at hc he
      exact ⟨by rw [hc]; rfl, zeroed hc, by rw [he, hk]; rfl⟩
    · rw [hc] at hl
      rw [hlow (hq ▸ hl)] at hc he
      exact ⟨by rw [hc]; exact hk, by simpa [trackEntry_self] using he⟩
  · exact same (by rw [handled_of_lowRef (by rw [hmasks, h0]) hk, if_pos hs])
  · have hh : k.handled r m s.track.params.track = _ := (handled_of_proof (by rwa [hmasks])).trans (proofTested_of_enabled hk)
    refine ⟨fun hl => ?_, fun hl => same ?_⟩
    · rw [hh, if_pos hl] at hc he
      refine ⟨by rw [hc]; rfl, zeroed hc, by rw [hc]; rfl, ?_⟩
      rw [he]
      exact congrArg (fun es => s.inbox.entries ++ es.map (RegUnit.track, ·)) (trackEntry_fails hk .proof)
    · rw [hh, if_neg (by omega)]

end Sys2Proof.Machine
end

section
/-! ### The figures of a measurement, and their publication (R59, R60, R62, R63) -/

namespace Sys2Proof.Machine

/-! #### Figures -/

theorem sampleSum_eq (samples : List Sample) : sampleSum samples = (samples.map (·.toInt)).sum := by
  induction samples with
  | nil => rfl
  | cons x xs ih => simp [sampleSum, ih]

theorem isSaturated_iff (samples : List Sample) :
    isSaturated samples = true ↔ ∃ x ∈ samples, x.toInt = -2048 ∨ x.toInt = 2047 := by
  simp [isSaturated]

theorem levelOf_saturated (average : Int) (coarse fine : Nat) :
    levelOf average coarse fine true = if 0 ≤ average then 2500 else -2500 := rfl

theorem levelOf_unsaturated (average : Int) (coarse fine : Nat) : levelOf average coarse fine false =
    max (-2500) (min 2500 ((average * 625).tdiv (16 * (coarse : Int) * (fine : Int)))) := by
  rw [levelOf, if_neg (by simp), clampInt_eq (by decide)]

theorem signedLevel_eq (level : Int) (sign : Option Polarity) :
    signedLevel level sign = if sign = some .negative then -level else level := by
  rcases sign with _ | _ | _ <;> rfl

/-! #### What a measurement leaves of its circuit -/

/-- The record in force and the published measurement are the same. -/
def CircuitData.SameFigures (k k' : CircuitData) : Prop :=
  k'.live = k.live ∧ k'.published = k.published

section
variable (k : CircuitData) (r : TcRecord) (m : Measurement) (track : Nat)

theorem CircuitData.SameFigures.trans {k₁ k₂ k₃ : CircuitData} (h₁ : k₁.SameFigures k₂) (h₂ : k₂.SameFigures k₃) :
    k₁.SameFigures k₃ :=
  ⟨h₂.1.trans h₁.1, h₂.2.trans h₁.2⟩

theorem counted_sameFigures (v : Verdict) : k.SameFigures (k.counted v) := by
  cases v <;> exact ⟨rfl, rfl⟩

theorem decided_sameFigures : k.SameFigures (k.decided r) := by
  unfold CircuitData.decided
  repeat' split
  all_goals exact ⟨rfl, rfl⟩

theorem trackedInClear_sameFigures (p : Int) : k.SameFigures (k.trackedInClear r p track) := by
  simp only [CircuitData.trackedInClear]
  split <;> exact ⟨rfl, rfl⟩

theorem trackedInLowRef_sameFigures (p : Int) : k.SameFigures (k.trackedInLowRef r p track) := by
  simp only [CircuitData.trackedInLowRef]
  split <;> exact ⟨rfl, rfl⟩

theorem judged_sameFigures : k.SameFigures (k.judged r m track) := by
  have hc := fun v => (counted_sameFigures k v).trans (decided_sameFigures (k.counted v) r)
  simp only [CircuitData.judged]
  split
  · exact (hc _).trans (trackedInClear_sameFigures _ r track m.signed)
  · exact hc _

theorem proofTested_sameFigures : k.SameFigures (k.proofTested r m) := by
  unfold CircuitData.proofTested
  repeat' split
  all_goals exact ⟨rfl, rfl⟩

theorem handled_sameFigures : k.SameFigures (k.handled r m track) := by
  unfold CircuitData.handled
  split
  · exact proofTested_sameFigures k r m
  · split
    · exact ⟨rfl, rfl⟩
    · split
      · exact judged_sameFigures k r m track
      · exact judged_sameFigures k r m track
      · split
        · exact ⟨rfl, rfl⟩
        · exact trackedInLowRef_sameFigures k r track m.signed
      all_goals exact ⟨rfl, rfl⟩

end

/-! #### The completion of a frame -/

section
variable {s : State}

theorem scanFrameComplete_due (hs : s.track.scanning = true) (hm : s.track.toMeasure = [])
    (hn : s.track.started + s.track.actual ≤ s.now) : scanFrameComplete s =
      s.setTrack { s.track with circuits := Vector.ofFn fun t => publish s.track t, scanning := false } := by
  simp [scanFrameComplete, hs, hm, hn]

theorem scanFrameComplete_waits (h : s.track.toMeasure ≠ [] ∨ s.now < s.track.started + s.track.actual) :
    scanFrameComplete s = s := by
  refine if_neg fun hc => ?_
  simp only [Bool.and_eq_true, List.isEmpty_iff, decide_eq_true_eq] at hc
  obtain ⟨⟨-, hm⟩, hn⟩ := hc
  exact h.elim (fun hne => hne hm) fun hlt => by omega

end

/-- Settles O21: the measurement's figures one by one, and a circuit's part in the completion of its frame. -/
theorem measurementFiguresArePublished : Obligations.MeasurementFiguresArePublished := by
  constructor
  · intro samples s c rest r ht hr hn
    obtain ⟨t, hx, htm, hc, hd, -⟩ := measurementComplete_of_turn ht hr hn
    obtain ⟨hlive, hpub⟩ := handled_sameFigures (s.circuit c) r (s.measured c r samples) s.track.params.track
    refine ⟨t, s.measured c r samples, hx, htm, hd, by rw [hc]; exact hlive.trans hr, by rw [hc]; exact hpub,
      by rw [hc]; rfl, sampleSum_eq samples, rfl, rfl, isSaturated_iff samples, fun h => ?_, fun h => ?_, rfl, rfl,
      signedLevel_eq _ _⟩
    · exact (congrArg (levelOf _ r.coarse r.fine) h).trans (levelOf_saturated _ _ _)
    · exact (congrArg (levelOf _ r.coarse r.fine) h).trans (levelOf_unsaturated _ _ _)
  · intro s hs
    refine ⟨_, rfl, fun hm hn => ?_, fun h => ?_⟩
    · have hc : ∀ c, (commit s (scanFrameComplete s)).circuit c = publish s.track c := fun c => by
        rw [commit_circuit, scanFrameComplete_due hs hm hn]
        simp only [State.circuit, State.setTrack_track, Fin.getElem_fin, Vector.getElem_ofFn]
      refine ⟨by rw [commit_track, scanFrameComplete_due hs hm hn, State.setTrack_track], fun c => ?_⟩
      have hp := publish_published s.track c
      rw [hc]
      refine ⟨fun m hk => ?_, fun hk => ?_, rfl, Bool.and_eq_true_iff⟩
      · rw [hp, show s.track.circuits[c].taken = some m from hk]
        rfl
      · rw [hp, show s.track.circuits[c].taken = none from hk]
        rfl
    · rw [commit_track, scanFrameComplete_waits h]

end Sys2Proof.Machine
end

section
/-! ### The start of a scan frame (R47 to R57, R72, R73) -/

namespace Sys2Proof.Machine

/-! #### The polarity generator (R51, R52) -/

theorem stepGenerator_bits : ∀ g : BitVec 7, (stepGenerator g).getLsbD 0 = (g.getLsbD 6 ^^ g.getLsbD 5) ∧
    ∀ i < 6, (stepGenerator g).getLsbD (i + 1) = g.getLsbD i := by decide

/-- The generator is back at 1 after 127 steps. -/
theorem stepGenerator_returns : stepGenerator^[127] 1 = 1 := by
  have h₁ : stepGenerator^[32] 1 = 22#7 := by decide
  have h₂ : stepGenerator^[32] 22#7 = 18#7 := by decide
  have h₃ : stepGenerator^[32] 18#7 = 75#7 := by decide
  have h₄ : stepGenerator^[31] 75#7 = 1 := by decide
  calc stepGenerator^[31 + (32 + (32 + 32))] 1
      = stepGenerator^[31] (stepGenerator^[32] (stepGenerator^[32] (stepGenerator^[32] 1))) := by
        rw [Function.iterate_add_apply, Function.iterate_add_apply, Function.iterate_add_apply]
    _ = 1 := by rw [h₁, h₂, h₃, h₄]

/-- 127 is prime and one step leaves 1, so the generator does not return to 1 sooner. -/
theorem stepGenerator_period : Function.minimalPeriod stepGenerator 1 = 127 := by
  have hdvd : Function.minimalPeriod stepGenerator 1 ∣ 127 :=
    Function.IsPeriodicPt.minimalPeriod_dvd stepGenerator_returns
  refine ((Nat.dvd_prime (by norm_num)).1 hdvd).resolve_left fun h => ?_
  exact absurd (Function.minimalPeriod_eq_one_iff_isFixedPt.1 h) (by decide : stepGenerator 1 ≠ 1)

theorem iterate_stepGenerator_ne_zero (k : Nat) : stepGenerator^[k] 1 ≠ 0 := by
  induction k with
  | zero => decide
  | succ k ih =>
    rw [Function.iterate_succ_apply']
    exact stepGenerator_ne_zero ih

/-- The 127 values of its course differ, so they are all the values but zero. -/
theorem stepGenerator_course (v : BitVec 7) (hv : v ≠ 0) : ∃ k < 127, stepGenerator^[k] 1 = v := by
  have hinj : Set.InjOn (fun k => stepGenerator^[k] 1) (Finset.range 127) := by
    have h := Function.iterate_injOn_Iio_minimalPeriod (f := stepGenerator) (x := 1)
    rwa [stepGenerator_period, ← Finset.coe_range] at h
  have hsub : (Finset.range 127).image (fun k => stepGenerator^[k] 1) ⊆ Finset.univ.erase 0 := fun w hw => by
    obtain ⟨k, -, rfl⟩ := Finset.mem_image.1 hw
    exact Finset.mem_erase.2 ⟨iterate_stepGenerator_ne_zero k, Finset.mem_univ _⟩
  have hcard : (Finset.univ.erase (0 : BitVec 7)).card ≤ ((Finset.range 127).image fun k => stepGenerator^[k] 1).card := by
    rw [Finset.card_image_of_injOn hinj, Finset.card_range, Finset.card_erase_of_mem (Finset.mem_univ _), Finset.card_univ,
      Fintype.card_congr BitVec.equivFin.toEquiv, Fintype.card_fin]
    rfl
  have hmem : v ∈ (Finset.range 127).image fun k => stepGenerator^[k] 1 := by
    rw [Finset.eq_of_subset_of_card_le hsub hcard]
    exact Finset.mem_erase.2 ⟨hv, Finset.mem_univ _⟩
  simpa using hmem

theorem wanted_eq (g : BitVec 7) (r : TcRecord) :
    wanted g r = if g.getLsbD r.phase ≠ decide (r.inv = 1) then .positive else .negative := by
  unfold wanted
  cases g.getLsbD r.phase <;> cases decide (r.inv = 1) <;> rfl

/-! #### The proof choice (R54) -/

section
variable (w : StartWork) (count proof : Nat) (cursor : Option Circuit)

theorem chooseProof_zero : chooseProof w count 0 cursor = (0, cursor, none) := rfl

theorem chooseProof_early (h : count + 1 < proof) : chooseProof w count proof cursor = (count + 1, cursor, none) := by
  rw [chooseProof, if_neg (by omega), if_neg (by omega)]

theorem chooseProof_due (h₀ : 0 < proof) (h : proof ≤ count + 1) :
    (chooseProof w count proof cursor).1 = 0 ∧
      (chooseProof w count proof cursor).2.2 = (afterCursor cursor).find? (eligible w) := by
  rw [chooseProof, if_neg (by omega), if_pos h]
  cases (afterCursor cursor).find? (eligible w) <;> exact ⟨rfl, rfl⟩

/-- The cursor names the proof circuit, and stays where there is none. -/
theorem chooseProof_cursor : (chooseProof w count proof cursor).2.1 = (chooseProof w count proof cursor).2.2.or cursor := by
  unfold chooseProof
  split
  · rfl
  · split
    · cases (afterCursor cursor).find? (eligible w) <;> rfl
    · rfl

/-- Only an eligible circuit is chosen. -/
theorem chooseProof_eligible {c : Circuit} (h : (chooseProof w count proof cursor).2.2 = some c) : eligible w c = true := by
  unfold chooseProof at h
  split at h
  · cases h
  · split at h
    · split at h
      · cases h
        exact List.find?_some ‹_›
      · cases h
    · cases h

end

/-- Where no record takes effect, the circuits in OCCUPIED or CLEAR are eligible. -/
theorem eligible_of_fresh {w : StartWork} (h : w.fresh = []) :
    eligible w = fun c => decide (w.circuits[c].state = .occupied ∨ w.circuits[c].state = .clear) := by
  funext c
  rw [eligible, h]
  cases w.circuits[c].state <;> simp

/-! #### The feed and the masks of a circuit (R52, R53, R55) -/

section
variable {w : StartWork} {g : BitVec 7} {proof : Option Circuit} {c : Circuit} {r : TcRecord}

theorem setFeed_of_none (h : w.circuits[c].live = none) : setFeed w g proof c =
    { w.circuits[c] with retuned := false, feed := none, applied := none, masks := [], taken := none } := by
  simp only [setFeed, h]

theorem setFeed_of_proof (h : w.circuits[c].live = some r) : setFeed w g (some c) c =
    { w.circuits[c] with
      retuned := false, feed := none, taken := none
      masks := .proof :: (if w.restore = some c then [.restore] else []) ++ if c ∈ w.tuned then [.tune] else [] } := by
  simp only [setFeed, h, if_pos]

theorem setFeed_of_fed (h : w.circuits[c].live = some r) (hp : proof ≠ some c) : setFeed w g proof c =
    { w.circuits[c] with
      retuned := false, applied := some (wanted g r), feed := some (wanted g r), taken := none
      masks := (if c ∉ w.fresh ∧ w.circuits[c].applied ≠ some (wanted g r) then [.reversal] else []) ++
        (if w.restore = some c then [.restore] else []) ++ if c ∈ w.tuned then [.tune] else [] } := by
  simp only [setFeed, h, if_neg hp]

/-- Which causes mask the circuit's measurement in the frame (R53). -/
theorem mem_masks_setFeed (h : w.circuits[c].live = some r) :
    (.proof ∈ (setFeed w g proof c).masks ↔ proof = some c) ∧
    (.restore ∈ (setFeed w g proof c).masks ↔ w.restore = some c) ∧
    (.tune ∈ (setFeed w g proof c).masks ↔ c ∈ w.tuned) ∧
    (.reversal ∈ (setFeed w g proof c).masks ↔
      proof ≠ some c ∧ c ∉ w.fresh ∧ w.circuits[c].applied ≠ some (wanted g r)) := by
  by_cases hp : proof = some c
  · subst hp
    rw [setFeed_of_proof h]
    by_cases hr : w.restore = some c <;> by_cases ht : c ∈ w.tuned <;> simp [hr, ht]
  · rw [setFeed_of_fed h hp]
    by_cases hr : w.restore = some c <;> by_cases ht : c ∈ w.tuned <;>
      by_cases hv : c ∉ w.fresh ∧ w.circuits[c].applied ≠ some (wanted g r) <;> simp [hr, ht, hv, hp]

end

/-! #### The frame's length (R50) -/

theorem dwells_eq (circuits : Vector CircuitData 20) (ts : List Circuit) :
    dwells circuits ts = ((ts.filterMap fun c => circuits[c].live).map dwell).sum := by
  induction ts with
  | nil => rfl
  | cons c ts ih =>
    simp only [dwells, ih, List.filterMap_cons]
    cases circuits[c].live <;> simp

theorem actualLength_fits {required frame : Nat} (h : required ≤ frame * 10) :
    actualLength required frame = (frame, false) := if_pos h

theorem actualLength_extended {required frame : Nat} (h : frame * 10 < required) :
    actualLength required frame = ((required + 9) / 10, true) := if_neg (by omega)

/-! #### The start as a whole -/

/-- The work of the frame start after the waiting requests. -/
def State.startWork (s : State) : StartWork :=
  (Machine.startWork s.track).applyAll s.track.ops

/-- The generator and the reversal count after the frame start. -/
def State.startReversal (s : State) : BitVec 7 × Nat :=
  advanceReversal s.track.gen s.track.reversals s.times.reverse

/-- The proof count, cursor and proof circuit after the frame start. -/
def State.startProof (s : State) : Nat × Option Circuit × Option Circuit :=
  chooseProof s.startWork s.track.proofs s.times.proof s.track.cursor

/-- The circuit as the frame start leaves it. -/
def State.started (s : State) (c : Circuit) : CircuitData :=
  setFeed s.startWork s.startReversal.1 s.startProof.2.2 c

/-- The Track unit as the frame start leaves it. -/
def State.startTrack (s : State) : TrackUnit :=
  let circuits := Vector.ofFn s.started
  let len := actualLength (requiredLength circuits) s.times.frame
  { circuits := circuits
    ops := []
    params := ⟨s.times.frame, s.times.reverse, s.times.proof, s.times.track⟩
    gen := s.startReversal.1
    reversals := s.startReversal.2
    proofs := s.startProof.1
    cursor := s.startProof.2.1
    proofNow := s.startProof.2.2
    scanning := true
    started := s.now
    actual := len.1
    extended := len.2
    toMeasure := allCircuits.filter fun t => circuits[t].live.isSome }

theorem startFrame_eq (s s₁ : State) :
    startFrame s s₁ = (s₁.setTrack s.startTrack).enterAll .track s.startWork.entries := rfl

section
variable {s : State}

theorem frameWaits_of (hv : s.service.state ≠ .powerUp) (hs : s.track.scanning = false) : s.frameWaits = false := by
  simp [State.frameWaits, State.isIn, hv, hs]

/-- The frame that starts where no frame is in progress, outside POWER_UP. -/
theorem scanFrameStart_starts (hv : s.service.state ≠ .powerUp) (hs : s.track.scanning = false) :
    exec .scanFrameStart s = .next (commit (handWaiting s) (startFrame s (handWaiting s))) ∧
      handWaiting s = handEach (startWork s.track) s.track.ops s := by
  have hw := frameWaits_of hv hs
  refine ⟨?_, by rw [handWaiting, hw]; rfl⟩
  show Host.Outcome.next (commit _ (scanFrameStart s _)) = _
  rw [scanFrameStart, hw]
  rfl

theorem startTrack_circuit (c : Circuit) : s.startTrack.circuits[c] = s.started c := by
  simp only [State.startTrack, Fin.getElem_fin, Vector.getElem_ofFn]

theorem mem_startTrack_toMeasure (c : Circuit) : c ∈ s.startTrack.toMeasure ↔ (s.started c).live ≠ none := by
  simp only [State.startTrack, List.mem_filter, allCircuits, List.mem_finRange, true_and, Fin.getElem_fin,
    Vector.getElem_ofFn, Option.isSome_iff_ne_none]

/-- A frame start leaves the record that the requests have given a circuit, its state, reference and counts. -/
theorem started_live (c : Circuit) : (s.started c).live = s.startWork.circuits[c].live := by
  obtain ⟨p, f, ms, h⟩ := setFeed_eq s.startWork s.startReversal.1 s.startProof.2.2 c
  rw [State.started, h]

theorem startTrack_length : (s.startTrack.actual, s.startTrack.extended) = actualLength
    (((allCircuits.filterMap fun c => s.startWork.circuits[c].live).map fun r => 2 + r.window).sum + 20) s.times.frame := by
  have hl : (allCircuits.filterMap fun c => (Vector.ofFn s.started)[c].live) =
      allCircuits.filterMap fun c => s.startWork.circuits[c].live := by
    refine congrArg (List.filterMap · allCircuits) (funext fun c => ?_)
    simp only [Fin.getElem_fin, Vector.getElem_ofFn]
    exact started_live c
  have hr : requiredLength (Vector.ofFn s.started) = _ + 20 := congrArg (· + 20) (dwells_eq (Vector.ofFn s.started) allCircuits)
  rw [hl] at hr
  exact congrArg (actualLength · s.times.frame) hr

end

/-- Settles O19: with no request waiting the circuits, states and records are those before the start. -/
theorem scanFrameStartSetsFeeds : Obligations.ScanFrameStartSetsFeeds := by
  refine ⟨stepGenerator_bits, stepGenerator_returns, stepGenerator_course, fun s hv hs ho => ?_⟩
  obtain ⟨hx, -⟩ := scanFrameStart_starts hv hs
  have hw : s.startWork = startWork s.track := by rw [State.startWork, ho]; rfl
  have hlive : ∀ c : Circuit, s.startWork.circuits[c] = s.circuit c := fun c => by rw [hw]; rfl
  have ht : (commit (handWaiting s) (startFrame s (handWaiting s))).track = s.startTrack := rfl
  have hc : ∀ c, (commit (handWaiting s) (startFrame s (handWaiting s))).circuit c = s.started c := startTrack_circuit
  refine ⟨_, hx, ?_⟩
  generalize commit (handWaiting s) (startFrame s (handWaiting s)) = t at ht hc ⊢
  rw [ht]
  refine ⟨rfl, rfl, rfl, fun h => ?_, fun h => ?_, fun h => ?_, fun h => ?_, fun h₀ h => ?_, fun c h => ?_, fun h => ?_,
    fun c h => ?_, fun c r h => ?_, fun h => ?_, fun h => ?_⟩
  · have hr : s.startReversal = _ := if_neg (by omega)
    exact ⟨congrArg Prod.fst hr, congrArg Prod.snd hr⟩
  · have hr : s.startReversal = _ := if_pos h
    exact ⟨congrArg Prod.fst hr, congrArg Prod.snd hr⟩
  · have hp : s.startProof = (0, s.track.cursor, none) := by rw [State.startProof, h, chooseProof_zero]
    exact ⟨congrArg Prod.fst hp, congrArg (·.2.2) hp⟩
  · have hp : s.startProof = _ := chooseProof_early _ _ _ _ h
    exact ⟨congrArg Prod.fst hp, congrArg (·.2.2) hp⟩
  · obtain ⟨h1, h2⟩ := chooseProof_due s.startWork _ _ s.track.cursor h₀ h
    refine ⟨h1, h2.trans ?_⟩
    rw [eligible_of_fresh (by rw [hw]; rfl)]
    simp only [hlive]
  · have hp : s.startTrack.cursor = s.startProof.2.2.or s.track.cursor := chooseProof_cursor _ _ _ _
    rw [hp, show s.startProof.2.2 = some c from h]
    rfl
  · have hp : s.startTrack.cursor = s.startProof.2.2.or s.track.cursor := chooseProof_cursor _ _ _ _
    rw [hp, show s.startProof.2.2 = none from h]
    rfl
  · have hl : s.startWork.circuits[c].live = none := by rw [hlive, h]
    have hf : s.started c = _ := setFeed_of_none hl
    refine ⟨by rw [hc, hf], by rw [hc, hf], fun hm => ?_⟩
    rw [mem_startTrack_toMeasure, started_live] at hm
    exact hm hl
  · have hl : s.startWork.circuits[c].live = some r := by rw [hlive, h]
    obtain ⟨hproof, hrestore, htune, hrev⟩ := mem_masks_setFeed (g := s.startReversal.1) (proof := s.startProof.2.2) hl
    have hfresh : c ∉ s.startWork.fresh := by rw [hw]; exact List.not_mem_nil
    rw [hc, mem_startTrack_toMeasure, started_live]
    refine ⟨by rw [hl]; exact Option.some_ne_none r, hl, ?_, ?_, fun hp => ?_, fun hp => ?_⟩
    · rw [State.started, hrestore, hw]
      rfl
    · rw [State.started, htune, hw]
      exact List.not_mem_nil
    · have hp : s.startProof.2.2 = some c := hp
      have hf : s.started c = _ := (congrArg (setFeed _ _ · c) hp).trans (setFeed_of_proof hl)
      refine ⟨by rw [hf], by rw [hf, hlive], hproof.2 hp, fun hm => (hrev.1 hm).1 hp⟩
    · have hp : s.startProof.2.2 ≠ some c := hp
      have hf : s.started c = _ := setFeed_of_fed hl hp
      intro want
      have hwant : wanted s.startReversal.1 r = want := wanted_eq _ _
      refine ⟨by rw [hf, hwant], by rw [hf, hwant], fun hm => hp (hproof.1 hm), ?_⟩
      rw [State.started, hrev, hlive, hwant]
      exact ⟨fun hm => hm.2.2, fun hm => ⟨hp, hfresh, hm⟩⟩
  · simp only [← hlive] at h
    have hlen := startTrack_length.trans (actualLength_fits h)
    exact ⟨congrArg Prod.fst hlen, congrArg Prod.snd hlen⟩
  · simp only [← hlive] at h
    have hlen := startTrack_length.trans (actualLength_extended h)
    simp only [← hlive]
    exact ⟨congrArg Prod.fst hlen, congrArg Prod.snd hlen⟩

end Sys2Proof.Machine
end

section
/-! ### The requests that take effect at a frame start (R47, R57, R60, R72, R73, R75) -/

namespace Sys2Proof.Machine

/-! #### What requests make of one circuit -/

/-- Requests applied to circuit `c` in their order. -/
def CircuitData.takeAll (c : Circuit) (k : CircuitData) (os : List TrackOp) : CircuitData :=
  os.foldl (fun k o => o.onCircuit c k) k

theorem applyAll_circuit (w : StartWork) (os : List TrackOp) (c : Circuit) :
    (w.applyAll os).circuits[c] = w.circuits[c].takeAll c os := by
  induction os generalizing w with
  | nil => rfl
  | cons o os ih => exact (ih (w.apply o)).trans (by rw [apply_circuit]; rfl)

theorem startWork_circuit (s : State) (c : Circuit) :
    s.startWork.circuits[c] = (s.circuit c).takeAll c s.track.ops :=
  applyAll_circuit _ _ c

theorem takeAll_append (c : Circuit) (k : CircuitData) (os ps : List TrackOp) :
    k.takeAll c (os ++ ps) = (k.takeAll c os).takeAll c ps :=
  List.foldl_append

theorem takeAll_cons (c : Circuit) (k : CircuitData) (o : TrackOp) (os : List TrackOp) :
    k.takeAll c (o :: os) = (o.onCircuit c k).takeAll c os := rfl

theorem onCircuit_load (c : Circuit) (k : CircuitData) (r : TcRecord) :
    (TrackOp.load c r).onCircuit c k = k.takeRecord r := if_pos rfl

theorem onCircuit_tune (c : Circuit) (k : CircuitData) (vals : List (TcField × Nat)) :
    (TrackOp.tune c vals).onCircuit c k = k.takeTune vals := if_pos rfl

theorem onCircuit_clear (c : Circuit) (k : CircuitData) : (TrackOp.clear c).onCircuit c k = k.takeClear := if_pos rfl

/-! Tuning. -/

theorem TcRecord.setAll_append (r : TcRecord) (vals ws : List (TcField × Nat)) :
    r.setAll (vals ++ ws) = (r.setAll vals).setAll ws := by
  induction vals generalizing r with
  | nil => rfl
  | cons e vals ih => exact ih _

/-- A TUNE that names a clear level (R73). -/
def retunesRef (vals : List (TcField × Nat)) : Bool :=
  vals.any (·.1 = .ref)

theorem retunesRef_iff {vals : List (TcField × Nat)} : retunesRef vals = true ↔ ∃ e ∈ vals, e.1 = .ref := by
  simp [retunesRef]

theorem retunesRef_false {vals : List (TcField × Nat)} : retunesRef vals = false ↔ ∀ e ∈ vals, e.1 ≠ .ref := by
  simp [retunesRef]

theorem TcRecord.setAll_ref {vals : List (TcField × Nat)} (h : retunesRef vals = false) (r : TcRecord) :
    (r.setAll vals).ref = r.ref := by
  rw [retunesRef_false] at h
  induction vals generalizing r with
  | nil => rfl
  | cons e vals ih =>
    obtain ⟨f, v⟩ := e
    have hf : f ≠ .ref := h (f, v) (by simp)
    refine (ih (fun e he => h e (List.mem_cons_of_mem _ he)) _).trans ?_
    cases f with
    | ref => exact absurd rfl hf
    | _ => rfl

theorem takeTune_of_live {k : CircuitData} {r : TcRecord} (h : k.live = some r) (vals : List (TcField × Nat)) :
    k.takeTune vals = { k with
      live := some (r.setAll vals), stored := some (r.setAll vals), stale := true
      q := if retunesRef vals then (r.setAll vals).ref * 16 else k.q
      low := if retunesRef vals then 0 else k.low
      high := if retunesRef vals then 0 else k.high
      reverse := if retunesRef vals then 0 else k.reverse } := by
  cases hv : vals.any (·.1 = .ref) <;> simp [CircuitData.takeTune, h, retunesRef, hv]

/-- The circuit `k` on record `r` becomes `k'` by tuning with these values; `tuned` says whether a TUNE was among the
requests. -/
structure Retuned (r : TcRecord) (vals : List (TcField × Nat)) (tuned : Prop) (k k' : CircuitData) : Prop where
  live : k'.live = some (r.setAll vals)
  state : k'.state = k.state
  published : k'.published = k.published
  q : k'.q = if retunesRef vals then (r.setAll vals).ref * 16 else k.q
  low : k'.low = if retunesRef vals then 0 else k.low
  high : k'.high = if retunesRef vals then 0 else k.high
  reverse : k'.reverse = if retunesRef vals then 0 else k.reverse
  stale : k'.stale = true ↔ k.stale = true ∨ tuned

section
variable {r : TcRecord} {k k₁ k₂ : CircuitData} {vals ws : List (TcField × Nat)} {p q : Prop}

theorem Retuned.refl (h : k.live = some r) : Retuned r [] False k k :=
  ⟨h, rfl, rfl, rfl, rfl, rfl, rfl, by simp⟩

theorem Retuned.of_tune (h : k.live = some r) (vals : List (TcField × Nat)) : Retuned r vals True k (k.takeTune vals) := by
  rw [takeTune_of_live h]
  exact ⟨rfl, rfl, rfl, rfl, rfl, rfl, rfl, by simp⟩

theorem Retuned.trans (h₁ : Retuned r vals p k k₁) (h₂ : Retuned (r.setAll vals) ws q k₁ k₂) :
    Retuned r (vals ++ ws) (p ∨ q) k k₂ := by
  have hany : retunesRef (vals ++ ws) = (retunesRef vals || retunesRef ws) := List.any_append
  refine ⟨?_, h₂.state.trans h₁.state, h₂.published.trans h₁.published, ?_, ?_, ?_, ?_, ?_⟩
  · rw [h₂.live, TcRecord.setAll_append]
  · rw [h₂.q, h₁.q, hany, TcRecord.setAll_append]
    cases hw : retunesRef ws
    · simp [TcRecord.setAll_ref hw]
    · simp
  · rw [h₂.low, h₁.low, hany]
    cases retunesRef ws <;> simp
  · rw [h₂.high, h₁.high, hany]
    cases retunesRef ws <;> simp
  · rw [h₂.reverse, h₁.reverse, hany]
    cases retunesRef ws <;> simp
  · rw [h₂.stale, h₁.stale, or_assoc]

theorem Retuned.mono (h : Retuned r vals p k k₁) (hpq : p ↔ q) : Retuned r vals q k k₁ :=
  { h with stale := by rw [h.stale, hpq] }

end

/-- Of a circuit's requests only tunes. -/
def OnlyTunes (c : Circuit) (os : List TrackOp) : Prop :=
  ∀ o ∈ os, (∀ r, o ≠ .load c r) ∧ o ≠ .erase ∧ o ≠ .clear c

/-- A request of another circuit, no ERASE, leaves the circuit. -/
theorem onCircuit_of_other {c : Circuit} {o : TrackOp} {k : CircuitData} (hl : ∀ r, o ≠ .load c r) (he : o ≠ .erase)
    (ht : ∀ vals, o ≠ .tune c vals) (hc : o ≠ .clear c) : o.onCircuit c k = k := by
  cases o with
  | load d r => exact if_neg (by rintro rfl; exact hl r rfl)
  | erase => exact absurd rfl he
  | tune d vals => exact if_neg (by rintro rfl; exact ht vals rfl)
  | clear d => exact if_neg (by rintro rfl; exact hc rfl)

/-- Tunes of a circuit take effect in their order, as one TUNE of all of their values would. -/
theorem takeAll_tunes {c : Circuit} {os : List TrackOp} (ho : OnlyTunes c os) {k : CircuitData} {r : TcRecord}
    (h : k.live = some r) : Retuned r (pendingTunes c os) (∃ vals, .tune c vals ∈ os) k (k.takeAll c os) := by
  induction os generalizing k r with
  | nil => exact (Retuned.refl h).mono (by simp)
  | cons o os ih =>
    have hos : OnlyTunes c os := fun p hp => ho p (List.mem_cons_of_mem _ hp)
    obtain ⟨hl, he, hc⟩ := ho o (by simp)
    rw [takeAll_cons]
    by_cases ht : ∃ vals, o = .tune c vals
    · obtain ⟨vals, rfl⟩ := ht
      have h₁ := Retuned.of_tune h vals
      rw [onCircuit_tune]
      have hp : pendingTunes c (.tune c vals :: os) = vals ++ pendingTunes c os := by simp [pendingTunes]
      rw [hp]
      exact (h₁.trans (ih hos h₁.live)).mono (by simp)
    · have hne : ∀ vals, o ≠ .tune c vals := fun vals hv => ht ⟨vals, hv⟩
      rw [onCircuit_of_other hl he hne hc]
      have hp : pendingTunes c (o :: os) = pendingTunes c os := by
        cases o with
        | tune d vals => simp [pendingTunes, show d ≠ c by rintro rfl; exact hne vals rfl]
        | _ => rfl
      rw [hp]
      exact (ih hos h).mono (by simp [fun vals => Ne.symm (hne vals)])

/-! ERASE. -/

/-- A circuit disabled, without a record in force, and not STALE. -/
def CircuitData.Erased (k : CircuitData) : Prop :=
  k.state = .disabled ∧ k.live = none ∧ k.stale = false

theorem disable_erased (k : CircuitData) : k.disable.Erased :=
  ⟨rfl, rfl, rfl⟩

/-- Without a new record an erased circuit stays as it is: tuning and clearing find nothing. -/
theorem takeAll_erased {c : Circuit} {os : List TrackOp} (ho : ∀ o ∈ os, ∀ r, o ≠ .load c r) {k : CircuitData}
    (h : k.Erased) : (k.takeAll c os).Erased := by
  induction os generalizing k with
  | nil => exact h
  | cons o os ih =>
    refine ih (fun p hp => ho p (List.mem_cons_of_mem _ hp)) ?_
    obtain ⟨hs, hl, hstale⟩ := h
    cases o with
    | load d r =>
      have hd : d ≠ c := by rintro rfl; exact ho (.load d r) (by simp) r rfl
      simpa only [TrackOp.onCircuit, if_neg hd] using ⟨hs, hl, hstale⟩
    | erase => exact disable_erased k
    | tune d vals =>
      have ht : k.takeTune vals = k := by simp only [CircuitData.takeTune, hl]
      simpa only [TrackOp.onCircuit, ht, ite_self] using ⟨hs, hl, hstale⟩
    | clear d =>
      have hc : k.takeClear = k := by simp only [CircuitData.takeClear, hs]
      simpa only [TrackOp.onCircuit, hc, ite_self] using ⟨hs, hl, hstale⟩

/-! CLEAR. -/

theorem takeClear_latched {k : CircuitData} (h : k.state = .failed .joint ∨ k.state = .failed .proof) :
    k.takeClear = k.enter .occupied := by
  obtain h | h := h <;> simp only [CircuitData.takeClear, h]

theorem takeClear_other {k : CircuitData} (hj : k.state ≠ .failed .joint) (hp : k.state ≠ .failed .proof) :
    k.takeClear = k := by
  unfold CircuitData.takeClear
  split
  · exact absurd ‹_› hj
  · exact absurd ‹_› hp
  · rfl

/-! #### What the frame start hands on -/

section
variable {s : State}

theorem commit_track_entries (s : State) (k : TrackUnit) (es : List RegBody) :
    (commit s ((s.setTrack k).enterAll .track es)).inbox.entries = s.inbox.entries ++ es.map (RegUnit.track, ·) :=
  commit_entries_of_sections s ((s.setTrack k).enterAll .track es) rfl rfl

/-- A frame start makes the entries of its requests, and no other. -/
theorem scanFrameStart_entries (s : State) : (commit (handWaiting s) (startFrame s (handWaiting s))).inbox.entries =
    s.inbox.entries ++ s.startWork.entries.map (RegUnit.track, ·) := by
  have hw : (handWaiting s).inbox.entries = s.inbox.entries := by
    unfold handWaiting
    split
    · rfl
    · exact handEach_keeps (fun t => t.inbox.entries = s.inbox.entries)
        (fun t w h => (commit_entries_of_sections t (t.withCircuits w) rfl rfl).trans h) _ _ rfl
  rw [startFrame_eq, commit_track_entries, hw]

/-- What a frame start leaves of a circuit as its requests have made it. -/
theorem started_eq (s : State) (c : Circuit) : ∃ p f ms, s.started c =
    { (s.circuit c).takeAll c s.track.ops with applied := p, feed := f, masks := ms, taken := none, retuned := false } := by
  rw [← startWork_circuit]
  exact setFeed_eq _ _ _ c

/-- A circuit's changes among those of a list of distinct circuits. -/
theorem filterMap_trackWas (f : Circuit → TrackState) (c : Circuit) (cs : List Circuit) (h : cs.Nodup) :
    (cs.map fun d => Change.track d (f d)).filterMap (·.trackWas c) = if c ∈ cs then [f c] else [] := by
  induction cs with
  | nil => rfl
  | cons d cs ih =>
    obtain ⟨hd, hcs⟩ := List.nodup_cons.1 h
    rw [List.map_cons, List.filterMap_cons, ih hcs]
    by_cases hdc : d = c
    · subst hdc
      simp [Change.trackWas, hd]
    · simp [Change.trackWas, hdc, Ne.symm hdc]

/-- The end of a step hands on the change it makes of a circuit, if it makes one. -/
theorem commit_trackWas {s u : State} (h : u.inbox.changes = s.inbox.changes) (c : Circuit) :
    (commit s u).inbox.changes.filterMap (·.trackWas c) = s.inbox.changes.filterMap (·.trackWas c) ++
      if (s.circuit c).state ≠ (u.circuit c).state then [(s.circuit c).state] else [] := by
  have hnd : (changedCircuits s u).Nodup := (List.nodup_finRange 20).filter _
  have hl : ((changedLevers s u).map Change.lever).filterMap (·.trackWas c) = [] := by
    simp [Change.trackWas]
  have hx : ((changedSections s u).map fun x => Change.sec x (s.section_ x).state).filterMap (·.trackWas c) = [] := by
    simp [Change.trackWas]
  have hr : ((changedReleases s u).map Change.release).filterMap (·.trackWas c) = [] := by
    simp [Change.trackWas]
  rw [commit_changes, h, List.filterMap_append, changesFor, List.filterMap_append, List.filterMap_append,
    List.filterMap_append, hl, hx, hr, filterMap_trackWas _ c _ hnd]
  simp only [List.nil_append, List.append_nil, mem_changedCircuits]

end

theorem withCircuits_circuit (s : State) (w : StartWork) (c : Circuit) :
    (commit s (s.withCircuits w)).circuit c = w.circuits[c] := rfl

theorem withCircuits_trackWas (s : State) (w : StartWork) (c : Circuit) :
    (commit s (s.withCircuits w)).inbox.changes.filterMap (·.trackWas c) = s.inbox.changes.filterMap (·.trackWas c) ++
      if (s.circuit c).state ≠ (w.circuits[c]).state then [(s.circuit c).state] else [] :=
  commit_trackWas (s := s) (u := s.withCircuits w) rfl c

/-! #### Single requests -/

section
variable {s : State} {c : Circuit} {r : TcRecord}

theorem startWork_of_single {o : TrackOp} (h : s.track.ops = [o]) : s.startWork = (startWork s.track).apply o := by
  rw [State.startWork, h]
  rfl

/-- A record that takes effect begins on its own feed: its circuit is fresh, so not chosen for proof, and not masked for a
reversal (R47, R53, R54). -/
theorem started_load (h : s.track.ops = [.load c r]) : s.startProof.2.2 ≠ some c ∧ ∃ p ms, .reversal ∉ ms ∧ s.started c =
    { (s.circuit c).takeRecord r with applied := some p, feed := some p, masks := ms, taken := none, retuned := false } := by
  have hw := startWork_of_single h
  have hk : s.startWork.circuits[c] = (s.circuit c).takeRecord r := by
    rw [hw, apply_circuit, onCircuit_load]
    rfl
  have hfresh : c ∈ s.startWork.fresh := by rw [hw]; exact (mem_addOnce c c []).2 (.inr rfl)
  have hp : s.startProof.2.2 ≠ some c := fun hp => by
    have he := chooseProof_eligible _ _ _ _ hp
    simp [eligible, hfresh] at he
  have hl : s.startWork.circuits[c].live = some r := by rw [hk]; rfl
  have hf : s.started c = _ := setFeed_of_fed hl hp
  refine ⟨hp, _, _, ?_, by rw [hf, hk]⟩
  have hm := (mem_masks_setFeed (g := s.startReversal.1) (proof := s.startProof.2.2) hl).2.2.2
  rw [setFeed_of_fed hl hp, hk] at hm
  exact fun hrev => (hm.1 hrev).2.1 hfresh

theorem startWork_entries_load (h : s.track.ops = [.load c r]) :
    s.startWork.entries = trackEntry c (s.circuit c).state .occupied := by
  rw [startWork_of_single h]
  exact List.nil_append _

/-- An erased circuit is off, whatever else waited (R47). -/
theorem started_erased (h : ((s.circuit c).takeAll c s.track.ops).Erased) : (s.started c).state = .disabled ∧
    (s.started c).live = none ∧ (s.started c).feed = none ∧ (s.started c).stale = false := by
  rw [← startWork_circuit] at h
  obtain ⟨hs, hl, hstale⟩ := h
  have hf : s.started c = _ := setFeed_of_none hl
  rw [hf]
  exact ⟨hs, hl, rfl, hstale⟩

theorem mem_tuned_tune {vals : List (TcField × Nat)} (h : s.track.ops = [.tune c vals]) :
    c ∈ s.startWork.tuned ↔ ∃ e ∈ vals, e.1 = .coarse ∨ e.1 = .fine ∨ e.1 = .window ∨ e.1 = .ref := by
  have hm : ∀ f : TcField, f.masks = true ↔ f = .coarse ∨ f = .fine ∨ f = .window ∨ f = .ref := fun f => by
    cases f <;> simp [TcField.masks]
  have ht : s.startWork.tuned = if vals.any (·.1.masks) then addOnce c [] else [] := by
    rw [startWork_of_single h]
    rfl
  have hany : vals.any (·.1.masks) = true ↔ ∃ e ∈ vals, e.1 = .coarse ∨ e.1 = .fine ∨ e.1 = .window ∨ e.1 = .ref := by
    simp only [List.any_eq_true, hm]
  rw [ht, ← hany]
  split
  · exact iff_of_true ((mem_addOnce c c []).2 (.inr rfl)) ‹_›
  · exact iff_of_false List.not_mem_nil ‹_›

/-! #### An erase and a load of the same circuit (R75) -/

/-- A circuit erased and loaded at one frame start changes twice, and each change is handed on. -/
theorem erase_load_handed (ho : s.track.ops = [.erase, .load c r]) (hst : (s.circuit c).state ≠ .disabled)
    (hw : handWaiting s = handEach (startWork s.track) s.track.ops s) :
    ∃ s₁, Onward s s₁ ∧ (s₁.circuit c).state = .disabled ∧ Onward s₁ (commit (handWaiting s) (startFrame s (handWaiting s))) ∧
      (commit (handWaiting s) (startFrame s (handWaiting s))).inbox.changes.filterMap (·.trackWas c) =
        s.inbox.changes.filterMap (·.trackWas c) ++ [(s.circuit c).state, .disabled] := by
  obtain ⟨w₁, hw₁⟩ : ∃ w, w = (startWork s.track).apply .erase := ⟨_, rfl⟩
  obtain ⟨w₂, hw₂⟩ : ∃ w, w = w₁.apply (.load c r) := ⟨_, rfl⟩
  obtain ⟨s₁, hs₁⟩ : ∃ s₁, s₁ = commit s (s.withCircuits w₁) := ⟨_, rfl⟩
  have hwait : handWaiting s = commit s₁ (s₁.withCircuits w₂) := by
    rw [hw, ho, hs₁, hw₂, hw₁]
    rfl
  have hdis : (w₁.circuits[c]).state = .disabled := by
    rw [hw₁, apply_circuit]
    rfl
  have hocc : (w₂.circuits[c]).state = .occupied := by
    rw [hw₂, apply_circuit, onCircuit_load]
    rfl
  have hlast : ((startFrame s (handWaiting s)).circuit c).state = .occupied := by
    have hk : (startFrame s (handWaiting s)).circuit c = s.started c := startTrack_circuit c
    obtain ⟨p, f, ms, hf⟩ := started_eq s c
    rw [hk, hf, ho, takeAll_cons, takeAll_cons, onCircuit_load]
    rfl
  have h₁ : (s₁.circuit c).state = .disabled := by rw [hs₁, withCircuits_circuit, hdis]
  have h₂ : ((handWaiting s).circuit c).state = .occupied := by rw [hwait, withCircuits_circuit, hocc]
  refine ⟨s₁, hs₁ ▸ Onward.commit (by simp [State.withCircuits]), h₁, ?_, ?_⟩
  · have hon : Onward s₁ (handWaiting s) := hwait ▸ Onward.commit (by simp [State.withCircuits])
    exact hon.trans (Onward.commit (startFrame_leaves s _))
  · have h₃ := commit_trackWas (startFrame_leaves s (handWaiting s) .changes (by simp)) c
    rw [hlast, h₂, if_neg (not_not.2 rfl), List.append_nil] at h₃
    rw [h₃, hwait, withCircuits_trackWas, h₁, hocc, if_pos (by simp), hs₁, withCircuits_trackWas, hdis, if_pos hst,
      List.append_assoc]
    rfl

end

/-- Settles O20: what the requests make of a circuit, the feed and masks of the frame, and what is handed on. -/
theorem waitingRequestsTakeEffect : Obligations.WaitingRequestsTakeEffect := by
  intro s hv hs
  obtain ⟨hx, hw⟩ := scanFrameStart_starts hv hs
  have hent := scanFrameStart_entries s
  have ht : (commit (handWaiting s) (startFrame s (handWaiting s))).track = s.startTrack := rfl
  have hc : ∀ c, (commit (handWaiting s) (startFrame s (handWaiting s))).circuit c = s.started c := startTrack_circuit
  have hboth := fun c r ho hst => erase_load_handed (s := s) (c := c) (r := r) ho hst hw
  refine ⟨_, hx, ?_⟩
  generalize commit (handWaiting s) (startFrame s (handWaiting s)) = t at ht hc hent hboth ⊢
  simp -zeta only [hc, ht, hent]
  refine ⟨rfl, fun c => ?_, fun c r ho => ?_, fun ho => ?_, fun c vals r ho hl => ?_, fun c ho => ?_, fun c => ?_⟩
  · obtain ⟨p, f, ms, h⟩ := started_eq s c
    rw [h]
  · obtain ⟨hp, p, ms, hms, hk⟩ := started_load ho
    have hm : c ∈ s.startTrack.toMeasure := by
      rw [mem_startTrack_toMeasure, hk]
      exact Option.some_ne_none r
    rw [hk, startWork_entries_load ho]
    refine ⟨rfl, rfl, rfl, rfl, rfl, rfl, rfl, rfl, hms, hp, rfl, Option.some_ne_none p, hm, fun f hf => ?_, fun hf => ?_⟩
    · rw [hf]
      rfl
    · cases hst : (s.circuit c).state with
      | failed f => exact absurd hst (hf f)
      | _ => exact List.append_nil _
  · have he : ∀ c, ((s.circuit c).takeAll c s.track.ops).Erased := fun c => by rw [ho]; exact disable_erased _
    refine ⟨?_, ?_, fun c => ?_⟩
    · refine List.eq_nil_iff_forall_not_mem.2 fun c hm => ?_
      exact (mem_startTrack_toMeasure c).1 hm (started_erased (he c)).2.1
    · rw [startWork_of_single ho]
      exact List.append_nil _
    · obtain ⟨hst, hl, hf, hstale⟩ := started_erased (he c)
      obtain ⟨p, f, ms, hk⟩ := started_eq s c
      exact ⟨hst, hl, hf, by rw [hk, ho]; rfl, hstale⟩
  · obtain ⟨p, f, ms, hk⟩ := started_eq s c
    have hone : (s.circuit c).takeAll c s.track.ops = (s.circuit c).takeTune vals := by
      rw [ho, takeAll_cons, onCircuit_tune]
      rfl
    have hlive : s.startWork.circuits[c].live = some (r.setAll vals) := by
      rw [startWork_circuit, hone, takeTune_of_live hl]
    have hmask : .tune ∈ (s.started c).masks ↔ c ∈ s.startWork.tuned := (mem_masks_setFeed hlive).2.2.1
    refine ⟨?_, ?_, ?_, ?_, hmask.trans (mem_tuned_tune ho), fun hr => ?_, fun hr => ?_⟩
    all_goals rw [hk, hone, takeTune_of_live hl]
    · simp [retunesRef_iff.2 hr]
    · simp [retunesRef_false.2 hr]
  · obtain ⟨p, f, ms, hk⟩ := started_eq s c
    have hone : (s.circuit c).takeAll c s.track.ops = (s.circuit c).takeClear := by
      rw [ho, takeAll_cons, onCircuit_clear]
      rfl
    have he : s.startWork.entries = trackEntry c (s.circuit c).state (s.circuit c).takeClear.state := by
      rw [startWork_of_single ho]
      exact List.nil_append _
    rw [hk, hone, he]
    refine ⟨?_, fun h => ?_, fun hj hp => ?_⟩
    · dsimp only
      unfold CircuitData.takeClear
      split <;> rfl
    · rw [takeClear_latched h]
      refine ⟨rfl, rfl, rfl, rfl, ?_⟩
      obtain h | h := h <;> rw [h] <;> rfl
    · rw [takeClear_other hj hp, trackEntry_self]
      exact ⟨rfl, List.append_nil _⟩
  · intro values onlyTunes
    have hvalues : ∀ os, values os = pendingTunes c os := fun os => (pendingTunes_eq c os).symm
    simp only [hvalues]
    obtain ⟨p, f, ms, hk⟩ := started_eq s c
    refine ⟨fun r hl ho => ?_, fun before r after ho hafter => ?_, fun before after ho hafter => ?_, fun r ho hst => ?_⟩
    · have hT := takeAll_tunes ho hl
      rw [hk]
      refine ⟨hT.live, hT.state, fun hr => ?_, fun hr => ?_⟩
      · exact hT.q.trans (if_pos (retunesRef_iff.2 hr))
      · exact hT.q.trans (if_neg (by rw [retunesRef_false.2 hr]; exact Bool.false_ne_true))
    · have hT := takeAll_tunes (k := ((s.circuit c).takeAll c before).takeRecord r) hafter rfl
      have hall : (s.circuit c).takeAll c s.track.ops =
          (((s.circuit c).takeAll c before).takeRecord r).takeAll c after := by
        rw [ho, takeAll_append, takeAll_cons, onCircuit_load]
      rw [hk, hall]
      refine ⟨hT.state, hT.live, ?_, hT.published, hT.low.trans (ite_self 0), hT.high.trans (ite_self 0),
        hT.reverse.trans (ite_self 0), by simpa [CircuitData.takeRecord] using hT.stale⟩
      cases hr : retunesRef (pendingTunes c after) with
      | true => exact hT.q.trans (if_pos hr)
      | false =>
        refine (hT.q.trans (if_neg (by rw [hr]; exact Bool.false_ne_true))).trans ?_
        rw [TcRecord.setAll_ref hr]
        rfl
    · refine started_erased ?_
      rw [ho, takeAll_append, takeAll_cons]
      exact takeAll_erased hafter (disable_erased _)
    · obtain ⟨s₁, hon₁, hdis, hon₂, hchanges⟩ := hboth c r ho hst
      refine ⟨hchanges, fun hcls => ?_, fun x sr rest hrec harr hclear => ?_⟩
      · refine hon₂.reports.1 (hon₁.reports.2 (.tc c) ?_ ?_)
        · rw [ItemChanged, hdis]
          exact hst
        · rw [hon₁.classes]
          exact hcls
      · obtain ⟨a, ha, hf⟩ := hon₁.autoTol
        obtain ⟨b, hb, -⟩ := hon₂.autoTol
        have harrival : s₁.arrivalOf x = c :: rest := by
          rw [State.arrivalOf, hon₁.sections, hrec]
          exact harr
        rw [hb, ha]
        exact List.mem_append_left _ (List.mem_append_right _
          ((hf x).1 ⟨c, rest, harrival, hclear, by rw [hdis]; exact TrackState.noConfusion⟩))

end Sys2Proof.Machine
end

section
/-! ### The lines that are no request (R145 to R149, R151) -/

namespace Sys2Proof.Machine

/-! #### Characters (R145, R146) -/

section
variable {s : State}

/-- A character is the link's alone, so the end of its step hands on nothing. -/
theorem exec_characterReceived (h : s.resetHeld = false) (ch : RxChar) :
    exec (.characterReceived ch) s = .next (s.setLink (s.link.receive ch)) := by
  show Host.Outcome.next (commit s (characterReceived ch s)) = _
  rw [characterReceived, h, if_neg Bool.false_ne_true]
  exact congrArg _ (commit_eq_self rfl rfl rfl rfl rfl)

end

section
variable {k : Link}

theorem receive_lineFeed : k.receive (.byte 10#8) = k := rfl

theorem receive_return : k.receive (.byte 13#8) = k.finishLine := rfl

theorem receive_char {b : BitVec 8} (hf : b ≠ 10#8) (hr : b ≠ 13#8) :
    k.receive (.byte b) = k.addChar (some (Char.ofNat b.toNat)) := by
  simp only [Link.receive, if_neg hf, if_neg hr, charOf]

theorem addChar_queue (c : Option Char) : (k.addChar c).queue = k.queue := by
  unfold Link.addChar
  split
  · rfl
  · cases c <;> rfl

theorem addChar_within (h : k.count < 120) (c : Char) :
    k.addChar (some c) = { k with count := k.count + 1, building := k.building ++ [c] } :=
  if_neg (show ¬120 < k.count + 1 by omega)

theorem addChar_framing (h : k.count < 120) : k.addChar none = { k with count := k.count + 1, framing := true } :=
  if_neg (show ¬120 < k.count + 1 by omega)

/-- A character past the 120th makes the line long. -/
theorem addChar_past (h : 120 ≤ k.count) (c : Option Char) :
    k.addChar c = { k with count := 121, long := true, building := [] } :=
  if_pos (show 120 < k.count + 1 by omega)

theorem finishLine_empty (h : k.count = 0) : k.finishLine = k := if_pos h

theorem finishLine_queued (h : k.count ≠ 0) (hq : k.queue.length < 2) :
    k.finishLine = { k.emptyLine with queue := k.queue ++ [⟨k.finished, 0⟩] } :=
  (if_neg h).trans (if_neg (show ¬2 ≤ k.queue.length by omega))

theorem finishLine_discarded (h : k.count ≠ 0) (hq : 2 ≤ k.queue.length) :
    k.finishLine = { k.emptyLine with queue := raiseTally k.queue, heldWords := [] } :=
  (if_neg h).trans (if_pos hq)

/-- A finished line leaves an empty one behind. -/
theorem finishLine_building (h : k.count ≠ 0) : k.finishLine.building = [] ∧ k.finishLine.count = 0 ∧
    k.finishLine.long = false ∧ k.finishLine.framing = false := by
  by_cases hq : k.queue.length < 2
  · rw [finishLine_queued h hq]
    exact ⟨rfl, rfl, rfl, rfl⟩
  · rw [finishLine_discarded h (by omega)]
    exact ⟨rfl, rfl, rfl, rfl⟩

theorem finished_long (h : k.long = true) : k.finished = .long := by
  simp [Link.finished, h]

theorem finished_badCheck (hl : k.long = false) (h : k.framing = true ∨ lineText? k.building = none) :
    k.finished = .badCheck := by
  rw [Link.finished, hl, if_neg Bool.false_ne_true]
  obtain h | h := h
  · rw [if_pos h]
  · simp only [h, ite_self]

end

/-! #### The line at the front -/

/-- The front line may be handled: nothing is to be sent before its reply (R147, R157). -/
abbrev State.lineMayBeHandled (s : State) : Prop :=
  s.link.slot = none ∧ s.link.owed = 0 ∧ s.link.restart = .none

section
variable {s : State} {w : Waiting} {rest : List Waiting}

theorem front_of_queue (hf : s.lineMayBeHandled) (hq : s.link.queue = w :: rest) :
    s.front? = some (frontOf (s.isIn .powerUp) s.link.heldWords w.line) := by
  obtain ⟨hs, ho, hr⟩ := hf
  simp [State.front?, State.mayHandle, hs, ho, hr, hq]

/-- FAULTED_LINE answers a faulted front line with its refusal. -/
theorem faultedLine_replies {e : Err} (h : s.front? = some (.faulted e)) :
    ∃ t, exec .faultedLine s = .next t ∧ repliesWith e.words s t := by
  refine ⟨_, rfl, ?_⟩
  rw [faultedLine, h]
  exact repliesWith_commit (reply_replies _ s)

/-- UNKNOWN_KEYWORD answers a request of no row, and changes nothing but the line it was. -/
theorem unknownKeyword_answers {ws : List Text} (h : s.asks .unknownKeyword ws) :
    answersOnly .unknownKeyword (unknownRefusal s.service.state ws).words s := by
  have hu : unknownKeyword s = reply (unknownRefusal s.service.state ws).words s := by
    rw [unknownKeyword, show s.front? = some (.request .unknownKeyword ws) from h]
  exact ⟨_, rfl, hu ▸ repliesWith_commit (reply_replies _ s), hu ▸ (reply_leaves _ s).commit⟩

end

section
variable {v : ServiceState} {o : Text} {rest : List Text}

theorem unknownRefusal_word (h : lookup objectRows o = none) : unknownRefusal v (o :: rest) = .word := by
  simp only [unknownRefusal, h]

/-- A first word that needs an object word: refused by the state, or for the object word. -/
theorem unknownRefusal_object (h : o ∈ [W.SHOW, W.CLEAR, W.TUNE, W.RAW, W.ERASE]) :
    unknownRefusal v (o :: rest) = if acceptsObject o v then .form (objectField o) else .state := by
  have hl : lookup objectRows o ≠ none := by
    revert o
    decide
  simp only [unknownRefusal]
  cases hr : lookup objectRows o with
  | none => exact absurd hr hl
  | some rows => rfl

theorem acceptsObject_erase : acceptsObject W.ERASE v = inConfigure v := rfl

theorem acceptsObject_other (h : o ∈ [W.SHOW, W.CLEAR, W.TUNE, W.RAW]) : acceptsObject o v = afterPowerUp v := by
  have hne : o ≠ W.ERASE := by
    revert o
    decide
  rw [acceptsObject, if_neg hne]

end

/-! #### MORE lines and ?BUSY -/

/-- A line of a MORE run, outside POWER_UP, is held (R149). -/
theorem frontOf_more {held : List Text} {t : Text} (hok : textOk t = true) (hlen : 2 ≤ (splitOn ' ' t).length)
    (hlast : (splitOn ' ' t).getLast? = some W.MORE) :
    frontOf false held (.request t) = .held (splitOn ' ' t).dropLast := by
  have he : endsMore (splitOn ' ' t) = true := decide_eq_true ⟨hlen, hlast⟩
  simp [frontOf, frontOfText, hok, he]

theorem frontOf_malformed {powerUp : Bool} {held : List Text} {t : Text} (h : textOk t = false) :
    frontOf powerUp held (.request t) = .faulted (.form none) := by
  simp [frontOf, frontOfText, h]

/-- Settles O44: the characters by the link's own rules, and each faulted, unknown or MORE line by what stands at the
front. -/
theorem linesThatAreNoRequest : Obligations.LinesThatAreNoRequest := by
  constructor
  · intro s hr
    refine ⟨⟨_, exec_characterReceived hr _, receive_lineFeed⟩, fun b hf hcr => ?_, fun h => ?_, ?_⟩
    · refine ⟨_, exec_characterReceived hr _, ?_, fun h => ?_, fun h => ?_⟩
      all_goals rw [State.setLink_link, receive_char hf hcr]
      · exact addChar_queue _
      · rw [addChar_within h]
        exact ⟨rfl, rfl, rfl⟩
      · rw [addChar_past h]
        exact ⟨rfl, rfl⟩
    · refine ⟨_, exec_characterReceived hr _, ?_⟩
      rw [State.setLink_link, show s.link.receive .framingError = _ from addChar_framing h]
      exact ⟨rfl, rfl⟩
    · refine ⟨_, exec_characterReceived hr _, fun h => ?_, fun h => ?_⟩
      all_goals rw [State.setLink_link, receive_return]
      · exact finishLine_empty h
      · obtain ⟨hb, hc, hl, hfr⟩ := finishLine_building h
        refine ⟨hb, hc, hl, hfr, fun hq => ?_, fun a b hq => ?_⟩
        · rw [finishLine_queued h hq]
          exact ⟨fun hlong => by rw [finished_long hlong], fun hlong hbad => by rw [finished_badCheck hlong hbad]⟩
        · rw [finishLine_discarded h (by rw [hq]; exact le_refl 2), hq]
          exact ⟨rfl, rfl⟩
  · intro s free
    refine ⟨fun w rest hq hf => ⟨fun hl => ?_, fun hl => ?_, fun text hl hbad => ?_⟩, fun w ws ha hl => ?_,
      fun o rest ha => ⟨fun ho hv => ?_, fun ho hv => ?_, fun ho hv => ?_, fun ho hv => ?_, fun ho hv => ?_⟩,
      fun hs ho hr => ?_, fun text rest w hv hf hq hl hok hlen hlast => ?_⟩
    · exact faultedLine_replies (e := .long) (by rw [front_of_queue hf hq, hl]; rfl)
    · exact faultedLine_replies (e := .check) (by rw [front_of_queue hf hq, hl]; rfl)
    · exact faultedLine_replies (e := .form none) (by rw [front_of_queue hf hq, hl, frontOf_malformed hbad])
    · obtain ⟨t, hx, hrep, -⟩ := unknownKeyword_answers ha
      rw [unknownRefusal_word hl] at hrep
      exact ⟨t, hx, hrep⟩
    · have h := unknownKeyword_answers ha
      rw [unknownRefusal_object (by simp; tauto), acceptsObject_other (by simp; tauto), afterPowerUp_of hv, if_pos rfl,
        objectField, if_pos ho] at h
      exact h
    · subst ho
      have h := unknownKeyword_answers ha
      rw [unknownRefusal_object (by simp), acceptsObject_other (by simp), afterPowerUp_of hv, if_pos rfl] at h
      exact h
    · subst ho
      have h := unknownKeyword_answers ha
      rw [unknownRefusal_object (by simp), acceptsObject_erase, inConfigure_of hv, if_pos rfl] at h
      exact h
    · subst ho
      have h := unknownKeyword_answers ha
      rw [unknownRefusal_object (by simp), acceptsObject_erase, if_neg (by simpa [inConfigure] using hv)] at h
      exact h
    · have h := unknownKeyword_answers ha
      rw [unknownRefusal_object (by simp at ho ⊢; tauto), acceptsObject_other ho, hv, if_neg (by decide)] at h
      exact h
    · have hb : busyReply s = s.setLink { s.link.place Err.busy.words with owed := s.link.owed - 1 } :=
        if_pos (by simp [hs, ho, hr])
      refine ⟨_, rfl, ?_⟩
      rw [hb]
      exact ⟨rfl, rfl, rfl⟩
    · have hm : moreLine s = s.setLink { s.link.answer (success [W.MORE]) with
          heldWords := s.link.heldWords ++ (splitOn ' ' text).dropLast } := by
        have hp : s.isIn .powerUp = false := by simpa [State.isIn] using hv
        rw [moreLine, front_of_queue hf hq, hl, hp, frontOf_more hok hlen hlast]
      refine ⟨_, rfl, ?_⟩
      rw [hm]
      exact ⟨rfl, rfl, congrArg (List.drop 1) hq, by
        show s.link.frontTally = w.tally
        rw [Link.frontTally, hq]⟩

end Sys2Proof.Machine
end

section
/-! ### The texts of TC, TIMES, CODE and LAMP (R45, R46, R80, R85, R133, R137, R148, R150) -/

namespace Sys2Proof.Machine

/-! #### Names and values -/

/-- Names with their values as a request writes them. -/
def namedWords {α β : Type} (name : α → Text) (word : α → β → Text) (vals : List (α × β)) : List Text :=
  vals.flatMap fun e => [name e.1, word e.1 e.2]

theorem valueWords_eq (vals : List (TcField × Nat)) :
    valueWords vals = namedWords (wordFor tcFieldTable) (fun _ => digits) vals := by
  induction vals with
  | nil => rfl
  | cons e vals ih => rw [valueWords, ih]; rfl

section
variable {α β : Type} [DecidableEq α] {unknown missing : Bool} {name? : Text → Option α} {value : α → Nat → Text → Parsed β}
  {f : α} {w v : Text}

/-- Names with their values, each name once, are read as they stand. -/
theorem namedValues_namedWords {name : α → Text} {word : α → β → Text} (hn : ∀ f, name? (name f) = some f)
    (vals : List (α × β)) (hv : ∀ e ∈ vals, ∀ pos, value e.1 pos (word e.1 e.2) = .ok e.2) (seen : List (α × β)) (pos : Nat)
    (hd : ((seen ++ vals).map (·.1)).Nodup) :
    namedValues unknown missing name? value seen pos (namedWords name word vals) = .ok (seen ++ vals) := by
  induction vals generalizing seen pos with
  | nil => simp [namedWords, namedValues]
  | cons e vals ih =>
    obtain ⟨f, v⟩ := e
    have hseen : seen.any (fun e => decide (e.1 = f)) = false := by
      rw [List.map_append, List.nodup_append] at hd
      rw [List.any_eq_false]
      intro e he
      simpa using hd.2.2 e.1 (List.mem_map_of_mem he) f (by simp)
    have ih := ih (fun e he => hv e (List.mem_cons_of_mem _ he)) (seen ++ [(f, v)]) (pos + 2) (by simpa using hd)
    rw [List.append_assoc] at ih
    show namedValues _ _ _ _ _ _ (name f :: word f v :: namedWords name word vals) = _
    simp only [namedValues, hn, hseen, Bool.false_eq_true, if_false, hv (f, v) (by simp)]
    exact ih

theorem namedValues_unknown {seen : List (α × β)} {pos : Nat} {rest : List Text} (h : name? w = none) :
    namedValues true missing name? value seen pos (w :: rest) = .error (.form (some pos)) := by
  cases rest <;> simp [namedValues, h]

theorem namedValues_missing {pos : Nat} (h : name? w = some f) :
    namedValues unknown true name? value [] pos [w] = .error (.form (some (pos + 1))) := by
  simp [namedValues, h]

theorem namedValues_badValue {pos : Nat} {rest : List Text} {e : Err} (h : name? w = some f)
    (hv : value f (pos + 1) v = .error e) :
    namedValues unknown missing name? value [] pos (w :: v :: rest) = .error e := by
  simp [namedValues, h, hv]

theorem namedValues_twice {pos : Nat} {rest : List Text} {y : β} (h : name? w = some f)
    (hv : value f (pos + 1) v = .ok y) :
    namedValues unknown missing name? value [] pos (w :: v :: w :: rest) = .error (.conflict (pos + 2)) := by
  cases rest <;> simp [namedValues, h, hv]

end

theorem clampNat_inside {lo hi n : Nat} (hl : lo ≤ n) (hh : n ≤ hi) : clampNat lo hi n = n := by
  rw [clampNat_eq (hl.trans hh)]
  omega

/-! #### TC: values -/

/-- A value that the request reads as it stands: PHASE, INV and GROUP have a range (R46). -/
def TcField.reads (f : TcField) (n : Nat) : Prop :=
  match f with
  | .phase => n ≤ 6
  | .group => n ≤ 7
  | .inv => n ≤ 1
  | _ => True

theorem tcValue_digits {f : TcField} {n : Nat} (h : f.reads n) (pos : Nat) : tcValue f pos (digits n) = .ok n := by
  cases f with
  | phase => exact numberIn_inside (Nat.zero_le n) h
  | group => exact numberIn_inside (Nat.zero_le n) h
  | inv =>
    have h : ¬1 < n := Nat.not_lt.2 h
    simp only [tcValue, number_digits, parsed_ok_bind, h, decide_false, refuseIf_false]
    rfl
  | _ => exact number_digits pos n

theorem tcValue_bad {f : TcField} {pos : Nat} {w : Text} (h : decimal? w = none) :
    tcValue f pos w = .error (.form (some pos)) := by
  have hn : number pos w = .error (.form (some pos)) := number_bad h
  cases f with
  | phase | group => simp only [tcValue, numberIn, hn]
  | inv => simp only [tcValue, hn, parsed_error_bind]
  | _ => exact hn

theorem tcValue_phase {pos k : Nat} (h : 6 < k) : tcValue .phase pos (digits k) = .error (.range (some pos)) :=
  numberIn_outside (.inr h)

theorem tcValue_group {pos k : Nat} (h : 7 < k) : tcValue .group pos (digits k) = .error (.range (some pos)) :=
  numberIn_outside (.inr h)

theorem tcValue_inv {pos k : Nat} (h : 1 < k) : tcValue .inv pos (digits k) = .error (.form (some pos)) := by
  simp only [tcValue, number_digits, parsed_ok_bind, h, decide_true, refuseIf_true, parsed_error_bind]

/-- The fields of a record with their values, in the order of the record table. -/
def TcRecord.fields (r : TcRecord) : List (TcField × Nat) :=
  [(.coarse, r.coarse), (.fine, r.fine), (.window, r.window), (.ref, r.ref), (.drop, r.drop), (.pick, r.pick),
    (.floor, r.floor), (.low, r.low), (.joint, r.joint), (.dropf, r.dropf), (.pickf, r.pickf), (.phase, r.phase),
    (.inv, r.inv), (.group, r.group)]

theorem tcValueWords_eq (r : TcRecord) : tcValueWords r = valueWords r.fields := rfl

theorem setAll_fields (r given : TcRecord) : given.setAll r.fields = r := by
  simp only [TcRecord.fields, TcRecord.setAll, TcRecord.set]

theorem nodup_fields (r : TcRecord) : (r.fields.map (·.1)).Nodup := by
  show [TcField.coarse, .fine, .window, .ref, .drop, .pick, .floor, .low, .joint, .dropf, .pickf, .phase, .inv, .group].Nodup
  decide

theorem reads_fields {r : TcRecord} (hp : r.phase ≤ 6) (hi : r.inv ≤ 1) (hg : r.group ≤ 7) : ∀ e ∈ r.fields, e.1.reads e.2 := by
  simp [TcRecord.fields, TcField.reads, hp, hi, hg]

theorem clampCoarse_listed {n : Nat} (h : n = 1 ∨ n = 2 ∨ n = 4 ∨ n = 8) : clampCoarse n = n := by
  obtain rfl | rfl | rfl | rfl := h <;> rfl

/-- A record with every value in its range is clamped nowhere. -/
theorem clamp_valid {r : TcRecord} (h : r.valid) : r.clamp = r := by
  obtain ⟨hc, ⟨hf, hf'⟩, ⟨hw, hw'⟩, ⟨hr, hr'⟩, ⟨hd, hd'⟩, ⟨hp, hp'⟩, ⟨hfl, hfl'⟩, ⟨hl, hl'⟩, ⟨hj, hj'⟩, ⟨hdf, hdf'⟩, ⟨hpf, hpf'⟩, -⟩ := h
  simp only [TcRecord.clamp, clampField, clampCoarse_listed hc, clampNat_inside, *]

/-- One tunable value among defaults, but for DROP, moves no other. -/
theorem clamp_default_set {f : TcField} (h : f ∉ [TcField.drop, .phase, .inv, .group]) (v : Nat) :
    (TcRecord.default.set v f).clamp = TcRecord.default.set (clampField 96 f v) f := by
  cases f with
  | drop | phase | inv | group => simp at h
  | _ => rfl

theorem set_default_inj {f : TcField} {v w : Nat} : TcRecord.default.set v f = TcRecord.default.set w f ↔ v = w := by
  cases f <;> simp [TcRecord.set]

theorem clampField_eq {drop : Nat} (hd : drop ≤ 224) (f : TcField) (v : Nat) : clampField drop f v =
    match f with
    | .coarse => if v < 2 then 1 else if v < 4 then 2 else if v < 8 then 4 else 8
    | .fine => max 32 (min 63 v)
    | .window => max 8 (min 64 v)
    | .ref => max 20 (min 2500 v)
    | .drop => max 16 (min 224 v)
    | .pick => max (drop + 16) (min 240 v)
    | .floor => max 5 (min 500 v)
    | .low => max 10 (min 1000 v)
    | .joint => max 10 (min 500 v)
    | .dropf => max 1 (min 4 v)
    | .pickf => max 2 (min 100 v)
    | .phase | .inv | .group => v := by
  cases f with
  | coarse | phase | inv | group => rfl
  | pick => exact clampNat_eq (by omega)
  | _ => exact clampNat_eq (by decide)

/-! #### TC: the request -/

section
variable {s : State} {c : Circuit} {r : TcRecord} {vals : List (TcField × Nat)} {rest : List Text}

theorem loadTc_circuit (s : State) (c : Circuit) (r : TcRecord) (d : Circuit) :
    (loadTc c r s).circuit d = if d = c then { s.circuit c with stored := some r } else s.circuit d := by
  simp only [loadTc, State.circuit, State.setTrack_track, getElem_set_circuit, eq_comm]

theorem handleTc_values (hd : (vals.map (·.1)).Nodup) (hv : ∀ e ∈ vals, e.1.reads e.2)
    (hr : (TcRecord.default.setAll vals).clamp = r) :
    handleTc ([W.TC, ordinal c] ++ valueWords vals) s =
      .ok (loadTc c r s, tcWords c r ++ if r = TcRecord.default.setAll vals then [] else [W.CLAMPED]) := by
  have hi : indexAt 20 ([W.TC, ordinal c] ++ valueWords vals) 2 = .ok c := indexAt_ordinal rfl
  have hread : namedValues true true (lookup tcFieldTable) tcValue [] 3 (([W.TC, ordinal c] ++ valueWords vals).drop 2) =
      .ok vals := by
    rw [valueWords_eq]
    exact namedValues_namedWords (word := fun _ => digits) lookup_tcField vals
      (fun e he pos => tcValue_digits (hv e he) pos) [] 3 hd
  simp only [handleTc, hi, hread, parsed_ok_bind, hr, optional_ne]
  rfl

/-- TC accepted: the record read is stored, and waits for its frame start. -/
theorem tc_loaded (hs : s.service.state = .configure) (hd : (vals.map (·.1)).Nodup) (hv : ∀ e ∈ vals, e.1.reads e.2)
    (hr : (TcRecord.default.setAll vals).clamp = r) (ha : s.asks .tc ([W.TC, ordinal c] ++ valueWords vals)) :
    ∃ t, exec .tc s = .next t ∧
      repliesWith (success (tcWords c r) ++ if r = TcRecord.default.setAll vals then [] else [W.CLAMPED]) s t ∧
      t.circuit c = { s.circuit c with stored := some r } ∧ (∀ d, d ≠ c → t.circuit d = s.circuit d) ∧
      t.track.ops = (s.track.ops.filter fun o => !o.tunes c) ++ [.load c r] := by
  obtain ⟨hx, hrep⟩ := request_ok rfl ha (inConfigure_of hs) (handleTc_values hd hv hr)
    (by simp only [loadTc, State.setTrack_link])
  refine ⟨_, hx, hrep, ?_, fun d hd => ?_, ?_⟩
  · rw [commit_circuit, reply_circuit, loadTc_circuit, if_pos rfl]
  · rw [commit_circuit, reply_circuit, loadTc_circuit, if_neg hd]
  · rw [commit_track, reply_track, loadTc, State.setTrack_track]

/-- What a TC with values not all given stores and answers. -/
theorem tc_stored (hs : s.service.state = .configure) (hd : (vals.map (·.1)).Nodup) (hv : ∀ e ∈ vals, e.1.reads e.2)
    (hr : (TcRecord.default.setAll vals).clamp = r) (ha : s.asks .tc ([W.TC, ordinal c] ++ valueWords vals)) :
    ∃ t, exec .tc s = .next t ∧ (t.circuit c).stored = some r ∧
      repliesWith (success (tcWords c r) ++ if r = TcRecord.default.setAll vals then [] else [W.CLAMPED]) s t := by
  obtain ⟨t, hx, hrep, hc, -⟩ := tc_loaded hs hd hv hr ha
  exact ⟨t, hx, by rw [hc], hrep⟩

/-- The default record with another DROP and PICK. -/
theorem clamp_dropPick (v w : Nat) : ({ TcRecord.default with drop := v, pick := w } : TcRecord).clamp =
    { TcRecord.default with drop := clampField 0 .drop v, pick := clampField (clampField 0 .drop v) .pick w } := by
  simp [TcRecord.clamp, TcRecord.default, clampField, clampCoarse_listed, clampNat_inside]

theorem dropPick_eq_iff {a b v w : Nat} :
    ({ TcRecord.default with drop := a, pick := b } : TcRecord) = { TcRecord.default with drop := v, pick := w } ↔
      a = v ∧ b = w := by
  simp

theorem handleTc_index {ws : List Text} {e : Err} (h : indexAt 20 ws 2 = .error e) : handleTc ws s = .error e := by
  simp only [handleTc, h, parsed_error_bind]

theorem tc_refused (hs : s.service.state = .configure) {e : Err}
    (h : namedValues true true (lookup tcFieldTable) tcValue [] 3 rest = .error e) (ha : s.asks .tc (W.TC :: ordinal c :: rest)) :
    answersOnly .tc e.words s := by
  have hi : indexAt 20 (W.TC :: ordinal c :: rest) 2 = .ok c := indexAt_ordinal rfl
  have hd : (W.TC :: ordinal c :: rest).drop 2 = rest := rfl
  refine refused rfl ha (inConfigure_of hs) ?_ rfl
  simp only [handleTc, hi, hd, h, parsed_ok_bind, parsed_error_bind]

end

/-! #### TIMES: values -/

theorem lookup_times (f : TimesName) : lookup timesTable (wordFor timesTable f) = some f := by
  cases f <;> decide

/-- The values that are no number of a range: LOCALMODE and the three flags. -/
def TimesName.isFlag (f : TimesName) : Prop :=
  f ∈ [TimesName.localmode, .darkout, .rowrev, .colrev]

/-- The value of a name as a request writes it. -/
def timesWord (f : TimesName) (n : Nat) : Text :=
  match f with
  | .localmode => if n = 1 then W.FOLLOW else W.STROKE
  | _ => digits n

theorem timesWord_digits {f : TimesName} (h : f ≠ .localmode) (n : Nat) : timesWord f n = digits n := by
  cases f with
  | localmode => exact absurd rfl h
  | _ => rfl

theorem timesValue_flag {f : TimesName} (h : f ∈ [TimesName.darkout, .rowrev, .colrev]) (pos n : Nat) :
    timesValue f pos (digits n) = if n ≤ 1 then .ok n else .error (.form none) := by
  have hf : timesValue f pos (digits n) = (do
      let k ← bareForm (number pos (digits n))
      refuseIf (decide (1 < k)) (.form none)
      return k) := by
    simp only [List.mem_cons, List.not_mem_nil, or_false] at h
    obtain rfl | rfl | rfl := h <;> rfl
  rw [hf, number_digits, bareForm_ok, parsed_ok_bind]
  by_cases hn : n ≤ 1
  · rw [if_pos hn, decide_eq_false (Nat.not_lt.2 hn)]
    rfl
  · rw [if_neg hn, decide_eq_true (Nat.lt_of_not_le hn)]
    rfl

theorem timesValue_number {f : TimesName} (h : ¬f.isFlag) (pos : Nat) (t : Text) :
    timesValue f pos t = bareForm (number pos t) := by
  cases f with
  | localmode | darkout | rowrev | colrev => simp [TimesName.isFlag] at h
  | _ => rfl

theorem timesValue_word {f : TimesName} {n : Nat} (h : f.isFlag → n ≤ 1) (pos : Nat) :
    timesValue f pos (timesWord f n) = .ok n := by
  by_cases hf : f.isFlag
  · have hn := h hf
    simp only [TimesName.isFlag, List.mem_cons (b := TimesName.localmode)] at hf
    obtain rfl | hf := hf
    · interval_cases n <;> rfl
    · rw [timesWord_digits (by rintro rfl; simp at hf), timesValue_flag hf, if_pos hn]
  · rw [timesWord_digits (by rintro rfl; simp [TimesName.isFlag] at hf), timesValue_number hf, number_digits, bareForm_ok]

theorem timesValue_localmode {pos : Nat} {w : Text} (hf : w ≠ W.FOLLOW) (hs : w ≠ W.STROKE) :
    timesValue .localmode pos w = .error (.form none) := by
  simp only [timesValue, if_neg hf, if_neg hs]

theorem timesValue_bad {f : TimesName} {pos : Nat} {w : Text} (hf : f ≠ .localmode) (h : decimal? w = none) :
    timesValue f pos w = .error (.form none) := by
  have hn : bareForm (number pos w) = .error (.form none) := by rw [number_bad h, bareForm_form]
  cases f with
  | localmode => exact absurd rfl hf
  | darkout | rowrev | colrev => simp only [timesValue, hn, parsed_error_bind]
  | _ => exact hn

/-- The range of a value that is a number (R16, R48, R80, R98, R113, R119, R133). -/
def TimesName.range (f : TimesName) : Nat × Nat :=
  match f with
  | .travel => (5, 60)
  | .frame => (20, 250)
  | .reverse => (4, 64)
  | .proof => (5, 200)
  | .track => (4, 8)
  | .beatmin => (10, 100)
  | .beatmax => (150, 1000)
  | .join => (200, 1000)
  | .endWait => (1000, 5000)
  | .stroke => (20, 200)
  | .indstable => (100, 1000)
  | .emrel => (30, 600)
  | .codewin => (30, 600)
  | .div => (1, 16)
  | .flashms => (250, 1000)
  | .idle => (0, 120)
  | .localmode | .darkout | .rowrev | .colrev => (0, 1)

/-- A value clamped as TIMES stores it. -/
def TimesName.clamp (f : TimesName) (n : Nat) : Nat :=
  if f = .proof ∧ n = 0 then 0 else max f.range.1 (min f.range.2 n)

theorem clampProof_eq (n : Nat) : clampProof n = TimesName.proof.clamp n := by
  by_cases h : n = 0
  · simp [clampProof, TimesName.clamp, h]
  · simp [clampProof, TimesName.clamp, h, clampNat_eq, TimesName.range]

theorem get_set {f : TimesName} {n : Nat} (h : f.isFlag → n ≤ 1) (t : Times) : (t.set f n).get f = f.clamp n := by
  cases f with
  | proof => exact clampProof_eq n
  | localmode | darkout | rowrev | colrev =>
    have hn : n ≤ 1 := h (by simp [TimesName.isFlag])
    interval_cases n <;> rfl
  | _ =>
    simp only [Times.set, Times.get, TimesName.clamp, TimesName.range, reduceCtorEq, false_and, if_false]
    exact clampNat_eq (by decide)

theorem get_set_ne {f g : TimesName} (h : g ≠ f) (t : Times) (n : Nat) : (t.set f n).get g = t.get g := by
  cases g with
  | localmode =>
    cases f with
    | localmode => exact absurd rfl h
    | _ => rfl
  | _ => cases f <;> simp [Times.set, Times.get] at h ⊢

/-- A record is known by its values. -/
theorem times_ext {t u : Times} (h : ∀ f, t.get f = u.get f) : t = u := by
  have hm : t.localmode = u.localmode := by
    have := h .localmode
    cases ht : t.localmode <;> cases hu : u.localmode <;> simp [Times.get, ht, hu] at this ⊢
  obtain ⟨⟩ := t
  obtain ⟨⟩ := u
  simp only [Times.mk.injEq]
  exact ⟨h .travel, h .frame, h .reverse, h .proof, h .track, h .beatmin, h .beatmax, h .join, h .endWait, hm, h .stroke,
    h .indstable, h .emrel, h .codewin, h .div, h .flashms, h .idle, h .darkout, h .rowrev, h .colrev⟩

/-- Values set each once: the value given stands clamped, the others as they were. -/
theorem get_setAll (vals : List (TimesName × Nat)) (hd : (vals.map (·.1)).Nodup) (hv : ∀ e ∈ vals, e.1.isFlag → e.2 ≤ 1)
    (t : Times) : (∀ e ∈ vals, (t.setAll vals).get e.1 = e.1.clamp e.2) ∧
      ∀ g, g ∉ vals.map (·.1) → (t.setAll vals).get g = t.get g := by
  induction vals generalizing t with
  | nil => simp [Times.setAll]
  | cons e vals ih =>
    obtain ⟨f, n⟩ := e
    obtain ⟨hf, hd⟩ := List.nodup_cons.1 hd
    obtain ⟨hgiven, hother⟩ := ih hd (fun e he => hv e (List.mem_cons_of_mem _ he)) (t.set f n)
    refine ⟨fun e he => ?_, fun g hg => ?_⟩
    · obtain rfl | he := List.mem_cons.1 he
      · exact (hother _ hf).trans (get_set (hv (f, n) (by simp)) t)
      · exact hgiven e he
    · obtain ⟨hne, hg⟩ := not_or.1 (mt List.mem_cons.2 hg)
      exact (hother g hg).trans (get_set_ne hne t n)

/-- The names in the order of the record. -/
def timesNames : List TimesName := timesTable.map (·.2)

theorem mem_timesNames (f : TimesName) : f ∈ timesNames := by cases f <;> decide

/-- The values of a record, in the order of the record. -/
def Times.values (t : Times) : List (TimesName × Nat) := timesNames.map fun f => (f, t.get f)

theorem values_names (t : Times) : t.values.map (·.1) = timesNames := by
  simp only [Times.values, List.map_map, Function.comp_def, List.map_id']

theorem timesWords_eq (t : Times) : timesWords t = W.TIMES :: namedWords (wordFor timesTable) timesWord t.values := by
  obtain ⟨-, -, -, -, -, -, -, -, -, localmode⟩ := t
  cases localmode <;> rfl

theorem clamp_get {t : Times} (h : t.valid) (f : TimesName) : f.clamp (t.get f) = t.get f := by
  cases f with
  | localmode => cases hm : t.localmode <;> simp [Times.get, hm, TimesName.clamp, TimesName.range]
  | proof =>
    simp only [TimesName.clamp, TimesName.range, Times.get, true_and]
    split <;> omega
  | _ =>
    simp only [TimesName.clamp, TimesName.range, Times.get, reduceCtorEq, false_and, if_false]
    omega

theorem get_flag {t : Times} (h : t.valid) {f : TimesName} (hf : f.isFlag) : t.get f ≤ 1 := by
  rw [← clamp_get h f]
  simp only [TimesName.isFlag, List.mem_cons, List.not_mem_nil, or_false] at hf
  obtain rfl | rfl | rfl | rfl := hf <;> simp [TimesName.clamp, TimesName.range]

/-! #### TIMES: the request -/

theorem raiseEnd_eq_self {t : Times} (h : t.join + 200 ≤ t.endWait) : t.raiseEnd = t := if_neg (Nat.not_lt.2 h)

/-- A record's values load the record. -/
theorem timesOf_values {t : Times} (h : t.valid) : Times.reset.setAll t.values = t := by
  obtain ⟨hgiven, -⟩ := get_setAll t.values (by rw [values_names]; decide)
    (by simpa [Times.values] using fun f _ hf => get_flag h hf) .reset
  exact times_ext fun f => (hgiven (f, t.get f) (List.mem_map_of_mem (mem_timesNames f))).trans (clamp_get h f)

section
variable {s : State} {vals : List (TimesName × Nat)} {rest : List Text}

theorem handleTimes_values (hd : (vals.map (·.1)).Nodup) (hv : ∀ e ∈ vals, e.1.isFlag → e.2 ≤ 1) :
    handleTimes (W.TIMES :: namedWords (wordFor timesTable) timesWord vals) s =
      .ok (storeTimes (timesOf vals) s, timesWords (timesOf vals) ++ optional (timesClamped (timesOf vals) vals) W.CLAMPED) := by
  have hread : namedValues true true (lookup timesTable) timesValue [] 2
      ((W.TIMES :: namedWords (wordFor timesTable) timesWord vals).drop 1) = .ok vals :=
    namedValues_namedWords lookup_times vals (fun e he pos => timesValue_word (hv e he) pos) [] 2 hd
  simp only [handleTimes, hread, parsed_ok_bind]
  rfl

/-- TIMES accepted. -/
theorem times_loaded (hs : s.service.state = .configure) (hd : (vals.map (·.1)).Nodup)
    (hv : ∀ e ∈ vals, e.1.isFlag → e.2 ≤ 1)
    (ha : s.asks .times (W.TIMES :: namedWords (wordFor timesTable) timesWord vals)) :
    ∃ t, exec .times s = .next t ∧ t.times = timesOf vals ∧ t.timesLoaded = true ∧
      repliesWith (success (timesWords (timesOf vals)) ++ optional (timesClamped (timesOf vals) vals) W.CLAMPED) s t := by
  obtain ⟨hx, hrep⟩ := request_ok rfl ha (inConfigure_of hs) (handleTimes_values hd hv) rfl
  exact ⟨_, hx, rfl, rfl, hrep⟩

/-- TIMES with values that raise no END. -/
theorem times_loaded_unraised (hs : s.service.state = .configure) (hd : (vals.map (·.1)).Nodup)
    (hv : ∀ e ∈ vals, e.1.isFlag → e.2 ≤ 1)
    (he : (Times.reset.setAll vals).join + 200 ≤ (Times.reset.setAll vals).endWait)
    (ha : s.asks .times (W.TIMES :: namedWords (wordFor timesTable) timesWord vals)) :
    ∃ t, exec .times s = .next t ∧ t.times = Times.reset.setAll vals ∧ t.timesLoaded = true ∧
      repliesWith (success (timesWords t.times) ++
        if ∀ e ∈ vals, t.times.get e.1 = e.2 then [] else [W.CLAMPED]) s t := by
  obtain ⟨t, hx, ht, hl, hrep⟩ := times_loaded hs hd hv ha
  have hof : timesOf vals = Times.reset.setAll vals := raiseEnd_eq_self he
  refine ⟨t, hx, ht.trans hof, hl, ?_⟩
  rw [ht]
  convert hrep using 2
  simp only [optional, timesClamped, hof, ne_eq, not_true, decide_false, Bool.or_false]
  by_cases h : ∀ e ∈ vals, (Times.reset.setAll vals).get e.1 = e.2
  · rw [if_pos h, if_neg (by simpa using h)]
  · rw [if_neg h, if_pos (by simpa using h)]

theorem times_refused (hs : s.service.state = .configure) {e : Err}
    (h : namedValues true true (lookup timesTable) timesValue [] 2 rest = .error e) (ha : s.asks .times (W.TIMES :: rest)) :
    answersOnly .times e.words s := by
  have hd : (W.TIMES :: rest).drop 1 = rest := rfl
  refine refused rfl ha (inConfigure_of hs) ?_ rfl
  simp only [handleTimes, hd, h, parsed_error_bind]

end

section
variable {s : State} (hs : s.service.state = .configure)
include hs

/-! #### The clauses of TC and TIMES -/

theorem tc_canonical (c : Circuit) {r : TcRecord} (hr : r.valid) (ha : s.asks .tc (tcWords c r)) :
    ∃ t, exec .tc s = .next t ∧ repliesWith (success (tcWords c r)) s t ∧
      t.circuit c = { s.circuit c with stored := some r } ∧ (∀ d, d ≠ c → t.circuit d = s.circuit d) ∧
      t.track.ops = (s.track.ops.filter fun o => !o.tunes c) ++ [.load c r] := by
  obtain ⟨-, -, -, -, -, -, -, -, -, -, -, hp, hi, hg⟩ := id hr
  rw [tcWords, tcValueWords_eq] at ha
  have hload := tc_loaded hs (nodup_fields r) (reads_fields hp hi hg) (by rw [setAll_fields, clamp_valid hr]) ha
  rwa [setAll_fields, if_pos rfl, List.append_nil] at hload

/-- One value that the request reads, and the record it makes. -/
theorem tcValue_stored (c : Circuit) {f : TcField} (hf : f ∉ [TcField.drop, .phase, .inv, .group]) {v w : Nat}
    (hw : clampField 96 f v = w) (ha : s.asks .tc [W.TC, ordinal c, wordFor tcFieldTable f, digits v]) :
    ∃ t, exec .tc s = .next t ∧ (t.circuit c).stored = some (TcRecord.default.set w f) ∧
      repliesWith (success (tcWords c (TcRecord.default.set w f)) ++ if w = v then [] else [W.CLAMPED]) s t := by
  have hreads : f.reads v := by
    cases f with
    | phase | inv | group => simp at hf
    | _ => trivial
  obtain ⟨t, hx, hst, hrep⟩ := tc_stored (vals := [(f, v)]) hs (by simp) (by simpa using hreads)
    (hw ▸ clamp_default_set hf v) ha
  simp only [TcRecord.setAll, set_default_inj] at hrep
  exact ⟨t, hx, hst, hrep⟩

/-- A DROP, with the default PICK or one given, that PICK clamped after it. -/
theorem tcDrop_stored (c : Circuit) {vals : List (TcField × Nat)} {v w a b : Nat} (hd : (vals.map (·.1)).Nodup)
    (hv : ∀ e ∈ vals, e.1.reads e.2) (hset : TcRecord.default.setAll vals = { TcRecord.default with drop := v, pick := w })
    (hdrop : clampField 0 .drop v = a) (hpick : clampField a .pick w = b)
    (ha : s.asks .tc ([W.TC, ordinal c] ++ valueWords vals)) :
    ∃ t, exec .tc s = .next t ∧ (t.circuit c).stored = some { TcRecord.default with drop := a, pick := b } ∧
      repliesWith (success (tcWords c { TcRecord.default with drop := a, pick := b }) ++
        if a = v ∧ b = w then [] else [W.CLAMPED]) s t := by
  subst hdrop hpick
  obtain ⟨t, hx, hst, hrep⟩ := tc_stored hs hd hv (by rw [hset, clamp_dropPick]) ha
  simp only [hset, dropPick_eq_iff] at hrep
  exact ⟨t, hx, hst, hrep⟩

theorem times_canonical {v : Times} (hv : v.valid) (ha : s.asks .times (timesWords v)) :
    ∃ t, exec .times s = .next t ∧ repliesWith (success (timesWords v)) s t ∧ t.times = v ∧ t.timesLoaded = true := by
  have hall := timesOf_values hv
  obtain ⟨-, -, -, -, -, -, -, -, -, hend, -⟩ := id hv
  obtain ⟨t, hx, ht, hl, hrep⟩ := times_loaded_unraised (vals := v.values) hs (by rw [values_names]; decide)
    (by simpa [Times.values] using fun f _ hf => get_flag hv hf)
    (by rw [hall]; exact hend) (timesWords_eq v ▸ ha)
  rw [hall] at ht
  rw [ht, if_pos (by simp [Times.values]), List.append_nil] at hrep
  exact ⟨t, hx, hrep, ht, hl⟩

/-- One value given. -/
theorem timesValue_loaded {f : TimesName} {v : Nat} (hf : f.isFlag → v ≤ 1)
    (ha : s.asks .times [W.TIMES, wordFor timesTable f, timesWord f v]) :
    ∃ t, exec .times s = .next t ∧ t.times = Times.reset.set f v ∧ t.timesLoaded = true ∧
      repliesWith (success (timesWords t.times) ++ if t.times.get f = v then [] else [W.CLAMPED]) s t := by
  have hend : (Times.reset.set f v).join + 200 ≤ (Times.reset.set f v).endWait := by
    by_cases hj : f = .join
    · subst hj
      have h : clampNat 200 1000 v = max 200 (min 1000 v) := clampNat_eq (by decide)
      show clampNat 200 1000 v + 200 ≤ 1800
      omega
    · have h : (Times.reset.set f v).join = 450 := get_set_ne (Ne.symm hj) .reset v
      by_cases he : f = .endWait
      · subst he
        have h : clampNat 1000 5000 v = max 1000 (min 5000 v) := clampNat_eq (by decide)
        show 650 ≤ clampNat 1000 5000 v
        omega
      · have h' : (Times.reset.set f v).endWait = 1800 := get_set_ne (Ne.symm he) .reset v
        omega
  obtain ⟨t, hx, ht, hl, hrep⟩ := times_loaded_unraised (vals := [(f, v)]) hs (by simp) (by simpa using hf) hend ha
  simp only [List.mem_singleton, forall_eq] at hrep
  exact ⟨t, hx, ht, hl, hrep⟩

/-- JOIN and END given: END is raised to 200 ms past JOIN. -/
theorem timesJoinEnd_loaded {v w join endWait : Nat} (hj : join = max 200 (min 1000 v))
    (he : endWait = max (join + 200) (max 1000 (min 5000 w)))
    (ha : s.asks .times [W.TIMES, W.JOIN, digits v, W.END, digits w]) :
    ∃ t, exec .times s = .next t ∧ t.times = { Times.reset with join := join, endWait := endWait } ∧
      repliesWith (success (timesWords t.times) ++ if join = v ∧ endWait = w then [] else [W.CLAMPED]) s t := by
  have hjoin : clampNat 200 1000 v = join := hj ▸ clampNat_eq (by decide)
  have hend : clampNat 1000 5000 w = max 1000 (min 5000 w) := clampNat_eq (by decide)
  have hset : Times.reset.setAll [(.join, v), (.endWait, w)] =
      { Times.reset with join := join, endWait := max 1000 (min 5000 w) } := by
    rw [← hjoin, ← hend]
    rfl
  have hof : timesOf [(.join, v), (.endWait, w)] = { Times.reset with join := join, endWait := endWait } := by
    rw [timesOf, hset, Times.raiseEnd]
    split <;> simp only [Times.mk.injEq, true_and, and_true] at * <;> omega
  obtain ⟨t, hx, ht, hl, hrep⟩ := times_loaded (vals := [(.join, v), (.endWait, w)]) hs (by simp)
    (by simp [TimesName.isFlag]) ha
  rw [hof] at ht hrep
  refine ⟨t, hx, ht, ?_⟩
  rw [ht]
  convert hrep using 2
  have hc : timesClamped { Times.reset with join := join, endWait := endWait } [(.join, v), (.endWait, w)] =
      decide (¬(join = v ∧ endWait = w)) := by
    rw [Bool.eq_iff_iff, timesClamped, hset]
    have hany : ∀ x y : Nat, (decide (x ≠ v) || (decide (y ≠ w) || false)) = true ↔ x ≠ v ∨ y ≠ w := by simp
    rw [Bool.or_eq_true, decide_eq_true_eq, decide_eq_true_eq]
    refine (or_congr_left (hany join endWait)).trans ?_
    show _ ∨ max 1000 (min 5000 w) ≠ endWait ↔ _
    omega
  rw [hc, optional]
  by_cases h : join = v ∧ endWait = w <;> simp [h]

end

/-! #### Tables -/

theorem lookup_none {α : Type} {table : List (Text × α)} {w : Text} (h : w ∉ table.map (·.1)) : lookup table w = none := by
  induction table with
  | nil => rfl
  | cons e table ih =>
    obtain ⟨hne, h⟩ := not_or.1 (mt List.mem_cons.2 h)
    rw [lookup, if_neg (Ne.symm hne), ih h]

section
variable {α : Type} {f : Text → Option α} {ws : List Text} {pos : Nat} {w : Text}

theorem oneOf_word {y : α} (h : wordAt? ws pos = some w) (hf : f w = some y) : oneOf f ws pos = .ok y := by
  simp only [oneOf, wordAt_some h, hf]

theorem oneOf_other (h : wordAt? ws pos = some w) (hf : f w = none) : oneOf f ws pos = .error (.form (some pos)) := by
  simp only [oneOf, wordAt_some h, hf]

theorem oneOf_missing (h : wordAt? ws pos = none) : oneOf f ws pos = .error (.form (some pos)) := by
  simp only [oneOf, wordAt_none h]

end

/-! #### CODE: patterns -/

theorem decimalFrom_of_mem {c : Char} (hc : digitValue? c = none) {t : Text} (h : c ∈ t) (acc : Nat) :
    decimalFrom acc t = none := by
  induction t generalizing acc with
  | nil => simp at h
  | cons d t ih =>
    rw [decimalFrom]
    obtain rfl | h := List.mem_cons.1 h
    · rw [hc]
    · cases digitValue? d with
      | none => rfl
      | some k => exact ih h _

theorem hyphen_not_mem_digits (n : Nat) : '-' ∉ digits n := fun h => by
  have hn := decimalFrom_of_mem (by decide) h 0
  rw [decimalFrom_digits] at hn
  cases hn

theorem splitOn_piece {t : Text} (h : '-' ∉ t) : splitOn '-' t = [t] := by
  induction t with
  | nil => rfl
  | cons c t ih =>
    obtain ⟨hc, ht⟩ := not_or.1 (mt List.mem_cons.2 h)
    rw [splitOn, if_neg (Ne.symm hc), ih ht]

theorem splitOn_hyphen {t : Text} (h : '-' ∉ t) (u : Text) : splitOn '-' (t ++ '-' :: u) = t :: splitOn '-' u := by
  induction t with
  | nil => rfl
  | cons c t ih =>
    obtain ⟨hc, ht⟩ := not_or.1 (mt List.mem_cons.2 h)
    rw [List.cons_append, splitOn, if_neg (Ne.symm hc), ih ht]

/-- A pattern written is split into its groups. -/
theorem splitOn_patternText {p : List Nat} (h : p ≠ []) : splitOn '-' (patternText p) = p.map digits := by
  induction p with
  | nil => exact absurd rfl h
  | cons g p ih =>
    cases p with
    | nil => exact splitOn_piece (hyphen_not_mem_digits g)
    | cons k p =>
      have ih := ih (by simp)
      show splitOn '-' (digits g ++ '-' :: patternText (k :: p)) = _
      rw [splitOn_hyphen (hyphen_not_mem_digits g), ih]
      rfl

theorem patternSizes_digits (p : List Nat) : patternSizes (p.map digits) = some p := by
  induction p with
  | nil => rfl
  | cons g p ih => simp only [List.map_cons, patternSizes, decimal_digits, ih]

theorem patternSizes_none {ts : List Text} (h : ∃ t ∈ ts, decimal? t = none) : patternSizes ts = none := by
  induction ts with
  | nil => simp at h
  | cons t ts ih =>
    obtain ⟨u, hu, hn⟩ := h
    obtain rfl | hu := List.mem_cons.1 hu
    · simp only [patternSizes, hn]
    · rw [patternSizes, ih ⟨u, hu, hn⟩]
      cases decimal? t <;> rfl

section
variable {a : Text} {p : List Nat} {rest : List Text}

theorem readPattern_text (hp : p ≠ []) : readPattern (a :: patternText p :: rest) 2 =
    if p.length ≤ 5 ∧ ∀ n ∈ p, 1 ≤ n ∧ n ≤ 9 then .ok p else .error (.range (some 2)) := by
  have hall : (p.all fun n => decide (1 ≤ n ∧ n ≤ Config.maxBeats)) = true ↔ ∀ n ∈ p, 1 ≤ n ∧ n ≤ 9 :=
    List.all_eq_true.trans (forall₂_congr fun _ _ => decide_eq_true_iff)
  simp only [readPattern, wordAt_some wordAt?_two, parsed_ok_bind, splitOn_patternText hp, patternSizes_digits, hall,
    Config.maxGroups, parsed_pure_eq]

theorem readPattern_valid {e : CodeEntry} (he : e.valid) : readPattern (a :: patternText e.pattern :: rest) 2 = .ok e.pattern := by
  obtain ⟨⟨hpos, hl⟩, hg, -⟩ := he
  rw [readPattern_text (List.ne_nil_of_length_pos hpos), if_pos ⟨hl, hg⟩]

theorem readPattern_range (hp : p ≠ []) (h : 5 < p.length ∨ ∃ g ∈ p, g < 1 ∨ 9 < g) :
    readPattern (a :: patternText p :: rest) 2 = .error (.range (some 2)) := by
  rw [readPattern_text hp, if_neg]
  rintro ⟨hl, hg⟩
  obtain h | ⟨g, hm, h⟩ := h
  · omega
  · have := hg g hm
    omega

theorem readPattern_form {w : Text} (h : ∃ g ∈ splitOn '-' w, decimal? g = none) :
    readPattern (a :: w :: rest) 2 = .error (.form (some 2)) := by
  simp only [readPattern, wordAt_some wordAt?_two, parsed_ok_bind, patternSizes_none h]

end

/-! #### CODE: meanings -/

/-- A meaning without a number, and its word. -/
theorem bareMeaning_word {m : Meaning} (h : ∀ n, m ≠ .offer n ∧ m ≠ .info n) :
    ∃ w, meaningWords m = [w] ∧ w ≠ W.OFFER ∧ w ≠ W.INFO ∧ lookup bareMeanings w = some m := by
  cases m with
  | offer n => exact absurd rfl (h n).1
  | info n => exact absurd rfl (h n).2
  | _ => exact ⟨_, rfl, by decide, by decide, by decide⟩

section
variable {a b : Text} {rest : List Text}

theorem readMeaning_offer : readMeaning (a :: b :: W.OFFER :: rest) = (do
    let n ← numberIn 1 15 4 (← wordAt (a :: b :: W.OFFER :: rest) 4)
    noMore (a :: b :: W.OFFER :: rest) 4
    return .offer n) := rfl

theorem readMeaning_info : readMeaning (a :: b :: W.INFO :: rest) = (do
    let n ← numberIn 1 99 4 (← wordAt (a :: b :: W.INFO :: rest) 4)
    noMore (a :: b :: W.INFO :: rest) 4
    return .info n) := rfl

/-- Any other word is looked up, and stands alone. -/
theorem readMeaning_bare {w : Text} {m : Meaning} (ho : w ≠ W.OFFER) (hi : w ≠ W.INFO) (hm : lookup bareMeanings w = some m) :
    readMeaning (a :: b :: w :: rest) = if rest = [] then .ok m else .error (.form (some 4)) := by
  simp only [readMeaning, wordAt_some wordAt?_three, parsed_ok_bind, if_neg ho, if_neg hi, hm]
  cases rest with
  | nil => rfl
  | cons c rest => simp [noMore_over]

/-- The words of a meaning are read as it. -/
theorem readMeaning_words {m : Meaning} (h : m.valid = true) : readMeaning (a :: b :: meaningWords m) = .ok m := by
  by_cases hb : ∀ n, m ≠ .offer n ∧ m ≠ .info n
  · obtain ⟨w, hw, ho, hi, hm⟩ := bareMeaning_word hb
    rw [hw, readMeaning_bare ho hi hm, if_pos rfl]
  · cases m with
    | offer n =>
      obtain ⟨hl, hh⟩ := of_decide_eq_true h
      show readMeaning (a :: b :: W.OFFER :: [digits n]) = _
      rw [readMeaning_offer, wordAt_some wordAt?_four, parsed_ok_bind, numberIn_inside hl hh]
      rfl
    | info n =>
      obtain ⟨hl, hh⟩ := of_decide_eq_true h
      show readMeaning (a :: b :: W.INFO :: [digits n]) = _
      rw [readMeaning_info, wordAt_some wordAt?_four, parsed_ok_bind, numberIn_inside hl hh]
      rfl
    | _ => exact absurd (fun n => ⟨by simp, by simp⟩) hb

theorem readMeaning_unknown {w : Text} (h : w ∉ [W.ATTENTION, W.OFFER, W.ENTERING, W.OUT_OF_SECTION, W.CANCEL, W.OBSTRUCTION,
    W.BOX_OUT, W.BOX_IN, W.TEST, W.INFO]) : readMeaning (a :: b :: w :: rest) = .error (.form (some 3)) := by
  simp only [List.mem_cons, List.not_mem_nil, or_false, not_or] at h
  obtain ⟨h1, ho, h2, h3, h4, h5, h6, h7, h8, hi⟩ := h
  have hl : lookup bareMeanings w = none := lookup_none (by simp [bareMeanings, h1, h2, h3, h4, h5, h6, h7, h8])
  simp only [readMeaning, wordAt_some wordAt?_three, parsed_ok_bind, if_neg ho, if_neg hi, hl]

theorem readMeaning_missing : readMeaning [a, b] = .error (.form (some 3)) := rfl

theorem readMeaning_noNumber {w : Text} (h : w = W.OFFER ∨ w = W.INFO) : readMeaning [a, b, w] = .error (.form (some 4)) := by
  obtain rfl | rfl := h <;> rfl

theorem readMeaning_class {k : Nat} (h : k < 1 ∨ 15 < k) :
    readMeaning (a :: b :: W.OFFER :: digits k :: rest) = .error (.range (some 4)) := by
  rw [readMeaning_offer, wordAt_some wordAt?_four, parsed_ok_bind, numberIn_outside h, parsed_error_bind]

theorem readMeaning_number {k : Nat} (h : k < 1 ∨ 99 < k) :
    readMeaning (a :: b :: W.INFO :: digits k :: rest) = .error (.range (some 4)) := by
  rw [readMeaning_info, wordAt_some wordAt?_four, parsed_ok_bind, numberIn_outside h, parsed_error_bind]

end

/-! #### CODE: the request -/

section
variable {s : State} {ws : List Text} {e : CodeEntry}

theorem handleCode_pattern {r : Err} (h : readPattern ws 2 = .error r) : handleCode ws s = .error r := by
  simp only [handleCode, h, parsed_error_bind]

theorem handleCode_meaning {r : Err} (hp : readPattern ws 2 = .ok e.pattern) (h : readMeaning ws = .error r) :
    handleCode ws s = .error r := by
  simp only [handleCode, hp, h, parsed_ok_bind, parsed_error_bind]

/-- An entry's words are read as it, and it is added where the table allows. -/
theorem handleCode_entry (he : e.valid) : handleCode (codeWords e) s = (do
    mayAdd (heldPattern e.pattern s.codes) s.codes Config.maxCodes
    return ({ s with codes := s.codes ++ [e] }, W.CODE :: digits (s.codes.length + 1) :: codeTail e)) := by
  have hp : readPattern (codeWords e) 2 = .ok e.pattern := readPattern_valid he
  obtain ⟨-, -, hmean⟩ := he
  have hm : readMeaning (codeWords e) = .ok e.meaning := readMeaning_words hmean
  simp only [handleCode, hp, hm, parsed_ok_bind]

theorem heldPattern_none {p : List Nat} {table : List CodeEntry} (h : ∀ d ∈ table, d.pattern ≠ p) : heldPattern p table = none :=
  indexOf_none (by simpa using h)

theorem heldPattern_first {p : List Nat} {before after : List CodeEntry} {d : CodeEntry} (hd : d.pattern = p)
    (h : ∀ b ∈ before, b.pattern ≠ p) : heldPattern p (before ++ d :: after) = some (before.length + 1) := by
  have hi := indexOf_first (y := p) (before := before.map (·.pattern)) (after := after.map (·.pattern)) (by simpa using h)
  rw [heldPattern, List.map_append, List.map_cons, hd, hi, List.length_map]

variable (hs : s.service.state = .configure)
include hs

theorem code_loaded (he : e.valid) (hn : ∀ d ∈ s.codes, d.pattern ≠ e.pattern) (hl : s.codes.length < 24)
    (ha : s.asks .code (codeWords e)) : ∃ t, exec .code s = .next t ∧ t.codes = s.codes ++ [e] ∧
      repliesWith (('=' :: W.CODE) :: digits (s.codes.length + 1) :: (codeWords e).tail) s t := by
  have hadd : mayAdd (heldPattern e.pattern s.codes) s.codes Config.maxCodes = .ok () := by
    have hl : ¬Config.maxCodes ≤ s.codes.length := by
      rw [Config.maxCodes]
      omega
    rw [heldPattern_none hn, mayAdd, decide_eq_false hl, refuseIf_false]
  have hread := handleCode_entry (s := s) he
  rw [hadd] at hread
  obtain ⟨hx, hrep⟩ := request_ok rfl ha (inConfigure_of hs) hread rfl
  exact ⟨_, hx, by rw [commit_codes, reply_codes], hrep⟩

/-- An entry whose pattern is held already, or one that finds the table full. -/
theorem code_notAdded (he : e.valid) {r : Err}
    (h : mayAdd (heldPattern e.pattern s.codes) s.codes Config.maxCodes = .error r) (ha : s.asks .code (codeWords e)) :
    answersOnly .code r.words s := by
  have hread := handleCode_entry (s := s) he
  rw [h] at hread
  exact refused rfl ha (inConfigure_of hs) hread rfl

end

/-! #### LAMP: cells -/

theorem cellAt_cell (c : Cell) : cellAt? (c.val / 32) (c.val % 32) = some c := by
  have hc := c.isLt
  rw [cellAt?, dif_pos (by omega)]
  congr 1
  exact Fin.ext (by simp only []; omega)

section
variable {a : Text} {ws : List Text}

theorem readCell_second (c : Cell) : readCell (a :: digits (c.val / 32) :: digits (c.val % 32) :: ws) 2 = .ok c := by
  have hc := c.isLt
  have hr : c.val / 32 ≤ 15 := by omega
  have hl : c.val % 32 ≤ 31 := by omega
  simp only [readCell, wordAt_some wordAt?_two, wordAt_some wordAt?_three, parsed_ok_bind,
    numberIn_inside (Nat.zero_le _) hr, numberIn_inside (Nat.zero_le _) hl, cellAt_cell]
  rfl

theorem readCell_row {k : Nat} {w : Text} (h : 15 < k) :
    readCell (a :: digits k :: w :: ws) 2 = .error (.range (some 2)) := by
  simp only [readCell, wordAt_some wordAt?_two, parsed_ok_bind, numberIn_outside (.inr h), parsed_error_bind]

theorem readCell_column {k m : Nat} (hk : k ≤ 15) (h : 31 < m) :
    readCell (a :: digits k :: digits m :: ws) 2 = .error (.range (some 3)) := by
  simp only [readCell, wordAt_some wordAt?_two, wordAt_some wordAt?_three, parsed_ok_bind,
    numberIn_inside (Nat.zero_le _) hk, numberIn_outside (.inr h), parsed_error_bind]

end

/-! #### LAMP: sources -/

section
variable {a b c d : Text} {ws : List Text}

theorem wordAt?_five : wordAt? (a :: b :: c :: d :: ws) 5 = ws[0]? := rfl
theorem wordAt?_six {e : Text} : wordAt? (a :: b :: c :: d :: e :: ws) 6 = ws[0]? := rfl

theorem sourceIndex_ordinal {k : Nat} (n : Fin k) : sourceIndex k (a :: b :: c :: d :: ordinal n :: ws) = .ok n := by
  rw [sourceIndex, wordAt_some rfl, parsed_ok_bind, index_ordinal]

theorem sourceIndex_outside {k n : Nat} (h : n < 1 ∨ k < n) :
    sourceIndex k (a :: b :: c :: d :: digits n :: ws) = .error (.range (some 5)) := by
  rw [sourceIndex, wordAt_some rfl, parsed_ok_bind, index_outside h]

theorem sourceIndex_missing {k : Nat} : sourceIndex k [a, b, c, d] = .error (.form (some 5)) := rfl

theorem sourceSection_letter (x : Sec) : sourceSection (a :: b :: c :: d :: sectionLetter x :: ws) = .ok x := by
  rw [sourceSection, wordAt_some rfl, parsed_ok_bind, sectionWord, section_letter]

theorem sourceSection_other {w : Text} (h : w ∉ [W.A, W.B, W.C]) :
    sourceSection (a :: b :: c :: d :: w :: ws) = .error (.range (some 5)) := by
  rw [sourceSection, wordAt_some rfl, parsed_ok_bind, sectionWord, secOf_none h]

theorem sourceSection_missing : sourceSection [a, b, c, d] = .error (.form (some 5)) := rfl

/-! What each source reads after its word. -/

theorem readSource_track : readSource (a :: b :: c :: W.TRACK :: ws) = (do
    let t ← sourceIndex 20 (a :: b :: c :: W.TRACK :: ws)
    let q ← oneOf (lookup occTable) (a :: b :: c :: W.TRACK :: ws) 6
    return (.track t q, 7)) := rfl

theorem readSource_lever : readSource (a :: b :: c :: W.LEVER :: ws) = (do
    let n ← sourceIndex 48 (a :: b :: c :: W.LEVER :: ws)
    let q ← oneOf (lookup qualTable) (a :: b :: c :: W.LEVER :: ws) 6
    return (.lever n q, 7)) := rfl

theorem readSource_section : readSource (a :: b :: c :: W.SECTION :: ws) = (do
    let x ← sourceSection (a :: b :: c :: W.SECTION :: ws)
    let r ← readStates [] 6 ((a :: b :: c :: W.SECTION :: ws).drop 5)
    refuseIf r.1.isEmpty (.form (some 6))
    return (.sec x (sortStates r.1), r.2)) := rfl

theorem readSource_indicator : readSource (a :: b :: c :: W.INDICATOR :: ws) = (do
    let x ← sourceSection (a :: b :: c :: W.INDICATOR :: ws)
    let q ← oneOf (lookup indTable) (a :: b :: c :: W.INDICATOR :: ws) 6
    return (.indicator x q, 7)) := rfl

theorem readSource_bell : readSource (a :: b :: c :: W.BELL :: ws) = (do
    let x ← sourceSection (a :: b :: c :: W.BELL :: ws)
    return (.bell x, 6)) := rfl

theorem readSource_disagree {w : Text} (h : w ≠ W.BOX) : readSource (a :: b :: c :: W.DISAGREE :: w :: ws) = (do
    let x ← sourceSection (a :: b :: c :: W.DISAGREE :: w :: ws)
    return (.disagree (some x), 6)) := by
  have hw : wordAt? (a :: b :: c :: W.DISAGREE :: w :: ws) 5 ≠ some W.BOX := by
    rw [wordAt?_five]
    simpa using h
  exact if_neg hw

/-- Sources of one word. -/
theorem readSource_plain {w : Text} {src : Source}
    (h : (w, src) ∈ [(W.OFF, Source.off), (W.ON, .on), (W.HOST, .host), (W.ALARM, .alarm)]) :
    readSource (a :: b :: c :: w :: ws) = .ok (src, 5) := by
  simp only [List.mem_cons, List.not_mem_nil, or_false, Prod.mk.injEq] at h
  obtain ⟨rfl, rfl⟩ | ⟨rfl, rfl⟩ | ⟨rfl, rfl⟩ | ⟨rfl, rfl⟩ := h <;> rfl

theorem readSource_unknown {w : Text} (h : w ∉ [W.OFF, W.ON, W.HOST, W.TRACK, W.LEVER, W.SECTION, W.INDICATOR, W.BELL, W.BOX,
    W.DISAGREE, W.ALARM]) : readSource (a :: b :: c :: w :: ws) = .error (.form (some 4)) := by
  simp only [List.mem_cons, List.not_mem_nil, or_false, not_or] at h
  simp only [readSource, wordAt_some wordAt?_four, parsed_ok_bind, h, if_false]

end

/-! #### LAMP: section states -/

theorem readStates_words (states : List SecState) (seen : List SecState) (pos : Nat) (hd : (seen ++ states).Nodup)
    (rest : List Text) :
    readStates seen pos (states.map secStateWord ++ rest) = readStates (seen ++ states) (pos + states.length) rest := by
  induction states generalizing seen pos with
  | nil => simp
  | cons st states ih =>
    have hst : st ∉ seen := fun hm => (List.nodup_append.1 hd).2.2 st hm st (by simp) rfl
    have ih := ih (seen ++ [st]) (pos + 1) (by simpa using hd)
    have hp : pos + 1 + states.length = pos + (states.length + 1) := by omega
    simp only [List.map_cons, List.cons_append, readStates, secStateWord, lookup_secState, hst, if_false]
    rw [ih, List.append_assoc, hp]
    rfl

theorem readStates_end {seen : List SecState} {pos : Nat} {rest : List Text}
    (h : ∀ w ∈ rest.head?, lookup secStateTable w = none) : readStates seen pos rest = .ok (seen, pos) := by
  cases rest with
  | nil => rfl
  | cons w rest => simp only [readStates, h w rfl]

theorem readStates_twice (st : SecState) (pos : Nat) (rest : List Text) :
    readStates [] pos (secStateWord st :: secStateWord st :: rest) = .error (.conflict (pos + 1)) := by
  simp only [readStates, secStateWord, lookup_secState, List.not_mem_nil, if_false, List.nil_append, List.mem_singleton, if_true]

theorem nodup_sortStates (states : List SecState) : (sortStates states).Nodup := by
  have h : (secStateTable.map (·.2)).Nodup := by decide
  exact h.filter _

/-! #### LAMP: a source as it is written -/

theorem lookup_occ (clr : Bool) : lookup occTable (if clr then W.CLR else W.OCC) = some clr := by
  cases clr <;> decide

theorem lookup_qual (q : LeverQual) : lookup qualTable (qualWord q) = some q := by
  cases q <;> decide

theorem lookup_ind (lc : Bool) : lookup indTable (if lc then W.LC else W.TOL) = some lc := by
  cases lc <;> decide

theorem lookup_mode (flash : Bool) : lookup modeTable (if flash then W.FLASH else W.STEADY) = some flash := by
  cases flash <;> decide

/-- The words of a source are read as it, up to the word after them. -/
theorem readSource_words {a b c : Text} {src : Source} (h : src.valid = true) {rest : List Text}
    (hr : ∀ w ∈ rest.head?, lookup secStateTable w = none) :
    readSource (a :: b :: c :: (sourceWords src ++ rest)) = .ok (src, 4 + (sourceWords src).length) := by
  cases src with
  | off | on | host | alarm => exact readSource_plain (by simp)
  | box => rfl
  | track t clr =>
    show readSource (a :: b :: c :: W.TRACK :: ordinal t :: (if clr then W.CLR else W.OCC) :: rest) = _
    rw [readSource_track, sourceIndex_ordinal, oneOf_word wordAt?_six (lookup_occ clr)]
    rfl
  | lever n q =>
    show readSource (a :: b :: c :: W.LEVER :: ordinal n :: qualWord q :: rest) = _
    rw [readSource_lever, sourceIndex_ordinal, oneOf_word wordAt?_six (lookup_qual q)]
    rfl
  | indicator x lc =>
    show readSource (a :: b :: c :: W.INDICATOR :: sectionLetter x :: (if lc then W.LC else W.TOL) :: rest) = _
    rw [readSource_indicator, sourceSection_letter, oneOf_word wordAt?_six (lookup_ind lc)]
    rfl
  | bell x =>
    show readSource (a :: b :: c :: W.BELL :: sectionLetter x :: rest) = _
    rw [readSource_bell, sourceSection_letter]
    rfl
  | disagree o =>
    cases o with
    | none => rfl
    | some x =>
      show readSource (a :: b :: c :: W.DISAGREE :: sectionLetter x :: rest) = _
      rw [readSource_disagree (by cases x <;> decide), sourceSection_letter]
      rfl
  | sec x states =>
    obtain ⟨hne, hsort⟩ : states.isEmpty = false ∧ sortStates states = states := by simpa [Source.valid] using h
    have hread : readStates [] 6 (states.map secStateWord ++ rest) = .ok (states, 6 + states.length) := by
      rw [readStates_words states [] 6 (hsort ▸ nodup_sortStates states), readStates_end hr]
      rfl
    have hlen : 4 + (sourceWords (.sec x states)).length = 6 + states.length := by
      simp [sourceWords, hsort]
      omega
    have hwords : sourceWords (.sec x states) ++ rest = W.SECTION :: sectionLetter x :: (states.map secStateWord ++ rest) := by
      simp [sourceWords, hsort]
    rw [hlen, hwords, readSource_section, sourceSection_letter, parsed_ok_bind]
    show (readStates [] 6 (states.map secStateWord ++ rest) >>= _) = _
    rw [hread, parsed_ok_bind, hne, refuseIf_false, parsed_ok_bind, hsort]
    rfl

/-! #### LAMP: mode and invert -/

section
variable {ws rest : List Text} {w : Text} {k : Nat}

theorem wordAt?_after (hk : ws.length = k) : wordAt? (ws ++ rest) (k + 1) = rest[0]? := by
  subst hk
  show (ws ++ rest)[ws.length]? = _
  rw [List.getElem?_append_right (le_refl _), Nat.sub_self]

theorem wordAt?_end (hk : ws.length = k) : wordAt? ws (k + 1) = none := by
  simp [wordAt?, ← hk]

theorem readMode_word {flash : Bool} (hk : ws.length = k) (h : lookup modeTable w = some flash) :
    readMode (ws ++ w :: rest) (k + 1) = (flash, k + 2) := by
  simp [readMode, wordAt?_after hk, h]

theorem readMode_other (hk : ws.length = k) (h : ∀ w ∈ rest.head?, lookup modeTable w = none) :
    readMode (ws ++ rest) (k + 1) = (false, k + 1) := by
  cases rest with
  | nil => simp [readMode, wordAt?_end hk]
  | cons w rest => simp [readMode, wordAt?_after hk, h w rfl]

theorem readInvert_none (hk : ws.length = k) : readInvert ws (k + 1) = .ok false := by
  simp only [readInvert, wordAt?_end hk]
  rfl

theorem readInvert_flag (hk : ws.length = k) (invert : Bool) :
    readInvert (ws ++ [if invert then ['1'] else ['0']]) (k + 1) = .ok invert := by
  have hm : noMore (ws ++ [if invert then ['1'] else ['0']]) (k + 1) = .ok () := noMore_ok (by simp [hk])
  have hw : number (k + 1) (if invert then ['1'] else ['0']) = .ok (if invert then 1 else 0) := by
    cases invert
    · exact number_digits _ 0
    · exact number_digits _ 1
  simp only [readInvert, wordAt?_after hk, List.getElem?_cons_zero, hw, parsed_ok_bind, hm]
  cases invert <;> rfl

theorem readInvert_bad (hk : ws.length = k) (h : decimal? w = none) :
    readInvert (ws ++ w :: rest) (k + 1) = .error (.form (some (k + 1))) := by
  simp only [readInvert, wordAt?_after hk, List.getElem?_cons_zero, number_bad h, parsed_error_bind]

theorem readInvert_over {n : Nat} (hk : ws.length = k) (h : 1 < n) :
    readInvert (ws ++ digits n :: rest) (k + 1) = .error (.form (some (k + 1))) := by
  simp only [readInvert, wordAt?_after hk, List.getElem?_cons_zero, number_digits, parsed_ok_bind, h, decide_true,
    refuseIf_true, parsed_error_bind]

end

/-! #### LAMP: bindings -/

section
variable {ws : List Text} {src : Source} {pos : Nat}

theorem readBinding_source {e : Err} (h : readSource ws = .error e) : readBinding ws = .error e := by
  simp only [readBinding, h, parsed_error_bind]

theorem readBinding_mode (h : readSource ws = .ok (src, pos)) (hm : src.takesMode = true) : readBinding ws = (do
    let inv ← readInvert ws (readMode ws pos).2
    return ⟨src, (readMode ws pos).1, inv⟩) := by
  simp only [readBinding, h, parsed_ok_bind, hm, if_true]

theorem readBinding_alone (h : readSource ws = .ok (src, pos)) (hm : src.takesMode = false) : readBinding ws = (do
    noMore ws (pos - 1)
    return ⟨src, false, false⟩) := by
  simp only [readBinding, h, parsed_ok_bind, hm, Bool.false_eq_true, if_false]

/-- A mode or an invert is no section state. -/
theorem modeWord_noState (flash : Bool) : lookup secStateTable (if flash then W.FLASH else W.STEADY) = none := by
  cases flash <;> decide

/-- A binding's words are read as it. -/
theorem readBinding_words {a b c : Text} {y : Binding} (h : y.valid) :
    readBinding (a :: b :: c :: (sourceWords y.source ++
      if y.source.takesMode then [if y.flash then W.FLASH else W.STEADY, if y.invert then ['1'] else ['0']] else [])) =
      .ok y := by
  obtain ⟨src, flash, invert⟩ := y
  obtain ⟨hv, hmode⟩ := h
  cases hm : src.takesMode with
  | false =>
    obtain ⟨rfl, rfl⟩ := hmode hm
    have hs := readSource_words (a := a) (b := b) (c := c) (rest := []) hv (by simp)
    have hl : noMore (a :: b :: c :: (sourceWords src ++ [])) (4 + (sourceWords src).length - 1) = .ok () :=
      noMore_ok (by simp; omega)
    simp only [Bool.false_eq_true, if_false]
    rw [readBinding_alone hs hm, hl]
    rfl
  | true =>
    have hs := readSource_words (a := a) (b := b) (c := c)
      (rest := [if flash then W.FLASH else W.STEADY, if invert then ['1'] else ['0']]) hv (by simp [modeWord_noState])
    have hk : (a :: b :: c :: sourceWords src).length = 3 + (sourceWords src).length := by simp; omega
    have hr : readMode (a :: b :: c :: sourceWords src ++ [if flash then W.FLASH else W.STEADY, if invert then ['1'] else ['0']])
        (3 + (sourceWords src).length + 1) = _ := readMode_word hk (lookup_mode flash)
    have hi := readInvert_flag (ws := a :: b :: c :: sourceWords src ++ [if flash then W.FLASH else W.STEADY])
      (k := 3 + (sourceWords src).length + 1) (by simp; omega) invert
    have hp : 4 + (sourceWords src).length = 3 + (sourceWords src).length + 1 := by omega
    simp only [if_true]
    rw [readBinding_mode hs hm, hp]
    simp only [List.cons_append, List.append_assoc, List.nil_append] at hr hi ⊢
    rw [hr, hi]
    rfl

end

/-! #### LAMP: the request -/

section
variable {s : State} {c : Cell}

theorem handleLamp_cell {ws : List Text} {e : Err} (h : readCell ws 2 = .error e) : handleLamp ws s = .error e := by
  simp only [handleLamp, h, parsed_error_bind]

variable (hs : s.service.state = .configure)
include hs

theorem lamp_loaded {rest : List Text} {b : Binding}
    (h : readBinding (W.LAMP :: digits (c.val / 32) :: digits (c.val % 32) :: rest) = .ok b)
    (ha : s.asks .lamp ([W.LAMP, digits (c.val / 32), digits (c.val % 32)] ++ rest)) :
    ∃ t, exec .lamp s = .next t ∧ repliesWith (success (bindingWords c b)) s t ∧ mapGet t.diagram.stored c = some b ∧
      (∀ d, d ≠ c → mapGet t.diagram.stored d = mapGet s.diagram.stored d) ∧
      t.diagram.ops = s.diagram.ops ++ [.load c b] := by
  have hread : handleLamp ([W.LAMP, digits (c.val / 32), digits (c.val % 32)] ++ rest) s =
      .ok (storeLamp c b s, bindingWords c b) := by
    simp only [List.cons_append, List.nil_append, handleLamp, readCell_second, parsed_ok_bind, h]
    rfl
  obtain ⟨hx, hrep⟩ := request_ok rfl ha (inConfigure_of hs) hread rfl
  exact ⟨_, hx, hrep, mapGet_mapSet _ c b, fun d hd => mapGet_mapSet_ne _ hd b, rfl⟩

theorem lamp_refused {rest : List Text} {e : Err}
    (h : readBinding (W.LAMP :: digits (c.val / 32) :: digits (c.val % 32) :: rest) = .error e)
    (ha : s.asks .lamp ([W.LAMP, digits (c.val / 32), digits (c.val % 32)] ++ rest)) : answersOnly .lamp e.words s := by
  refine refused rfl ha (inConfigure_of hs) ?_ rfl
  simp only [List.cons_append, List.nil_append, handleLamp, readCell_second, parsed_ok_bind, h, parsed_error_bind]

end

/-! #### LAMP: bindings without a mode or an invert, and bindings refused -/

section
variable {a b c : Text} {src : Source}

theorem readBinding_bare (hv : src.valid = true) (hm : src.takesMode = true) :
    readBinding (a :: b :: c :: sourceWords src) = .ok ⟨src, false, false⟩ := by
  have hs := readSource_words (a := a) (b := b) (c := c) (rest := []) hv (by simp)
  have hk : (a :: b :: c :: sourceWords src).length = 3 + (sourceWords src).length := by simp; omega
  have hr := readMode_other (rest := []) hk (by simp)
  have hp : 4 + (sourceWords src).length = 3 + (sourceWords src).length + 1 := by omega
  rw [List.append_nil, hp] at hs
  rw [List.append_nil] at hr
  rw [readBinding_mode hs hm, hr, readInvert_none hk]
  rfl

theorem readBinding_flash (hv : src.valid = true) (hm : src.takesMode = true) :
    readBinding (a :: b :: c :: (sourceWords src ++ [W.FLASH])) = .ok ⟨src, true, false⟩ := by
  have hs := readSource_words (a := a) (b := b) (c := c) (rest := [W.FLASH]) hv (by simp; decide)
  have hk : (a :: b :: c :: sourceWords src).length = 3 + (sourceWords src).length := by simp; omega
  have hr : readMode (a :: b :: c :: (sourceWords src ++ [W.FLASH])) (3 + (sourceWords src).length + 1) = _ :=
    readMode_word (rest := []) hk (lookup_mode true)
  have hi : readInvert (a :: b :: c :: (sourceWords src ++ [W.FLASH])) (3 + (sourceWords src).length + 2) = _ :=
    readInvert_none (by simp; omega)
  have hp : 4 + (sourceWords src).length = 3 + (sourceWords src).length + 1 := by omega
  rw [hp] at hs
  rw [readBinding_mode hs hm, hr, hi]
  rfl

variable {w : Text} {rest : List Text} {k : Nat}

theorem readSource_missing : readSource [a, b, c] = .error (.form (some 4)) := rfl

/-- A source that needs an index, a section or the word OUT, and has none. -/
theorem readSource_noArgument (h : w ∈ [W.TRACK, W.LEVER, W.SECTION, W.INDICATOR, W.BELL, W.DISAGREE, W.BOX]) :
    readSource [a, b, c, w] = .error (.form (some 5)) := by
  simp only [List.mem_cons, List.not_mem_nil, or_false] at h
  obtain rfl | rfl | rfl | rfl | rfl | rfl | rfl := h <;> rfl

theorem readSource_trackOutside (h : k < 1 ∨ 20 < k) :
    readSource (a :: b :: c :: W.TRACK :: digits k :: rest) = .error (.range (some 5)) := by
  rw [readSource_track, sourceIndex_outside h, parsed_error_bind]

theorem readSource_leverOutside (h : k < 1 ∨ 48 < k) :
    readSource (a :: b :: c :: W.LEVER :: digits k :: rest) = .error (.range (some 5)) := by
  rw [readSource_lever, sourceIndex_outside h, parsed_error_bind]

theorem readSource_noSection {d : Text} (hd : d ∈ [W.SECTION, W.INDICATOR, W.BELL]) (h : w ∉ [W.A, W.B, W.C]) :
    readSource (a :: b :: c :: d :: w :: rest) = .error (.range (some 5)) := by
  simp only [List.mem_cons, List.not_mem_nil, or_false] at hd
  obtain rfl | rfl | rfl := hd
  · rw [readSource_section, sourceSection_other h, parsed_error_bind]
  · rw [readSource_indicator, sourceSection_other h, parsed_error_bind]
  · rw [readSource_bell, sourceSection_other h, parsed_error_bind]

/-! Qualifiers. -/

theorem readSource_trackQualifier {t : Circuit} {e : Err}
    (h : oneOf (lookup occTable) (a :: b :: c :: W.TRACK :: ordinal t :: rest) 6 = .error e) :
    readSource (a :: b :: c :: W.TRACK :: ordinal t :: rest) = .error e := by
  rw [readSource_track, sourceIndex_ordinal, parsed_ok_bind, h, parsed_error_bind]

theorem readSource_leverQualifier {n : Lever} {e : Err}
    (h : oneOf (lookup qualTable) (a :: b :: c :: W.LEVER :: ordinal n :: rest) 6 = .error e) :
    readSource (a :: b :: c :: W.LEVER :: ordinal n :: rest) = .error e := by
  rw [readSource_lever, sourceIndex_ordinal, parsed_ok_bind, h, parsed_error_bind]

theorem readSource_indicatorQualifier {x : Sec} {e : Err}
    (h : oneOf (lookup indTable) (a :: b :: c :: W.INDICATOR :: sectionLetter x :: rest) 6 = .error e) :
    readSource (a :: b :: c :: W.INDICATOR :: sectionLetter x :: rest) = .error e := by
  rw [readSource_indicator, sourceSection_letter, parsed_ok_bind, h, parsed_error_bind]

theorem readSource_noState {x : Sec} (h : ∀ w ∈ rest.head?, lookup secStateTable w = none) :
    readSource (a :: b :: c :: W.SECTION :: sectionLetter x :: rest) = .error (.form (some 6)) := by
  rw [readSource_section, sourceSection_letter, parsed_ok_bind]
  show (readStates [] 6 rest >>= _) = _
  rw [readStates_end h]
  rfl

theorem readSource_stateTwice {x : Sec} {st : SecState} :
    readSource (a :: b :: c :: W.SECTION :: sectionLetter x :: secStateWord st :: secStateWord st :: rest) =
      .error (.conflict 7) := by
  rw [readSource_section, sourceSection_letter, parsed_ok_bind]
  show (readStates [] 6 (secStateWord st :: secStateWord st :: rest) >>= _) = _
  rw [readStates_twice, parsed_error_bind]

/-! Mode and invert. -/

theorem readBinding_on : readBinding (a :: b :: c :: W.ON :: rest) = (do
    let inv ← readInvert (a :: b :: c :: W.ON :: rest) (readMode (a :: b :: c :: W.ON :: rest) 5).2
    return ⟨.on, (readMode (a :: b :: c :: W.ON :: rest) 5).1, inv⟩) :=
  readBinding_mode (readSource_plain (by simp)) rfl

theorem readBinding_onBad (hw : w ∉ [W.STEADY, W.FLASH]) (h : decimal? w = none) :
    readBinding [a, b, c, W.ON, w] = .error (.form (some 5)) := by
  have hl : lookup modeTable w = none := lookup_none hw
  have hm : readMode [a, b, c, W.ON, w] 5 = _ := readMode_other (ws := [a, b, c, W.ON]) rfl (by simpa using hl)
  have hi : readInvert [a, b, c, W.ON, w] 5 = _ := readInvert_bad (ws := [a, b, c, W.ON]) rfl h
  rw [readBinding_on, hm, hi, parsed_error_bind]

theorem digits_noMode (k : Nat) : lookup modeTable (digits k) = none :=
  lookup_none (digits_not_mem (by decide) k)

theorem readBinding_onOver (h : 1 < k) : readBinding [a, b, c, W.ON, digits k] = .error (.form (some 5)) := by
  have hm : readMode [a, b, c, W.ON, digits k] 5 = _ :=
    readMode_other (ws := [a, b, c, W.ON]) rfl (by simpa using digits_noMode k)
  have hi : readInvert [a, b, c, W.ON, digits k] 5 = _ := readInvert_over (ws := [a, b, c, W.ON]) rfl h
  rw [readBinding_on, hm, hi, parsed_error_bind]

theorem readBinding_steadyOver (h : 1 < k) : readBinding [a, b, c, W.ON, W.STEADY, digits k] = .error (.form (some 6)) := by
  have hm : readMode [a, b, c, W.ON, W.STEADY, digits k] 5 = _ :=
    readMode_word (ws := [a, b, c, W.ON]) rfl (lookup_mode false)
  have hi : readInvert [a, b, c, W.ON, W.STEADY, digits k] 6 = _ :=
    readInvert_over (ws := [a, b, c, W.ON, W.STEADY]) rfl h
  rw [readBinding_on, hm, hi, parsed_error_bind]

/-- HOST and ALARM stand alone. -/
theorem readBinding_notAlone {d : Text} (hd : (d, src) ∈ [(W.HOST, Source.host), (W.ALARM, .alarm)]) :
    readBinding (a :: b :: c :: d :: w :: rest) = .error (.form (some 5)) := by
  have hs : readSource (a :: b :: c :: d :: w :: rest) = .ok (src, 5) :=
    readSource_plain (List.mem_cons_of_mem _ (List.mem_cons_of_mem _ hd))
  have hm : src.takesMode = false := by
    simp only [List.mem_cons, List.not_mem_nil, or_false, Prod.mk.injEq] at hd
    obtain ⟨-, rfl⟩ | ⟨-, rfl⟩ := hd <;> rfl
  have hn : noMore (a :: b :: c :: d :: w :: rest) 4 = .error (.form (some 5)) := noMore_over (by simp)
  rw [readBinding_alone hs hm, hn, parsed_error_bind]

end

/-! #### CODE: entries refused -/

section
variable {s : State} (hs : s.service.state = .configure) {e : CodeEntry}
include hs

theorem code_refused {rest : List Text} {r : Err} (he : e.valid)
    (h : readMeaning (W.CODE :: patternText e.pattern :: rest) = .error r)
    (ha : s.asks .code (W.CODE :: patternText e.pattern :: rest)) : answersOnly .code r.words s :=
  refused rfl ha (inConfigure_of hs) (handleCode_meaning (readPattern_valid he) h) rfl

/-- A word after a meaning without a number. -/
theorem code_over {w : Text} {rest : List Text} (he : e.valid) (hm : ∀ n, e.meaning ≠ .offer n ∧ e.meaning ≠ .info n)
    (ha : s.asks .code (W.CODE :: (codeTail e ++ w :: rest))) : answersOnly .code (Err.form (some 4)).words s := by
  obtain ⟨m, hw, ho, hi, hl⟩ := bareMeaning_word hm
  rw [codeTail, hw] at ha
  exact code_refused hs he (rest := m :: w :: rest) ((readMeaning_bare ho hi hl).trans (if_neg (by simp))) ha

end

/-- Settles O49: texts of TC, TIMES, CODE and LAMP. -/
theorem canonicalTextsLoadUnits : Obligations.CanonicalTextsLoadUnits := by
  intro s hs range form conflict plain clamp bounds
  have hv := inConfigure_of hs
  have hclamp : ∀ {drop : Nat} (f : TcField) (v : Nat), drop ≤ 224 → clampField drop f v = clamp drop f v :=
    fun f v hd => clampField_eq hd f v
  have hdrop : ∀ v, clamp 0 .drop v ≤ 224 := fun v => by
    show max 16 (min 224 v) ≤ 224
    omega
  have hbounds : ∀ f, bounds f = TimesName.range f := fun f => by cases f <;> rfl
  refine ⟨?_, ?_, ?_, ?_, ?_, ?_, ?_, ?_, ?_, ?_⟩
  · exact fun c r hr ha => tc_canonical hs c hr ha
  · exact fun v hv ha => times_canonical hs hv ha
  · exact fun e he hn hl ha => code_loaded hs he hn hl ha
  · exact fun c b hb ha => lamp_loaded hs (readBinding_words hb) ha
  · refine fun c f v w => ⟨fun ha => ?_, fun hf ha => ?_, fun ha => ?_, fun ha => ?_⟩
    · obtain ⟨t, hx, hst, hrep⟩ := tc_stored (vals := []) (r := plain) hs (by simp) (by simp) rfl ha
      exact ⟨t, hx, hst, hrep⟩
    · exact tcValue_stored hs c hf (hclamp f v (by decide)) ha
    · exact tcDrop_stored (vals := [(.drop, v)]) hs c (by simp) (by simp [TcField.reads]) rfl (hclamp .drop v (by decide))
        (hclamp .pick 160 (hdrop v)) ha
    · exact tcDrop_stored (vals := [(.drop, v), (.pick, w)]) hs c (by simp) (by simp [TcField.reads]) rfl
        (hclamp .drop v (by decide)) (hclamp .pick w (hdrop v)) ha
  · intro f v w was
    refine ⟨fun ha => ?_, fun hf ha => ?_, fun hf ha => ⟨fun hle => ?_, fun hlt => ?_⟩, fun ha => ?_, fun ha => ?_⟩
    · obtain ⟨t, hx, ht, hl, hrep⟩ := times_loaded (vals := []) hs (by simp) (by simp) ha
      exact ⟨t, hx, ht, hl, hrep⟩
    · have hflag : f.isFlag → v ≤ 1 := fun h => absurd h hf
      rw [← timesWord_digits (f := f) (by rintro rfl; simp at hf) v] at ha
      obtain ⟨t, hx, ht, hl, hrep⟩ := timesValue_loaded hs hflag ha
      refine ⟨t, hx, hl, fun g hg => ?_, ?_, hrep⟩
      · rw [ht, get_set_ne hg]
        rfl
      · rw [ht, get_set hflag, hbounds, TimesName.clamp]
    · rw [← timesWord_digits (f := f) (by rintro rfl; simp at hf) v] at ha
      obtain ⟨t, hx, ht, -⟩ := timesValue_loaded hs (fun _ => hle) ha
      refine ⟨t, hx, ?_, fun g hg => ?_⟩
      · rw [ht]
        simp only [List.mem_cons, List.not_mem_nil, or_false] at hf
        obtain rfl | rfl | rfl := hf <;> rfl
      · rw [ht, get_set_ne hg]
        rfl
    · have hread : timesValue f 3 (digits v) = .error (.form none) := by
        rw [timesValue_flag hf, if_neg (Nat.not_le.2 hlt)]
      exact times_refused hs (namedValues_badValue (lookup_times f) hread) ha
    · obtain ⟨t, hx, ht, -, hrep⟩ := timesValue_loaded (f := .localmode) (v := 1) hs (fun _ => le_refl 1) ha
      rw [if_pos (by rw [ht]; rfl), List.append_nil] at hrep
      exact ⟨t, hx, ht, hrep⟩
    · exact timesJoinEnd_loaded hs rfl rfl ha
  · intro c f k m w rest refused
    refine ⟨?_, ?_, ?_, ?_, ?_, ?_, ?_, ?_, ?_⟩
    · exact fun ha => Machine.refused rfl ha hv (handleTc_index (indexAt_missing rfl)) rfl
    · exact fun hk ha => Machine.refused rfl ha hv (handleTc_index (indexAt_outside hk rfl)) rfl
    · exact fun hk ha => tc_refused hs (namedValues_badValue (lookup_tcField .phase) (tcValue_phase hk)) ha
    · exact fun hk ha => tc_refused hs (namedValues_badValue (lookup_tcField .group) (tcValue_group hk)) ha
    · exact fun hk ha => tc_refused hs (namedValues_badValue (lookup_tcField .inv) (tcValue_inv hk)) ha
    · exact fun hw ha => tc_refused hs (namedValues_unknown hw) ha
    · exact fun hd ha => tc_refused hs (namedValues_badValue (lookup_tcField f) (tcValue_bad hd)) ha
    · exact fun ha => tc_refused hs (namedValues_missing (lookup_tcField f)) ha
    · intro hf ha
      have hreads : f.reads k := by
        cases f with
        | phase | inv | group => simp at hf
        | _ => trivial
      exact tc_refused hs (namedValues_twice (lookup_tcField f) (tcValue_digits hreads 4)) ha
  · intro f k m w rest refused
    refine ⟨?_, ?_, ?_, ?_, ?_⟩
    · exact fun hw ha => times_refused hs (namedValues_unknown hw) ha
    · exact fun ha => times_refused hs (namedValues_missing (lookup_times f)) ha
    · exact fun hf hst ha => times_refused hs (namedValues_badValue (lookup_times .localmode) (timesValue_localmode hf hst)) ha
    · exact fun hf hd ha => times_refused hs (namedValues_badValue (lookup_times f) (timesValue_bad hf hd)) ha
    · intro hf ha
      have hread : timesValue f 3 (digits k) = .ok k := by rw [timesValue_number hf, number_digits, bareForm_ok]
      exact times_refused hs (namedValues_twice (lookup_times f) hread) ha
  · intro e p k w rest refused pattern
    refine ⟨?_, ?_, ?_, fun he => ⟨?_, ?_, ?_, ?_, ?_, ?_, ?_, ?_, ?_⟩⟩
    · exact fun ha => Machine.refused rfl ha hv (handleCode_pattern (r := .form (some 2)) rfl) rfl
    · exact fun hp h ha => Machine.refused rfl ha hv (handleCode_pattern (readPattern_range hp h)) rfl
    · exact fun h ha => Machine.refused rfl ha hv (handleCode_pattern (readPattern_form h)) rfl
    · exact fun ha => code_refused hs he readMeaning_missing ha
    · exact fun ha => code_refused hs he (readMeaning_noNumber (.inl rfl)) ha
    · exact fun ha => code_refused hs he (readMeaning_noNumber (.inr rfl)) ha
    · exact fun hw ha => code_refused hs he (readMeaning_unknown hw) ha
    · exact fun hk ha => code_refused hs he (readMeaning_class hk) ha
    · exact fun hk ha => code_refused hs he (readMeaning_number hk) ha
    · exact fun hm ha => code_over hs he hm ha
    · intro before after d hcodes hd hb ha
      exact code_notAdded hs he (by rw [hcodes, heldPattern_first hd hb, mayAdd_held]) ha
    · intro hn hl ha
      exact code_notAdded hs he (by rw [heldPattern_none hn, mayAdd_full (most := Config.maxCodes) hl]) ha
  · intro c t n x st k m w rest opening refused loads
    have refuse : ∀ {given : List Text} {e : Err},
        readSource (W.LAMP :: digits (c.val / 32) :: digits (c.val % 32) :: given) = .error e → refused given e.words :=
      fun h ha => lamp_refused hs (readBinding_source h) ha
    have load : ∀ {given : List Text} {b : Binding},
        readBinding (W.LAMP :: digits (c.val / 32) :: digits (c.val % 32) :: given) = .ok b → loads given b := fun h ha => by
      obtain ⟨u, hx, -, hst, -⟩ := lamp_loaded hs h ha
      exact ⟨u, hx, hst⟩
    refine ⟨?_, ?_, ?_, ?_, ?_, ?_, ?_, ?_, ?_, ?_, ?_, ?_, ?_, ?_, ?_, ?_, ?_, ?_, ?_, ?_, ?_, ?_, ?_, ?_, ?_, ?_, ?_, ?_, ?_, ?_⟩
    · exact load (readBinding_bare (src := .on) rfl rfl)
    · exact load (readBinding_bare (src := .bell x) rfl rfl)
    · exact load (readBinding_flash (src := .track t true) rfl rfl)
    · exact fun hk ha => Machine.refused rfl ha hv (handleLamp_cell (readCell_row hk)) rfl
    · exact fun hk hm ha => Machine.refused rfl ha hv (handleLamp_cell (readCell_column hk hm)) rfl
    · exact refuse readSource_missing
    · exact fun hw => refuse (readSource_unknown hw)
    · exact fun hk => refuse (readSource_trackOutside hk)
    · exact fun hk => refuse (readSource_leverOutside hk)
    · exact fun hw => ⟨refuse (readSource_noSection (by simp) hw), refuse (readSource_noSection (by simp) hw),
        refuse (readSource_noSection (by simp) hw)⟩
    · exact refuse (readSource_noArgument (by simp))
    · exact refuse (readSource_noArgument (by simp))
    · exact refuse (readSource_noArgument (by simp))
    · exact refuse (readSource_noArgument (by simp))
    · exact refuse (readSource_noArgument (by simp))
    · exact refuse (readSource_noArgument (by simp))
    · exact refuse (readSource_noArgument (by simp))
    · exact fun hw hd ha => lamp_refused hs (readBinding_onBad hw hd) ha
    · exact fun hk => ⟨fun ha => lamp_refused hs (readBinding_onOver hk) ha,
        fun ha => lamp_refused hs (readBinding_steadyOver hk) ha⟩
    · exact fun ha => lamp_refused hs (readBinding_notAlone (src := .host) (by simp)) ha
    · exact fun ha => lamp_refused hs (readBinding_notAlone (src := .alarm) (by simp)) ha
    · exact refuse (readSource_trackQualifier (oneOf_missing rfl))
    · exact refuse (readSource_leverQualifier (oneOf_missing rfl))
    · exact refuse (readSource_noState (by simp))
    · exact refuse (readSource_indicatorQualifier (oneOf_missing rfl))
    · exact fun hw => refuse (readSource_trackQualifier (oneOf_other wordAt?_six (lookup_none hw)))
    · exact fun hw => refuse (readSource_leverQualifier (oneOf_other wordAt?_six (lookup_none hw)))
    · exact fun hw => refuse (readSource_indicatorQualifier (oneOf_other wordAt?_six (lookup_none hw)))
    · exact fun hl => refuse (readSource_noState (by simpa using hl))
    · exact refuse readSource_stateTwice

end Sys2Proof.Machine
end

section
/-! ### The verdict of a measurement: its counts and the first state decision (R64 to R67) -/

namespace Sys2Proof.Machine

section
variable {k : CircuitData} {r : TcRecord} {m : Measurement} {track : Nat}

/-- The counts after an input, each by the level alone: low below the drop threshold, high from the pick-up threshold,
reverse below minus the joint level (R65, R66). -/
theorem counted_verdictOf (k : CircuitData) (p : Int) (joint : Nat) {d u : Nat} (hdu : d ≤ u) :
    k.counted (verdictOf p joint d u) = { k with
      low := if p < (d : Int) then raise k.low else 0
      high := if (u : Int) ≤ p then raise k.high else 0
      reverse := if p < -(joint : Int) then raise k.reverse else 0 } := by
  unfold verdictOf
  by_cases hj : p < -(joint : Int)
  · rw [if_pos hj, if_pos (by omega), if_neg (by omega), if_pos hj]
    rfl
  · by_cases hd : p < (d : Int)
    · rw [if_neg hj, if_pos hd, if_pos hd, if_neg (by omega), if_neg hj]
      rfl
    · by_cases hu : (u : Int) ≤ p
      · rw [if_neg hj, if_neg hd, if_pos hu, if_neg hd, if_pos hu, if_neg hj]
        rfl
      · rw [if_neg hj, if_neg hd, if_neg hu, if_neg hd, if_neg hu, if_neg hj]
        rfl

/-- A level below the pick-up threshold is no high input (R65). -/
theorem verdictOf_ne_high {p : Int} {joint d u : Nat} (hp : p < (u : Int)) : verdictOf p joint d u ≠ .high := by
  unfold verdictOf
  rw [if_neg (show ¬(u : Int) ≤ p by omega)]
  split_ifs <;> simp

/-- But for a high input in CLEAR nothing tracks: the counts move and the first decision that applies is made. -/
theorem judged_untracked (h : k.state = .occupied ∨ m.signed < (pickThreshold k.clearLevel r : Int)) :
    k.judged r m track = (k.counted
      (verdictOf m.signed r.joint (dropThreshold k.clearLevel r) (pickThreshold k.clearLevel r))).decided r := by
  refine if_neg fun ⟨hc, hv, _⟩ => ?_
  obtain ho | hp := h
  · simp [ho] at hc
  · exact verdictOf_ne_high hp hv

theorem decided_fails (h : 2 ≤ k.reverse) : k.decided r = k.enter (.failed .joint) := if_pos h

theorem decided_drops (h : k.reverse < 2) (hk : k.state = .clear) (hl : r.dropf ≤ k.low) :
    k.decided r = k.enter .occupied := by
  rw [CircuitData.decided, if_neg (by omega), if_pos ⟨hk, hl⟩]

theorem decided_picks (h : k.reverse < 2) (hk : k.state = .occupied) (hh : r.pickf ≤ k.high) :
    k.decided r = k.enter .clear := by
  rw [CircuitData.decided, if_neg (by omega), if_neg (by simp [hk]), if_pos ⟨hk, hh⟩]

theorem decided_stays (h : k.reverse < 2) (hs : (k.state = .clear ∧ k.low < r.dropf) ∨
    (k.state = .occupied ∧ k.high < r.pickf)) : k.decided r = k := by
  obtain ⟨hk, hc⟩ | ⟨hk, hc⟩ := hs
  all_goals rw [CircuitData.decided, if_neg (by omega), if_neg (by simp [hk, hc]), if_neg (by simp [hk, hc])]

theorem decided_q (k : CircuitData) (r : TcRecord) : (k.decided r).q = k.q := by
  unfold CircuitData.decided
  split_ifs <;> rfl

/-- Without a failure a decision leads to OCCUPIED or CLEAR (R67). -/
theorem decided_enabled (h : k.reverse < 2) (hk : k.state = .occupied ∨ k.state = .clear) :
    (k.decided r).state = .occupied ∨ (k.decided r).state = .clear := by
  unfold CircuitData.decided
  rw [if_neg (by omega)]
  split_ifs
  · exact .inl rfl
  · exact .inr rfl
  · exact hk

theorem trackEntry_enabled {a b : TrackState} (c : Circuit) (ha : a = .occupied ∨ a = .clear)
    (hb : b = .occupied ∨ b = .clear) : trackEntry c a b = [] := by
  obtain rfl | rfl := ha <;> obtain rfl | rfl := hb <;> rfl

theorem handled_of_occupied (hm : m.masks = []) (hk : k.state = .occupied) :
    k.handled r m track = k.judged r m track := by
  simp [CircuitData.handled, hm, hk]

end

/-- Settles O22: without tracking a measurement is its counts and then its decision, which the counts alone determine. -/
theorem verdictMovesCountsAndState : Obligations.VerdictMovesCountsAndState := by
  intro samples s c rest r ht hr hn h0 hk
  obtain ⟨t, hx, -, hc, -, he⟩ := measurementComplete_of_turn ht hr hn
  refine ⟨t, s.measured c r samples, hx, by rw [hc]; rfl, ?_⟩
  generalize hm : s.measured c r samples = m
  have hmasks : m.masks = [] := by rw [← h0, ← hm]; rfl
  rw [State.afterMeasurement, hm] at hc he
  generalize s.circuit c = k at *
  intro k' d u wrong low high reverse zero hquiet
  have hcounted := counted_verdictOf k m.signed r.joint (dropThreshold_le_pick k.clearLevel r)
  rw [hk.elim (handled_of_occupied hmasks) (handled_of_clear hmasks), judged_untracked hquiet] at hc he
  generalize k.counted _ = k₁ at hcounted hc he
  have hlow : k₁.low = low := congrArg (·.low) hcounted
  have hhigh : k₁.high = high := congrArg (·.high) hcounted
  have hreverse : k₁.reverse = reverse := congrArg (·.reverse) hcounted
  have hstate : k₁.state = k.state := congrArg (·.state) hcounted
  have hq : k₁.q = k.q := congrArg (·.q) hcounted
  have he : t.inbox.entries = s.inbox.entries ++ (trackEntry c k.state (k₁.decided r).state).map (RegUnit.track, ·) := he
  rw [← hstate] at hk he ⊢
  rw [← hlow, ← hhigh, ← hreverse, ← hq]
  have entered : ∀ {st : TrackState}, k₁.decided r = k₁.enter st → (t.circuit c).state = st ∧ zero := fun h => by
    rw [h] at hc
    show (t.circuit c).state = _ ∧ (t.circuit c).low = 0 ∧ (t.circuit c).high = 0 ∧ (t.circuit c).reverse = 0
    rw [hc]
    exact ⟨rfl, rfl, rfl, rfl⟩
  refine ⟨by rw [hc]; exact decided_q k₁ r, fun hrev => ?_, fun hrev => ⟨?_, fun hs hl => ?_, fun hs hl => ?_,
    fun hs => ?_⟩⟩
  · obtain ⟨hst, hz⟩ := entered (decided_fails hrev)
    rw [decided_fails hrev] at he
    refine ⟨hst, hz, ?_⟩
    rw [he]
    exact congrArg (fun es => s.inbox.entries ++ es.map (RegUnit.track, ·)) (trackEntry_fails hk .joint)
  · rw [he, trackEntry_enabled c hk (decided_enabled hrev hk)]
    simp
  · exact entered (decided_drops hrev hs hl)
  · exact entered (decided_picks hrev hs hl)
  · rw [decided_stays hrev hs] at hc
    rw [hc]
    exact ⟨rfl, rfl, rfl, rfl⟩

end Sys2Proof.Machine
end

section
/-! ### The block switch, the progress check and the releases of a section (R99 to R104, R109 to R113) -/

namespace Sys2Proof.Machine

/-! #### The end of a step -/

theorem commit_entries_extend (s t : State) : t.inbox.entries <+: (commit s t).inbox.entries := by
  rw [commit_entries, List.append_assoc]
  exact List.prefix_append _ _

/-- A step after which each section and the box disagree as before makes no DISAGREE entry. -/
theorem commit_entries_of_disagree {s t : State} (hd : ∀ x, (t.section_ x).disagree = (s.section_ x).disagree)
    (hv : t.service = s.service) : (commit s t).inbox.entries = t.inbox.entries := by
  have hs : disagreeFor s t = [] := by simp [disagreeFor, hd]
  have hb : boxDisagreeFor s t = [] := by simp [boxDisagreeFor, hv]
  simp [commit_entries, hs, hb]

/-! #### The progress check (R111) -/

/-- The run of occupied tracks ends at the first that is CLEAR. -/
theorem occupiedRun_eq_findIdx (clear : Circuit → Bool) (cs : List Circuit) : occupiedRun clear cs = cs.findIdx clear := by
  induction cs with
  | nil => rfl
  | cons c cs ih => cases h : clear c <;> simp [occupiedRun, List.findIdx_cons, h, ih]

/-- What the progress check makes of a record: it is carried over the arrival tracks that are not CLEAR up to the first that
is, and is CLEARED where it has been carried over all of them and the first of all is CLEAR. -/
def Train.CheckedAs (r r' : Train) (s : State) (tracks : List Circuit) : Prop :=
  r.progress ≤ r'.progress ∧ r'.progress ≤ tracks.length ∧
    (∀ i (hi : i < tracks.length), r.progress ≤ i → i < r'.progress → (s.circuit tracks[i]).state ≠ .clear) ∧
    (∀ (hp : r'.progress < tracks.length), (s.circuit tracks[r'.progress]).state = .clear) ∧
    ((∃ c rest, tracks = c :: rest ∧ (s.circuit c).state = .clear) → r'.progress = tracks.length → r'.stage = .cleared) ∧
    (r'.progress < tracks.length → r'.stage = r.stage) ∧
    (∀ c rest, tracks = c :: rest → (s.circuit c).state ≠ .clear → r'.stage = r.stage)

theorem arrivedClear_iff (clear : Circuit → Bool) (tracks : List Circuit) (p : Nat) :
    arrivedClear clear tracks p = true ↔ p = tracks.length ∧ ∃ c rest, tracks = c :: rest ∧ clear c = true := by
  cases tracks <;> simp [arrivedClear]

theorem progressed_checkedAs (s : State) {r : Train} {tracks : List Circuit} (hr : r.progress ≤ tracks.length) :
    r.CheckedAs (r.progressed s.clear tracks) s tracks := by
  have hrun : (r.progressed s.clear tracks).progress = r.progress + (tracks.drop r.progress).findIdx s.clear := by
    rw [← occupiedRun_eq_findIdx]
    rfl
  have hlen : (tracks.drop r.progress).findIdx s.clear ≤ tracks.length - r.progress := by
    simpa using List.findIdx_le_length (xs := tracks.drop r.progress) (p := s.clear)
  have hstage : ∀ h : ¬arrivedClear s.clear tracks (r.progressed s.clear tracks).progress = true,
      (r.progressed s.clear tracks).stage = r.stage := fun h => if_neg h
  refine ⟨by omega, by omega, fun i hi hle hlt => ?_, fun hp => ?_, fun hc hp => if_pos ?_, fun hp => hstage fun h => ?_,
    fun c rest hc hocc => hstage fun h => ?_⟩
  · have hn := List.not_of_lt_findIdx (p := s.clear) (xs := tracks.drop r.progress) (i := i - r.progress) (by omega)
    simpa [State.clear, Nat.add_sub_cancel' hle] using hn
  · have hf := List.findIdx_getElem (p := s.clear) (xs := tracks.drop r.progress) (w := by simp; omega)
    simpa [State.clear, hrun] using hf
  · exact (arrivedClear_iff _ _ _).2 ⟨hp, by simpa [State.clear] using hc⟩
  · exact absurd ((arrivedClear_iff _ _ _).1 h).1 (by omega)
  · obtain ⟨-, d, rest', hd, hclear⟩ := (arrivedClear_iff _ _ _).1 h
    obtain ⟨rfl, -⟩ := List.cons.inj (hc.symm.trans hd)
    exact hocc (by simpa [State.clear] using hclear)

/-- The progress check of the section of an IN record in ENTERED_IN, the tracks as they stand in `s`. -/
def State.Checks (s t : State) (x : Sec) : Prop :=
  ∀ r sr, (s.section_ x).state = .enteredIn → (s.section_ x).train = some r → r.inward = true →
    (s.section_ x).record = some sr → r.progress ≤ sr.arrival.length →
    ∃ r', (t.section_ x).train = some r' ∧ r.CheckedAs r' s sr.arrival

section
variable {x : Sec} {s u : State}

theorem progressCheck_checks (hk : u.section_ x = s.section_ x) (ht : u.track = s.track) :
    s.Checks (progressCheck x u) x := by
  intro r sr hs hr hin hrec hp
  have hclear : u.clear = s.clear := by
    unfold State.clear State.circuit
    rw [ht]
  refine ⟨_, congrArg SectionData.train (progressCheck_enteredIn x u hk hr hs hin), ?_⟩
  rw [hclear, SectionData.arrivals, hrec]
  exact progressed_checkedAs s hp

/-- The end of the step leaves the record the check made. -/
theorem State.Checks.commit (h : s.Checks u x) : s.Checks (commit s u) x := by
  unfold State.Checks
  rw [commit_section]
  exact h

theorem progressCheck_section_of_state (h : (s.section_ x).state ≠ .enteredIn) :
    (progressCheck x s).section_ x = s.section_ x := by
  simp only [progressCheck]
  split
  · rfl
  · simp [h]

/-- The record of a section that the progress check sees keeps all but its progress and its stage. -/
theorem progressCheck_train {r : Train} (hr : (s.section_ x).train = some r) : ∃ p st,
    (progressCheck x s).section_ x = { s.section_ x with train := some { r with progress := p, stage := st } } ∧
      (st = r.stage ∨ st = .cleared) := by
  simp only [progressCheck, hr]
  split
  · refine ⟨(r.progressed s.clear (s.section_ x).arrivals).progress, (r.progressed s.clear (s.section_ x).arrivals).stage,
      by rw [State.section_setSection, if_pos rfl]; rfl, ?_⟩
    simp only [Train.progressed]
    split
    · exact .inr rfl
    · exact .inl rfl
  · exact ⟨r.progress, r.stage, by rw [← hr], .inl rfl⟩

/-- ENTERED_IN entered, whatever the check at the entry finds. -/
theorem enterEnteredIn_section (x : Sec) (auto : Bool) (s : State) : ∃ tr,
    (enterEnteredIn x auto s).section_ x = { (s.section_ x).enter .enteredIn none with train := tr } ∧
      ∀ r, (s.section_ x).train = some r → ∃ r', tr = some r' ∧ r'.ident = r.ident ∧
        (r'.stage = .entered ∨ r'.stage = .cleared) ∧ r'.entered = some s.register.clock ∧ r'.accepted = r.accepted := by
  have hsec := enterSec_section x .enteredIn ((s.section_ x).train.map (Train.enter s.register.clock)) .void auto s
  cases hr : (s.section_ x).train with
  | none =>
    obtain ⟨tr, ht, -⟩ := progressCheck_section x
      (enterSec x .enteredIn ((s.section_ x).train.map (Train.enter s.register.clock)) .void auto s)
    refine ⟨tr, ?_, by simp⟩
    rw [enterEnteredIn, ht, hsec]
    rfl
  | some r =>
    obtain ⟨p, st, ht, hst⟩ := progressCheck_train (s := enterSec x .enteredIn _ .void auto s)
      (r := r.enter s.register.clock) (by rw [hsec, hr]; rfl)
    refine ⟨_, by rw [enterEnteredIn, ht, hsec]; rfl, fun r' h => ?_⟩
    cases h
    exact ⟨_, rfl, rfl, hst, rfl, rfl⟩

theorem enterEnteredIn_entries (x : Sec) (auto : Bool) (s : State) : (enterEnteredIn x auto s).inbox.entries =
    s.inbox.entries ++
      [(RegUnit.block, RegBody.change x (s.section_ x).state .enteredIn ((s.section_ x).train.map (·.ident)) auto)] := by
  have he : ∀ t, (progressCheck x t).inbox.entries = t.inbox.entries := fun t => by
    simp only [progressCheck]
    repeat' split
    all_goals rfl
  rw [enterEnteredIn, he, enterSec_entries]
  cases hr : (s.section_ x).train <;> simp [sectionEntries, trainIdOf, SectionData.enter, SecState.holdsNone, hr]

end

/-! #### The arrivals of a block switch (R99 to R102) -/

/-- A section holds a track in the state before the first of its changes on their way to it, else in the present one. -/
theorem blockTrack_eq_find (s : State) (x : Sec) (c : Circuit) : s.blockTrack x c =
    ((s.inbox.progress.find? fun h => decide (h.sec = x ∧ h.circuit = c)).map (·.was)).getD (s.circuit c).state := by
  have h : ∀ hs : List TrackHanded, hs.findSome? (·.trackWas x c) =
      (hs.find? fun h => decide (h.sec = x ∧ h.circuit = c)).map (·.was) := by
    intro hs
    induction hs with
    | nil => rfl
    | cons h hs ih =>
      rw [List.findSome?_cons, List.find?_cons, TrackHanded.trackWas, ih]
      by_cases hc : h.sec = x ∧ h.circuit = c <;> simp [hc]
  rw [State.blockTrack, h]

/-- Section `x` ends in a state that holds no record, its switch now at `i`: the entry of the change, and behind it that of
the record it ends. -/
def State.Ends (s t : State) (x : Sec) (i : Ind) (st : SecState) (outcome : TrainEnd) : Prop :=
  let k := s.section_ x
  (t.section_ x).state = st ∧ (t.section_ x).drive = driveOf st ∧ (t.section_ x).position = i ∧
    (t.section_ x).train = none ∧ (t.section_ x).releaseUnused = false ∧ (t.section_ x).timer = none ∧
    (t.section_ x).released = false ∧
    (k.train = none →
      s.inbox.entries ++ [(RegUnit.block, RegBody.change x k.state st none false)] <+: t.inbox.entries) ∧
    ∀ r, k.train = some r → s.inbox.entries ++ [(RegUnit.block, RegBody.change x k.state st (some r.ident) false),
      (RegUnit.block, RegBody.train r.ident x r.inward r.cls outcome r.offered r.entered)] <+: t.inbox.entries

/-- Section `x` enters ENTERED_IN, its switch now at `i`, with its record entered. -/
def State.EntersIn (s t : State) (x : Sec) (i : Ind) : Prop :=
  (t.section_ x).state = .enteredIn ∧ (t.section_ x).drive = .tol ∧ (t.section_ x).position = i ∧
    (∀ r, (s.section_ x).train = some r → r.inward = true → ∃ r', (t.section_ x).train = some r' ∧ r'.ident = r.ident ∧
      (r'.stage = .entered ∨ r'.stage = .cleared) ∧ r'.entered = some s.register.clock ∧ r'.accepted = r.accepted)

/-- `u` is `s` with an arrival of the switch of `x` at `i` taken, as far as section `x` sees. -/
structure State.Switched (s u : State) (x : Sec) (i : Ind) : Prop where
  section_ : u.section_ x = { s.section_ x with position := i }
  entries : u.inbox.entries = s.inbox.entries
  clock : u.register.clock = s.register.clock
  mayAccept : u.mayAccept x = s.mayAccept x

theorem takeSwitch_of_waits {s : State} {x : Sec} {i : Ind} (h : s.switchWaits x i) :
    ∃ u, takeSwitch x i s = some u ∧ s.Switched u x i := by
  obtain ⟨rest, hr⟩ := takeFirst_of_find h
  have ht : takeSwitch x i s =
      some ((s.setInbox { s.inbox with switches := rest }).setSection x { s.section_ x with position := i }) := by
    simp only [takeSwitch, hr, if_true]
  refine ⟨_, ht, by simp, rfl, rfl, ?_⟩
  rw [Bool.eq_iff_iff, mayAccept_iff, mayAccept_iff, State.section_setSection, if_pos rfl]
  rfl

section
variable {s u : State} {x : Sec} {i : Ind} (hu : s.Switched u x i)
include hu

theorem endSec_ends {st : SecState} (hst : st.holdsNone = true) (outcome : TrainEnd) :
    s.Ends (commit s (endSec x st outcome u)) x i st outcome := by
  have hsec : (endSec x st outcome u).section_ x = { s.section_ x with position := i }.enter st none := by
    rw [endSec, enterSec_section, hu.section_]
  have hent : (endSec x st outcome u).inbox.entries = s.inbox.entries ++ _ :=
    (enterSec_entries x st none outcome false u).trans (by rw [hu.entries, hu.section_])
  simp only [State.Ends, commit_section, hsec]
  refine ⟨rfl, rfl, rfl, by simp [SectionData.enter], rfl, by simp [SectionData.enter, hst],
    by simp [SectionData.enter, hst], fun hr => ?_, fun r hr => ?_⟩
  all_goals
    have hp := commit_entries_extend s (endSec x st outcome u)
    rw [hent] at hp
    simpa [sectionEntries, trainIdOf, trainEntry, SectionData.enter, hst, hr] using hp

theorem enterEnteredIn_entersIn (auto : Bool) : s.EntersIn (commit s (enterEnteredIn x auto u)) x i := by
  obtain ⟨tr, hsec, htr⟩ := enterEnteredIn_section x auto u
  rw [hu.section_, hu.clock] at htr
  simp only [State.EntersIn, commit_section, hsec, hu.section_]
  exact ⟨rfl, rfl, rfl, fun r hr _ => htr r hr⟩

end

section
variable {s : State} {x : Sec}

theorem switchLC_accepts (h : (s.section_ x).state = .offerIn) (hm : s.mayAccept x = true) : switchLC x s =
    enterSec x .clearIn ((s.section_ x).train.map (Train.accept s.register.clock)) .void false s := by
  simp [switchLC, h, hm]

theorem switchLC_stays (h : ¬((s.section_ x).state = .offerIn ∧ s.mayAccept x = true)) : switchLC x s = s := by
  simpa [switchLC] using fun ho hm => absurd ⟨ho, hm⟩ h

theorem switchTOL_enters (h : (s.section_ x).state = .clearIn) : switchTOL x s = enterEnteredIn x false s := by
  simp [switchTOL, h]

theorem switchTOL_ends (h : (s.section_ x).state ∈
    [SecState.blocked, .offerIn, .offerOut, .clearOut, .unofferedClear, .enteredOut]) :
    switchTOL x s = endSec x .protected_ .cancelled s := by
  simp only [List.mem_cons, List.not_mem_nil, or_false] at h
  obtain h | h | h | h | h | h := h <;> simp [switchTOL, h]

theorem switchTOL_stays (h : (s.section_ x).state ∈ [SecState.enteredIn, .protected_, .closed, .through]) :
    switchTOL x s = s := by
  simp only [List.mem_cons, List.not_mem_nil, or_false] at h
  obtain h | h | h | h := h <;> simp [switchTOL, h]

/-- LB in CLEAR_IN: ENTERING heard lets the train in, a cancellation heard ends the record (R102). -/
theorem switchLB_clearIn (h : (s.section_ x).state = .clearIn) : switchLB x s =
    if (s.section_ x).enteringHeard then enterEnteredIn x false s
    else if (s.section_ x).cancelHeard then endSec x .blocked .cancelled s else s := by
  simp [switchLB, h]

/-- LB in ENTERED_IN: a CLEARED record is complete, a released section ends one that is not (R102). -/
theorem switchLB_enteredIn (h : (s.section_ x).state = .enteredIn) : switchLB x s =
    if (s.section_ x).cleared then endSec x .blocked .complete s
    else if (s.section_ x).released then endSec x .blocked .released s else s := by
  simp [switchLB, h]

theorem switchLB_protected (h : (s.section_ x).state = .protected_) : switchLB x s = endSec x .blocked .cancelled s := by
  simp [switchLB, h]

theorem switchLB_stays (h : (s.section_ x).state ∈
    [SecState.closed, .blocked, .offerOut, .clearOut, .unofferedClear, .enteredOut, .offerIn, .through]) :
    switchLB x s = s := by
  simp only [List.mem_cons, List.not_mem_nil, or_false] at h
  obtain h | h | h | h | h | h | h | h := h <;> simp [switchLB, h]

end

theorem cleared_of_train {k : SectionData} {r : Train} (h : k.train = some r) : k.cleared = true ↔ r.stage = .cleared := by
  simp [SectionData.cleared, h]

/-- An arrival at LC gives LC to an offer that may be accepted, and nothing else. -/
theorem arrivalAtLC_by_offer {s : State} {x : Sec} (hw : s.switchWaits x .lc) :
    let t := commit s (arrivalAtLC x s)
    ((s.section_ x).state = .offerIn → s.mayAccept x = true → t.section_ x =
      { s.section_ x with position := .lc }.enter .clearIn
        ((s.section_ x).train.map (Train.accept s.register.clock))) ∧
    (¬((s.section_ x).state = .offerIn ∧ s.mayAccept x = true) →
      t.section_ x = { s.section_ x with position := .lc }) := by
  obtain ⟨u, ht, hu⟩ := takeSwitch_of_waits hw
  have hstate : (u.section_ x).state = (s.section_ x).state := by rw [hu.section_]
  have ha : arrivalAtLC x s = switchLC x u := by simp only [arrivalAtLC, ht]
  simp only [ha, commit_section]
  refine ⟨fun ho hm => ?_, fun hn => ?_⟩
  · rw [switchLC_accepts (hstate.trans ho) (hu.mayAccept.trans hm), enterSec_section, hu.section_, hu.clock]
  · rw [switchLC_stays (by rwa [hstate, hu.mayAccept]), hu.section_]

/-- Settles O31: what each arrival does by the section's state, after the arrival is taken. -/
theorem blockSwitchArrivals : Obligations.BlockSwitchArrivals := by
  intro x s k clock held open_ stays ends entersIn
  have hopen : open_ ↔ s.mayAccept x = true := by
    simp only [mayAccept_iff, blockTrack_eq_find]
    rfl
  refine ⟨fun hw => ⟨_, rfl, ?_⟩, fun hw => ⟨_, rfl, ?_⟩, fun hw => ⟨_, rfl, ?_⟩⟩
  · obtain ⟨haccept, hstay⟩ := arrivalAtLC_by_offer hw
    refine ⟨fun ho hm => ?_, fun hn => hstay fun ⟨ho, hm⟩ => ?_⟩
    · rw [haccept ho (hopen.1 hm)]
      refine ⟨rfl, rfl, rfl, fun r hr => ?_⟩
      have hr : (s.section_ x).train = some r := hr
      simp only [SectionData.enter, hr]
      rfl
    · exact hn.elim (· ho) (· (hopen.2 hm))
  · obtain ⟨u, ht, hu⟩ := takeSwitch_of_waits hw
    have hstate : (u.section_ x).state = k.state := by rw [hu.section_]
    have ha : arrivalAtTOL x s = switchTOL x u := by simp only [arrivalAtTOL, ht]
    rw [ha]
    refine ⟨fun h => ?_, fun h => ?_, fun h => ?_⟩
    · rw [switchTOL_enters (hstate.trans h)]
      exact enterEnteredIn_entersIn hu false
    · rw [switchTOL_ends (by simpa [hstate] using h)]
      exact endSec_ends hu rfl .cancelled
    · rw [switchTOL_stays (by simpa [hstate] using h)]
      exact hu.section_
  · obtain ⟨u, ht, hu⟩ := takeSwitch_of_waits hw
    have hstate : (u.section_ x).state = k.state := by rw [hu.section_]
    have hflags : (u.section_ x).enteringHeard = k.enteringHeard ∧ (u.section_ x).cancelHeard = k.cancelHeard ∧
        (u.section_ x).released = k.released ∧ (u.section_ x).train = k.train := by simp [hu.section_, k]
    obtain ⟨hentering, hcancel, hreleased, htrain⟩ := hflags
    have ha : arrivalAtLB x s = switchLB x u := by simp only [arrivalAtLB, ht]
    rw [ha]
    refine ⟨fun h he => ?_, fun h he hc => ?_, fun h he hc => ?_, fun r h hr => ⟨fun hcl => ?_, fun hcl hrel => ?_,
      fun hcl hrel => ?_⟩, fun h => ?_, fun h => ?_⟩
    · rw [switchLB_clearIn (hstate.trans h), hentering, he, if_pos rfl]
      exact enterEnteredIn_entersIn hu false
    · rw [switchLB_clearIn (hstate.trans h), hentering, he, hcancel, hc, if_neg (by simp), if_pos rfl]
      exact endSec_ends hu rfl .cancelled
    · rw [switchLB_clearIn (hstate.trans h), hentering, he, hcancel, hc, if_neg (by simp), if_neg (by simp)]
      exact hu.section_
    · rw [switchLB_enteredIn (hstate.trans h), if_pos ((cleared_of_train (htrain.trans hr)).2 hcl)]
      exact endSec_ends hu rfl .complete
    · rw [switchLB_enteredIn (hstate.trans h), if_neg (mt (cleared_of_train (htrain.trans hr)).1 hcl), hreleased, hrel,
        if_pos rfl]
      exact endSec_ends hu rfl .released
    · rw [switchLB_enteredIn (hstate.trans h), if_neg (mt (cleared_of_train (htrain.trans hr)).1 hcl), hreleased, hrel,
        if_neg (by simp)]
      exact hu.section_
    · rw [switchLB_protected (hstate.trans h)]
      exact endSec_ends hu rfl .cancelled
    · rw [switchLB_stays (by simpa [hstate] using h)]
      exact hu.section_

/-! #### Releases (R104, R113) -/

theorem mayRelease_iff (k : SectionData) : k.mayRelease = true ↔ k.state = .enteredIn ∧
    (∀ r, k.train = some r → r.stage ≠ .cleared) ∧ k.timer = none ∧ k.released = false := by
  unfold SectionData.mayRelease SectionData.cleared
  cases k.train <;> simp [and_assoc]

/-- An arrival at R taken spends the release of the section the lever is under, and no other. -/
theorem blockControlArrival_section {n : Lever} {s : State} (h : n ∈ s.inbox.atR) (x : Sec) :
    (blockControlArrival n s).section_ x =
      if (s.lever n).blockControl = some x then { s.section_ x with releaseUnused := false } else s.section_ x := by
  obtain ⟨rest, ht⟩ := takeFirst_of_mem h
  simp only [blockControlArrival, ht]
  cases hb : (s.lever n).blockControl with
  | none => simp
  | some y => by_cases hx : x = y <;> simp [hx, eq_comm]

section
variable {x : Sec} {s : State}

theorem pressPlunger_accepted (h : (s.section_ x).mayRelease = true) : pressPlunger x s =
    (s.setSection x { s.section_ x with
      timer := some (s.now + s.times.emrel * 1000)
      releases := countRelease (s.section_ x).releases }).enter .block (.release x (countRelease (s.section_ x).releases)) :=
  if_pos h

theorem pressPlunger_ignored (h : ¬(s.section_ x).mayRelease = true) : pressPlunger x s = s := if_neg h

theorem releasePlungerPress_of_mem (h : x ∈ s.inbox.plungers) : ∃ rest,
    releasePlungerPress x s = pressPlunger x (s.setInbox { s.inbox with plungers := rest }) := by
  obtain ⟨rest, ht⟩ := takeFirst_of_mem h
  exact ⟨rest, by simp only [releasePlungerPress, ht]⟩

/-- An accepted press starts the timer and makes its entry, and no DISAGREE. -/
theorem commit_releasePlungerPress (h : x ∈ s.inbox.plungers) (hm : (s.section_ x).mayRelease = true) :
    (commit s (releasePlungerPress x s)).section_ x = { s.section_ x with
      timer := some (s.now + s.times.emrel * 1000)
      releases := countRelease (s.section_ x).releases } ∧
    (commit s (releasePlungerPress x s)).inbox.entries =
      s.inbox.entries ++ [(RegUnit.block, RegBody.release x (countRelease (s.section_ x).releases))] := by
  obtain ⟨rest, hp⟩ := releasePlungerPress_of_mem h
  rw [hp, pressPlunger_accepted (by exact hm)]
  refine ⟨by simp, ?_⟩
  refine Eq.trans (commit_entries_of_disagree (fun y => ?_) ?_) ?_
  · by_cases hy : y = x
    · subst hy
      simp [SectionData.disagree]
    · simp [hy]
  · rfl
  · rfl

theorem commit_releasePlungerPress_ignored (h : x ∈ s.inbox.plungers) (hm : ¬(s.section_ x).mayRelease = true) :
    (commit s (releasePlungerPress x s)).section_ x = s.section_ x := by
  obtain ⟨rest, hp⟩ := releasePlungerPress_of_mem h
  rw [hp, pressPlunger_ignored (by exact hm), commit_section, State.setInbox_section_]

theorem emergencyTimerExpiry_section {d : Nat} (h : (s.section_ x).timer = some d) :
    (emergencyTimerExpiry x s).section_ x =
      if d ≤ s.now then { s.section_ x with timer := none, released := true } else s.section_ x := by
  simp only [emergencyTimerExpiry, h]
  split <;> simp

end

/-! #### The changes of a section's tracks (R75, R109, R111) -/

theorem mem_arrivals_iff {k : SectionData} {c : Circuit} :
    c ∈ k.arrivals ↔ ∃ r, k.record = some r ∧ c ∈ r.arrival := by
  unfold SectionData.arrivals
  cases k.record <;> simp

section
variable {x : Sec} {s : State}

/-- Where auto-TOL acts the section enters ENTERED_IN, and where it does not the progress check is made. -/
theorem autoTol_of_mem (h : x ∈ s.inbox.autoTol) : ∃ u, u.sections = s.sections ∧ u.track = s.track ∧
    u.register = s.register ∧ u.inbox.entries = s.inbox.entries ∧
    autoTol x s = if (s.section_ x).autoTolActs then enterEnteredIn x true u else progressCheck x u := by
  obtain ⟨rest, ht⟩ := takeFirst_of_mem h
  refine ⟨s.setInbox { s.inbox with autoTol := rest, progress := dropFirst (s.isFall x) s.inbox.progress },
    rfl, rfl, rfl, rfl, ?_⟩
  simp only [autoTol, ht]

/-- A change of the first arrival track taken by AUTO_TOL is seen: with no other on its way, the section holds the track as
it stands. -/
theorem autoTol_blockTrack (hx : x ∈ s.inbox.autoTol) {sr : SecRecord} {c : Circuit} {rest : List Circuit}
    {before after : List TrackHanded} (hr : (s.section_ x).record = some sr) (ha : sr.arrival = c :: rest)
    (hp : s.inbox.progress = before ++ ⟨x, c, .clear⟩ :: after)
    (ho : ∀ h ∈ before ++ after, h.sec = x → h.circuit ≠ c) :
    (commit s (autoTol x s)).blockTrack x c = (s.circuit c).state := by
  have hfall : ∀ g ∈ before, s.isFall x g = false := fun g hg => by
    rw [Bool.eq_false_iff, ne_eq, isFall_iff]
    rintro ⟨hs, -, r, rest', hr', ha'⟩
    obtain rfl := Option.some.inj (hr.symm.trans hr')
    exact ho g (by simp [hg]) hs (List.cons.inj (ha.symm.trans ha')).1.symm
  obtain ⟨y, hy⟩ := takeFirst_of_mem hx
  have hprogress : (commit s (autoTol x s)).inbox.progress = before ++ after := by
    rw [(commit_tracks (autoTol_track x)).2, (autoTol_some x hy).2, dropFirst, hp,
      takeFirst_append ((isFall_iff s x _).2 ⟨rfl, rfl, sr, rest, hr, ha⟩) after hfall]
  have hnone : (before ++ after).findSome? (·.trackWas x c) = none :=
    List.findSome?_eq_none_iff.2 fun h hh => if_neg fun ⟨hs, hc⟩ => ho h hh hs hc
  rw [State.blockTrack, hprogress, hnone, commit_circuit, State.circuit, autoTol_track]
  rfl

variable {h : TrackHanded} {before after : List TrackHanded}

/-- The first change handed to a section is the one PROGRESS_CHECK finds. -/
theorem takeFirst_progress (hp : s.inbox.progress = before ++ h :: after) (hx : h.sec = x)
    (hb : ∀ g ∈ before, g.sec ≠ x) :
    takeFirst (fun g : TrackHanded => decide (g.sec = x)) s.inbox.progress = some (h, before ++ after) := by
  rw [hp]
  exact takeFirst_append (by simp [hx]) after fun g hg => by simp [hb g hg]

/-- A change that PROGRESS_CHECK takes brings the progress check where it is one of an arrival track. -/
theorem takeProgress_of_taken {rest : List TrackHanded}
    (ht : takeFirst (fun g : TrackHanded => decide (g.sec = x)) s.inbox.progress = some (h, rest))
    (hd : (s.isFall x h && decide (x ∈ s.inbox.autoTol) && (s.section_ x).autoTolActs) = false) :
    ∃ u, u.sections = s.sections ∧ u.track = s.track ∧
      takeProgress x s = if h.circuit ∈ (s.section_ x).arrivals then progressCheck x u else u := by
  refine ⟨s.setInbox { s.inbox with
    progress := rest
    autoTol := if s.isFall x h then dropFirst (· = x) s.inbox.autoTol else s.inbox.autoTol }, rfl, rfl, ?_⟩
  simp only [takeProgress, ht, hd, Bool.false_eq_true, if_false]

/-- A change on its way to section `x` that PROGRESS_CHECK leaves to AUTO_TOL: one on which auto-TOL acts. -/
theorem leftToAutoTol_iff (hx : h.sec = x) :
    (s.isFall x h && decide (x ∈ s.inbox.autoTol) && (s.section_ x).autoTolActs) = true ↔
      ((s.section_ x).state = .clearIn ∧ ∃ r, (s.section_ x).record = some r ∧ r.autotol = true ∧ r.arrival ≠ []) ∧
        x ∈ s.inbox.autoTol ∧ h.was = .clear ∧
        ∃ sr rest, (s.section_ x).record = some sr ∧ sr.arrival = h.circuit :: rest := by
  rw [due_iff, isFall_iff, autoTolActs_iff]
  tauto

end

/-- Where auto-TOL acts the section enters ENTERED_IN with its record, and its entry says AUTO (R109). -/
theorem autoTol_acts {x : Sec} {s : State} (hx : x ∈ s.inbox.autoTol) (ha : (s.section_ x).autoTolActs = true) :
    let t := commit s (autoTol x s)
    (t.section_ x).state = .enteredIn ∧ (t.section_ x).drive = .tol ∧
      s.inbox.entries ++ [(RegUnit.block, RegBody.change x .clearIn .enteredIn ((s.section_ x).train.map (·.ident)) true)] <+:
        t.inbox.entries ∧
      ∀ r, (s.section_ x).train = some r → ∃ r', (t.section_ x).train = some r' ∧
        r'.entered = some s.register.clock := by
  obtain ⟨u, hsec, -, hreg, hent, hauto⟩ := autoTol_of_mem hx
  have hk : u.section_ x = s.section_ x := by rw [State.section_, hsec, State.section_]
  obtain ⟨hclear, -⟩ := (autoTolActs_iff _).1 ha
  obtain ⟨tr, ht, htr⟩ := enterEnteredIn_section x true u
  rw [hk, hreg] at htr
  simp only [hauto, if_pos ha, commit_section, ht]
  refine ⟨rfl, rfl, ?_, fun r hr => ?_⟩
  · have hp := commit_entries_extend s (enterEnteredIn x true u)
    rwa [enterEnteredIn_entries, hk, hent, hclear] at hp
  · obtain ⟨r', hr', -, -, he, -⟩ := htr r hr
    exact ⟨r', hr', he⟩

/-- Where auto-TOL does not act, AUTO_TOL changes no more of the section than the progress check does. -/
theorem autoTol_checks {x : Sec} {s : State} (hx : x ∈ s.inbox.autoTol) (ha : ¬(s.section_ x).autoTolActs = true) :
    let t := commit s (autoTol x s)
    ((s.section_ x).state ≠ .enteredIn → t.section_ x = s.section_ x) ∧ s.Checks t x ∧
      t.section_ x = { s.section_ x with train := (t.section_ x).train } := by
  obtain ⟨u, hsec, htrack, -, -, hauto⟩ := autoTol_of_mem hx
  have hk : u.section_ x = s.section_ x := by rw [State.section_, hsec, State.section_]
  simp only [hauto, if_neg ha, commit_section]
  obtain ⟨tr, ht, -⟩ := progressCheck_section x u
  refine ⟨fun hs => (progressCheck_section_of_state (by rwa [hk])).trans hk, (progressCheck_checks hk htrack).commit, ?_⟩
  rw [ht, hk]

/-- A change of a track that is no arrival track changes no section. -/
theorem takeProgress_sections_of_notArrival {x : Sec} {s : State} {h : TrackHanded} {rest : List TrackHanded}
    (ht : takeFirst (fun g : TrackHanded => decide (g.sec = x)) s.inbox.progress = some (h, rest))
    (hc : h.circuit ∉ (s.section_ x).arrivals) (y : Sec) :
    (commit s (takeProgress x s)).section_ y = s.section_ y := by
  rw [commit_section]
  cases hd : (s.isFall x h && decide (x ∈ s.inbox.autoTol) && (s.section_ x).autoTolActs) with
  | true => rw [takeProgress_left x ht hd]
  | false =>
    obtain ⟨u, hsec, -, htake⟩ := takeProgress_of_taken ht hd
    rw [htake, if_neg hc, State.section_, hsec, State.section_]

/-- A change of an arrival track brings the progress check; one left to AUTO_TOL is of a section not in ENTERED_IN. -/
theorem takeProgress_checks {x : Sec} {s : State} {h : TrackHanded} {rest : List TrackHanded}
    (ht : takeFirst (fun g : TrackHanded => decide (g.sec = x)) s.inbox.progress = some (h, rest))
    (hc : h.circuit ∈ (s.section_ x).arrivals) : s.Checks (takeProgress x s) x := by
  cases hd : (s.isFall x h && decide (x ∈ s.inbox.autoTol) && (s.section_ x).autoTolActs) with
  | true =>
    obtain ⟨hclear, -⟩ := (autoTolActs_iff _).1 ((due_iff x h).1 hd).2.2
    intro r sr hs
    simp [hclear] at hs
  | false =>
    obtain ⟨u, hsec, htrack, htake⟩ := takeProgress_of_taken ht hd
    rw [htake, if_pos hc]
    exact progressCheck_checks (by rw [State.section_, hsec, State.section_]) htrack

/-- Settles O34: each of the five commands by what it takes of its list and what that brings. -/
theorem releaseProgressAndEmergency : Obligations.ReleaseProgressAndEmergency := by
  unfold Obligations.ReleaseProgressAndEmergency
  intro autoActs checks
  refine ⟨fun n s hn => ⟨_, rfl, fun x => ⟨fun hb => ?_, fun hb => ?_⟩⟩, fun x s hx => ⟨_, rfl, fun ha => ?_, fun ha => ?_,
    fun sr c rest before after hr ha hp ho => autoTol_blockTrack hx hr ha hp ho⟩,
    fun x s h before after hp hsec hb => ⟨_, rfl, fun hl => ?_, fun hl => ?_, fun hc => ?_, fun hc => ?_⟩,
    fun x s hx => ⟨_, rfl, fun ha => ?_, fun ha => ?_⟩, fun x s d hd => ⟨_, rfl, fun hle => ?_, fun hlt => ?_⟩⟩
  · rw [commit_section, blockControlArrival_section hn, if_pos hb]
  · rw [commit_section, blockControlArrival_section hn, if_neg hb]
  · exact autoTol_acts hx ((autoTolActs_iff _).2 ha)
  · exact autoTol_checks hx (mt (autoTolActs_iff _).1 ha)
  · have ht := takeFirst_progress hp hsec hb
    rw [(commit_tracks (takeProgress_track x)).2, takeProgress_left x ht ((leftToAutoTol_iff hsec).2 hl)]
    exact ⟨rfl, fun y => commit_section s s y⟩
  · have ht := takeFirst_progress hp hsec hb
    rw [(commit_tracks (takeProgress_track x)).2]
    exact (takeProgress_taken x ht (Bool.eq_false_iff.2 (mt (leftToAutoTol_iff hsec).1 hl))).1
  · refine takeProgress_sections_of_notArrival (takeFirst_progress hp hsec hb) fun hm => ?_
    obtain ⟨sr, hr, hm⟩ := mem_arrivals_iff.1 hm
    exact hc sr hr hm
  · exact (takeProgress_checks (takeFirst_progress hp hsec hb) (mem_arrivals_iff.2 hc)).commit
  · exact commit_releasePlungerPress hx ((mayRelease_iff _).2 ha)
  · exact commit_releasePlungerPress_ignored hx (mt (mayRelease_iff _).1 ha)
  · rw [commit_section, emergencyTimerExpiry_section hd, if_pos hle]
  · rw [commit_section, emergencyTimerExpiry_section hd, if_neg (by omega)]

end Sys2Proof.Machine
end

section
/-! ### Codes in assembly, and what the Bell unit makes of its ports (R79 to R91, R122, R123) -/

namespace Sys2Proof.Machine

/-! #### The through pair -/

section
variable {p q : Sec}

theorem throughPair_ne (h : p.throughPair = some q) : q ≠ p := by
  cases p <;> cases h <;> decide

theorem throughPair_symm (h : p.throughPair = some q) : q.throughPair = some p := by
  cases p <;> cases h <;> rfl

theorem throughPair_ne_c (h : p.throughPair = some q) : q ≠ .c := by
  cases p <;> cases h <;> decide

end

/-! #### The spoil mark and the classification (R83, R84) -/

section
variable {c : Code} {cause cause' : Option SpoilCause}

theorem spoilBy_of_absent (h : c.spoil = .absent) : c.spoilBy cause = { c with spoil := .present cause } := by
  simp [Code.spoilBy, h]

theorem spoilBy_of_present (h : c.spoil = .present cause') : c.spoilBy cause = c := by
  simp [Code.spoilBy, h]

theorem spoilBy_cases (c : Code) (cause : Option SpoilCause) : ∃ v, c.spoilBy cause = { c with spoil := v } := by
  cases h : c.spoil with
  | absent => exact ⟨_, spoilBy_of_absent h⟩
  | present v => exact ⟨c.spoil, spoilBy_of_present h⟩

@[simp] theorem spoilBy_dir (c : Code) : (c.spoilBy cause).dir = c.dir := by
  obtain ⟨v, h⟩ := spoilBy_cases c cause; rw [h]

@[simp] theorem spoilBy_groups (c : Code) : (c.spoilBy cause).groups = c.groups := by
  obtain ⟨v, h⟩ := spoilBy_cases c cause; rw [h]

@[simp] theorem spoilBy_lastEnd (c : Code) : (c.spoilBy cause).lastEnd = c.lastEnd := by
  obtain ⟨v, h⟩ := spoilBy_cases c cause; rw [h]

@[simp] theorem spoilBy_unrepeated (c : Code) : (c.spoilBy cause).unrepeated = c.unrepeated := by
  obtain ⟨v, h⟩ := spoilBy_cases c cause; rw [h]

theorem spoilBy_spoil_of_absent (h : c.spoil = .absent) : (c.spoilBy cause).spoil = .present cause := by
  rw [spoilBy_of_absent h]

theorem spoilBy_spoil_of_present (h : c.spoil = .present cause') : (c.spoilBy cause).spoil = .present cause' := by
  rw [spoilBy_of_present h, h]

theorem spoilBy_spoil_of_ne (h : c.spoil ≠ .absent) : (c.spoilBy cause).spoil = c.spoil := by
  cases hs : c.spoil with
  | absent => exact absurd hs h
  | present v => exact spoilBy_spoil_of_present hs

theorem classify_of_present (table : List CodeEntry) (h : c.spoil = .present cause) :
    classify table c = .erroneous cause := by
  simp [classify, h]

theorem classify_of_entry {table : List CodeEntry} {d : CodeEntry} (h : c.spoil = .absent)
    (hd : (table.find? fun d => decide (d.pattern = c.groups)) = some d) : classify table c = .meaning d.meaning := by
  simp only [classify, h, hd]

theorem classify_of_no_entry {table : List CodeEntry} (h : c.spoil = .absent)
    (hd : ∀ d ∈ table, d.pattern ≠ c.groups) : classify table c = .unknown := by
  have hn : (table.find? fun d => decide (d.pattern = c.groups)) = none := by simpa using hd
  simp only [classify, h, hn]

end

/-! #### A beat added to a code (R82, R83) -/

section
variable {c : Code} {gs : List Nat} {g gap join : Nat}

theorem extend_of_lt (h : c.groups = gs ++ [g]) (hg : g < 9) : c.extend = { c with groups := gs ++ [g + 1] } := by
  simp [Code.extend, h, Config.maxBeats, hg]

theorem extend_of_full (h : c.groups = gs ++ [g]) (hg : 9 ≤ g) : c.extend = c.spoilBy none := by
  have hn : ¬g < Config.maxBeats := by simpa [Config.maxBeats] using hg
  simp [Code.extend, h, hn]

/-- What a beat at a gap makes of a code whose last group is `g` after the groups `gs`: one beat more in that group, or
a new group of one beat, or a spoil where the group or the code is full (R83). -/
def Code.Placed (c c' : Code) (gs : List Nat) (g gap join : Nat) : Prop :=
  c'.dir = c.dir ∧ c'.lastEnd = none ∧
    (gap ≤ join → g < 9 → c'.groups = gs ++ [g + 1] ∧ c'.spoil = c.spoil) ∧
    (gap ≤ join → 9 ≤ g → c'.groups = c.groups ∧ (c.spoil = .absent → c'.spoil = .present none)) ∧
    (join < gap → c.groups.length < 5 → c'.groups = c.groups ++ [1] ∧ c'.spoil = c.spoil) ∧
    (join < gap → 5 ≤ c.groups.length → c'.groups = c.groups ∧ (c.spoil = .absent → c'.spoil = .present none)) ∧
    ∀ cause, c.spoil = .present cause → c'.spoil = .present cause

/-- The four ways a beat is added to a code that has not overflowed. -/
theorem addBeat_cases (h : c.groups = gs ++ [g]) (ho : c.overflow = false) :
    (gap ≤ join ∧ g < 9 ∧ c.addBeat gap join = { c with lastEnd := none, groups := gs ++ [g + 1] }) ∨
    (gap ≤ join ∧ 9 ≤ g ∧ c.addBeat gap join = { c with lastEnd := none }.spoilBy none) ∨
    (join < gap ∧ c.groups.length < 5 ∧ c.addBeat gap join = { c with lastEnd := none, groups := c.groups ++ [1] }) ∨
    (join < gap ∧ 5 ≤ c.groups.length ∧
      c.addBeat gap join = { c with lastEnd := none, overflow := true }.spoilBy none) := by
  have hgroups : { c with lastEnd := none }.groups = gs ++ [g] := h
  by_cases hgap : gap ≤ join
  · by_cases hg : g < 9
    · refine .inl ⟨hgap, hg, ?_⟩
      simp only [Code.addBeat, ho, hgap, if_true, Bool.false_eq_true, if_false]
      exact extend_of_lt hgroups hg
    · refine .inr (.inl ⟨hgap, by omega, ?_⟩)
      simp only [Code.addBeat, ho, hgap, if_true, Bool.false_eq_true, if_false]
      exact extend_of_full hgroups (by omega)
  · by_cases hl : c.groups.length < 5
    · exact .inr (.inr (.inl ⟨by omega, hl, by simp [Code.addBeat, ho, hgap, hl, Config.maxGroups]⟩))
    · exact .inr (.inr (.inr ⟨by omega, by omega, by simp [Code.addBeat, ho, hgap, hl, Config.maxGroups]⟩))

theorem addBeat_placed (h : c.groups = gs ++ [g]) (ho : c.overflow = false) :
    c.Placed (c.addBeat gap join) gs g gap join := by
  have hfull : ∀ d : Code, d.dir = c.dir → d.lastEnd = none → d.groups = c.groups → d.spoil = c.spoil →
      (d.spoilBy none).dir = c.dir ∧ (d.spoilBy none).lastEnd = none ∧
        ((d.spoilBy none).groups = c.groups ∧ (c.spoil = .absent → (d.spoilBy none).spoil = .present none)) ∧
        ∀ cause, c.spoil = .present cause → (d.spoilBy none).spoil = .present cause := fun d h1 h2 h3 h4 =>
    ⟨by simp [h1], by simp [h2], ⟨by simp [h3], fun hs => spoilBy_spoil_of_absent (h4.trans hs)⟩,
      fun cause hs => spoilBy_spoil_of_present (h4.trans hs)⟩
  unfold Code.Placed
  obtain ⟨hgap, hg, he⟩ | ⟨hgap, hg, he⟩ | ⟨hgap, hl, he⟩ | ⟨hgap, hl, he⟩ :=
    addBeat_cases (gap := gap) (join := join) h ho
  · rw [he]
    exact ⟨rfl, rfl, fun _ _ => ⟨rfl, rfl⟩, fun _ _ => by omega, fun _ => by omega, fun _ => by omega, fun _ hs => hs⟩
  · rw [he]
    obtain ⟨hd, hend, hspoil, hkeep⟩ := hfull { c with lastEnd := none } rfl rfl rfl rfl
    exact ⟨hd, hend, fun _ _ => by omega, fun _ _ => hspoil, fun _ => by omega, fun _ => by omega, hkeep⟩
  · rw [he]
    exact ⟨rfl, rfl, fun _ => by omega, fun _ => by omega, fun _ _ => ⟨rfl, rfl⟩, fun _ _ => by omega, fun _ hs => hs⟩
  · rw [he]
    obtain ⟨hd, hend, hspoil, hkeep⟩ := hfull { c with lastEnd := none, overflow := true } rfl rfl rfl rfl
    exact ⟨hd, hend, fun _ => by omega, fun _ => by omega, fun _ _ => by omega, fun _ _ => hspoil, hkeep⟩

theorem extend_eq (c : Code) : ∃ gs v, c.extend = { c with groups := gs, spoil := v } := by
  obtain ⟨v, hv⟩ := spoilBy_cases c none
  unfold Code.extend
  split
  · exact ⟨_, _, rfl⟩
  · split
    · exact ⟨_, _, rfl⟩
    · exact ⟨_, v, hv⟩

/-- Of a code, a beat added changes the groups, the spoil mark and the overflow, and leaves the last beat's end open. -/
theorem addBeat_eq (c : Code) (gap join : Nat) : ∃ gs v o,
    c.addBeat gap join = { c with lastEnd := none, groups := gs, spoil := v, overflow := o } := by
  simp only [Code.addBeat]
  split_ifs
  · obtain ⟨v, hv⟩ := spoilBy_cases { c with lastEnd := none } none
    exact ⟨_, v, _, hv⟩
  · obtain ⟨gs, v, hv⟩ := extend_eq { c with lastEnd := none }
    exact ⟨gs, v, _, hv⟩
  · exact ⟨_, _, _, rfl⟩
  · obtain ⟨v, hv⟩ := spoilBy_cases { c with lastEnd := none, overflow := true } none
    exact ⟨_, v, _, hv⟩

@[simp] theorem addBeat_dir (c : Code) (gap join : Nat) : (c.addBeat gap join).dir = c.dir := by
  obtain ⟨_, _, _, h⟩ := addBeat_eq c gap join; rw [h]

@[simp] theorem addBeat_lastEnd (c : Code) (gap join : Nat) : (c.addBeat gap join).lastEnd = none := by
  obtain ⟨_, _, _, h⟩ := addBeat_eq c gap join; rw [h]

@[simp] theorem addBeat_unrepeated (c : Code) (gap join : Nat) : (c.addBeat gap join).unrepeated = c.unrepeated := by
  obtain ⟨_, _, _, h⟩ := addBeat_eq c gap join; rw [h]

theorem gapTo_of_lastEnd {e : Nat} (h : c.lastEnd = some e) (start : Nat) : c.gapTo start = start - e := by
  simp [Code.gapTo, h]

end

/-! #### Codes within 5 groups of 9 beats (R83) -/

theorem Code.ok_of_groups {c d : Code} (h : c.ok) (hg : d.groups = c.groups) : d.ok := by
  unfold Code.ok
  rw [hg]
  exact h

theorem newCode_ok (d : Dir) : (newCode d).ok := by
  simp [Code.ok, newCode, Config.maxGroups, Config.maxBeats]

theorem extend_ok {c : Code} (h : c.ok) : c.extend.ok := by
  obtain ⟨hne, hlen, hall⟩ := h
  obtain ⟨gs, g, hg⟩ : ∃ gs g, c.groups = gs ++ [g] :=
    ⟨_, _, (List.dropLast_append_getLast (List.ne_nil_of_length_pos hne)).symm⟩
  by_cases hlt : g < 9
  · rw [extend_of_lt hg hlt]
    rw [hg] at hlen hall
    refine ⟨by simp, by simpa using hlen, fun b hb => ?_⟩
    obtain hb | rfl := by simpa using hb
    · exact hall b (by simp [hb])
    · exact ⟨by omega, hlt⟩
  · rw [extend_of_full hg (by omega)]
    exact Code.ok_of_groups ⟨hne, hlen, hall⟩ (spoilBy_groups c)

theorem addBeat_ok {c : Code} (h : c.ok) (gap join : Nat) : (c.addBeat gap join).ok := by
  simp only [Code.addBeat]
  split_ifs with ho hgap hlen
  · exact Code.ok_of_groups h (by simp)
  · exact extend_ok (c := { c with lastEnd := none }) h
  · obtain ⟨-, -, hall⟩ := h
    refine ⟨by simp, by simpa using hlen, fun b hb => ?_⟩
    obtain hb | rfl := by simpa using hb
    · exact hall b hb
    · exact ⟨by omega, by decide⟩
  · exact Code.ok_of_groups h (by simp)

end Sys2Proof.Machine
end

section
/-! ### The operations of the Bell unit on its ports (R81 to R91, R122, R123) -/

namespace Sys2Proof.Machine

/-! #### Codes not repeated whole (R118) -/

/-- A THRU code is marked as not repeated whole. -/
def Code.markedUnrepeated (c : Code) : Code :=
  if c.dir = .thru then { c with unrepeated := true } else c

theorem markedUnrepeated_of_thru {c : Code} (h : c.dir = .thru) : c.markedUnrepeated = { c with unrepeated := true } :=
  if_pos h

theorem markedUnrepeated_of_ne {c : Code} (h : c.dir ≠ .thru) : c.markedUnrepeated = c :=
  if_neg h

theorem markedUnrepeated_cases (c : Code) : ∃ b, c.markedUnrepeated = { c with unrepeated := b } := by
  unfold Code.markedUnrepeated
  split
  · exact ⟨true, rfl⟩
  · exact ⟨c.unrepeated, rfl⟩

@[simp] theorem markedUnrepeated_dir (c : Code) : c.markedUnrepeated.dir = c.dir := by
  obtain ⟨b, h⟩ := markedUnrepeated_cases c; rw [h]

@[simp] theorem markedUnrepeated_groups (c : Code) : c.markedUnrepeated.groups = c.groups := by
  obtain ⟨b, h⟩ := markedUnrepeated_cases c; rw [h]

@[simp] theorem markedUnrepeated_lastEnd (c : Code) : c.markedUnrepeated.lastEnd = c.lastEnd := by
  obtain ⟨b, h⟩ := markedUnrepeated_cases c; rw [h]

theorem Code.Placed.markedUnrepeated {c d : Code} {gs : List Nat} {g gap join : Nat} (h : c.Placed d gs g gap join) :
    c.Placed d.markedUnrepeated gs g gap join := by
  obtain ⟨b, hb⟩ := markedUnrepeated_cases d
  rw [hb]
  exact h

@[simp] theorem withCode_id (k : PortData) : k.withCode id = k := by
  simp [PortData.withCode]

theorem markUnrepeated_port (p r : Sec) (s : State) : (markUnrepeated p s).port r =
    if r = p then (s.port p).withCode Code.markedUnrepeated else s.port r := by
  rw [markUnrepeated, State.port_setPort]
  rfl

@[simp] theorem setPath_port (s : State) (o : Option Sec) (p : Sec) : (s.setPath o).port p = s.port p := rfl

@[simp] theorem setPort_sensedDir (p q : Sec) (k : PortData) (s : State) :
    (s.setPort p k).sensedDir q = s.sensedDir q := rfl

@[simp] theorem setPort_recordOf (p : Sec) (k : PortData) (s : State) (c : Code) :
    (s.setPort p k).recordOf c = s.recordOf c := rfl

@[simp] theorem recordOf_cls (s : State) (c : Code) : (s.recordOf c).cls = classify s.codes c := rfl

@[simp] theorem enter_recordOf (u : RegUnit) (e : RegBody) (s : State) (c : Code) :
    (s.enter u e).recordOf c = s.recordOf c := rfl

@[simp] theorem completeCode_now (p : Sec) (c : Code) (s : State) : (completeCode p c s).now = s.now := rfl

@[simp] theorem completeCode_times (p : Sec) (c : Code) (s : State) : (completeCode p c s).times = s.times := rfl

@[simp] theorem completeCode_sensedDir (p q : Sec) (c : Code) (s : State) :
    (completeCode p c s).sensedDir q = s.sensedDir q := rfl

/-! #### A pulse becomes a beat (R81, R82, R89, R91) -/

/-- A pulse of port `p` becomes a beat, which is assembled and rung; through working takes it after that. -/
def takeBeat (p : Sec) (u : Pulse) (us : List Pulse) (s : State) : State :=
  ringBell p (assembleBeat p u.start (s.setPort p { s.port p with pulses := { u with beat := true } :: us }))

section
variable {p : Sec} {s : State} {u : Pulse} {us : List Pulse}

theorem startOfBeat_eq (hp : (s.port p).pulses = u :: us) (hb : u.beat = false) (ho : (s.port p).out = none)
    (hl : u.ended = none → u.start + s.times.beatmin ≤ s.now) :
    startOfBeat p s = throughBeat p (takeBeat p u us s) := by
  have hlasted : u.lasted s.times.beatmin s.now = true := by
    unfold Pulse.lasted
    split
    · rfl
    · exact decide_eq_true (hl ‹_›)
  simp [startOfBeat, hp, hb, ho, hlasted, takeBeat]

theorem startOfBeat_cases (p : Sec) (s : State) : startOfBeat p s = s ∨ ∃ u us, (s.port p).pulses = u :: us ∧
    u.beat = false ∧ (s.port p).out = none ∧ startOfBeat p s = throughBeat p (takeBeat p u us s) := by
  unfold startOfBeat
  split
  · exact .inl rfl
  · rename_i u us hp
    split
    · rename_i h
      simp only [Bool.and_eq_true, Bool.not_eq_true', Option.isNone_iff_eq_none] at h
      exact .inr ⟨u, us, hp, h.1.1, h.1.2, rfl⟩
    · exact .inl rfl

variable (p s u us)

theorem takeBeat_leaves : Leaves [.port p, .handedCodes, .exchange] s (takeBeat p u us s) :=
  Leaves.trans (t := s.setPort p _) (by simp)
    ((assembleBeat_leaves p _ u.start).trans ((ringBell_leaves p _).mono (by simp)))

@[simp] theorem takeBeat_service : (takeBeat p u us s).service = s.service := by
  simp only [takeBeat, assembleBeat]
  split <;> rfl

@[simp] theorem takeBeat_now : (takeBeat p u us s).now = s.now :=
  takeBeat_leaves p s u us .now (by simp)

theorem takeBeat_port_ne {q : Sec} (h : q ≠ p) : (takeBeat p u us s).port q = s.port q :=
  takeBeat_leaves p s u us (.port q) (by simp [h])

variable {p s u us}

/-- A beat of a code in assembly is added to it at its gap. -/
theorem takeBeat_port_of_incoming {c : Code} (ho : (s.port p).owner = .incoming) (hc : (s.port p).code = some c) :
    (takeBeat p u us s).port p = { s.port p with
      pulses := { u with beat := true } :: us
      code := some (c.addBeat (c.gapTo u.start) s.times.join)
      sounder := ringOf s.times s.now } := by
  simp [takeBeat, ringBell, assembleBeat, ho, hc]

/-- A beat on a line with no sensed code begins one; an outgoing code under it is complete. -/
theorem takeBeat_port_of_begins (ho : (s.port p).owner = .incoming → (s.port p).code = none) : ∃ snt rcv,
    (takeBeat p u us s).port p = { s.port p with
      pulses := { u with beat := true } :: us
      owner := .incoming
      code := some (newCode (s.sensedDir p))
      sounder := ringOf s.times s.now
      sent := snt
      rcvd := rcv } := by
  cases hk : (s.port p).owner with
  | free => exact ⟨(s.port p).sent, (s.port p).rcvd, by simp [takeBeat, ringBell, assembleBeat, beginSensed, hk]⟩
  | incoming =>
    exact ⟨(s.port p).sent, (s.port p).rcvd, by simp [takeBeat, ringBell, assembleBeat, beginSensed, hk, ho hk]⟩
  | outgoing =>
    cases hc : (s.port p).code with
    | none => exact ⟨(s.port p).sent, (s.port p).rcvd, by simp [takeBeat, ringBell, assembleBeat, beginSensed, hk, hc]⟩
    | some c =>
      exact ⟨if c.dir = .outgoing then some (s.recordOf (c.spoilBy (some .interrupted))) else (s.port p).sent,
        if c.dir = .outgoing then (s.port p).rcvd else some (s.recordOf (c.spoilBy (some .interrupted))),
        by simp [takeBeat, ringBell, assembleBeat, beginSensed, hk, hc]⟩

/-- Whatever its code, the beat is the oldest pulse, a sensed code owns the line and the bell is rung. -/
theorem takeBeat_port (p : Sec) (u : Pulse) (us : List Pulse) (s : State) : ∃ c snt rcv,
    (takeBeat p u us s).port p = { s.port p with
      pulses := { u with beat := true } :: us
      owner := .incoming
      code := c
      sounder := ringOf s.times s.now
      sent := snt
      rcvd := rcv } := by
  by_cases h : (s.port p).owner = .incoming → (s.port p).code = none
  · exact ⟨_, takeBeat_port_of_begins h⟩
  · obtain ⟨ho, hc⟩ := Classical.not_imp.1 h
    obtain ⟨c, hc⟩ := Option.ne_none_iff_exists'.1 hc
    exact ⟨_, (s.port p).sent, (s.port p).rcvd, by rw [takeBeat_port_of_incoming ho hc, ← ho]⟩

/-- A beat under an outgoing code: that code is complete, spoiled by the interruption (R89). -/
theorem takeBeat_interrupts {c : Code} (ho : (s.port p).owner = .outgoing) (hc : (s.port p).code = some c)
    (hd : c.dir = .outgoing) :
    ((takeBeat p u us s).port p).sent = some (s.recordOf (c.spoilBy (some .interrupted))) ∧
      (takeBeat p u us s).inbox.codes =
        s.inbox.codes ++ [⟨p, .outgoing, s.recordOf (c.spoilBy (some .interrupted)), c.unrepeated⟩] ∧
      (takeBeat p u us s).inbox.exchange =
        s.inbox.exchange ++ [⟨p, .outgoing, s.recordOf (c.spoilBy (some .interrupted)), c.unrepeated⟩] ∧
      (takeBeat p u us s).inbox.entries = s.inbox.entries ++
        [(.bell, .bell p .outgoing c.groups (s.recordOf (c.spoilBy (some .interrupted))).cls)] := by
  simp [takeBeat, ringBell, assembleBeat, beginSensed, ho, hc, hd]

end

/-! #### Through working of a beat (R122) -/

section
variable {p q : Sec} {s : State}

theorem throughPath_of_foreign (h : s.service.path = some q) :
    throughPath p q s = (markUnrepeated p s).enter .service (.clash p) :=
  if_pos h

theorem throughPath_of_free (h : s.service.path ≠ some q) (hq : (s.port q).owner = .free) : throughPath p q s =
    (s.setPath (some p)).setPort q
      { (s.port q).driveOn s.times.beatmin s.now with rpt := some ⟨s.now, none⟩, out := none } := by
  rw [throughPath, if_neg h, if_pos hq]

theorem throughPath_of_owned (h : s.service.path ≠ some q) (hq : (s.port q).owner ≠ .free) : throughPath p q s =
    markUnrepeated p (s.setPath (some p)) := by
  rw [throughPath, if_neg h, if_neg hq]

/-- A beat on `p` is repeated on `q`: the path is not `q`'s and the line of `q` is free. -/
def State.repeatsOn (s : State) (q : Sec) : Prop :=
  s.service.path ≠ some q ∧ (s.port q).owner = .free

theorem throughPath_own_port_repeated (hpq : p.throughPair = some q) (h : s.repeatsOn q) :
    (throughPath p q s).port p = s.port p := by
  rw [throughPath_of_free h.1 h.2, State.port_setPort, if_neg (throughPair_ne hpq).symm]
  rfl

/-- Where a beat is not repeated its THRU code is marked. -/
theorem throughPath_own_port_withheld (h : ¬s.repeatsOn q) :
    (throughPath p q s).port p = (s.port p).withCode Code.markedUnrepeated := by
  by_cases hpath : s.service.path = some q
  · rw [throughPath_of_foreign hpath, State.enter_port, markUnrepeated_port, if_pos rfl]
  · rw [throughPath_of_owned hpath fun hq => h ⟨hpath, hq⟩, markUnrepeated_port, if_pos rfl]
    rfl

theorem throughBeat_out (hpq : p.throughPair = some q) (hv : s.service.state = .switchedOut) :
    throughBeat p s = throughPath p q s := by
  simp [throughBeat, hpq, State.isIn, hv]

/-- On its own port through working does no more than mark a THRU code. -/
theorem throughBeat_own_port (p : Sec) (s : State) :
    ∃ f, (f = id ∨ f = Code.markedUnrepeated) ∧ (throughBeat p s).port p = (s.port p).withCode f := by
  unfold throughBeat
  split
  · exact ⟨id, .inl rfl, by simp⟩
  · rename_i q hpq
    split
    · by_cases h : s.repeatsOn q
      · exact ⟨id, .inl rfl, by rw [throughPath_own_port_repeated hpq h, withCode_id]⟩
      · exact ⟨_, .inr rfl, throughPath_own_port_withheld h⟩
    · exact ⟨_, .inr rfl, by rw [markUnrepeated_port, if_pos rfl]⟩

/-- On another port it starts at most a repeat, on a free line of the through pair in SWITCHED_OUT. -/
theorem throughBeat_other_port {r : Sec} (h : r ≠ p) (s : State) : (throughBeat p s).port r = s.port r ∨
    s.service.state = .switchedOut ∧ r ≠ .c ∧ (s.port r).owner = .free ∧ (throughBeat p s).port r =
      { (s.port r).driveOn s.times.beatmin s.now with rpt := some ⟨s.now, none⟩, out := none } := by
  unfold throughBeat
  split
  · exact .inl rfl
  · rename_i q hpq
    split
    · rename_i hv
      by_cases hpath : s.service.path = some q
      · rw [throughPath_of_foreign hpath, State.enter_port, markUnrepeated_port, if_neg h]
        exact .inl rfl
      · by_cases hq : (s.port q).owner = .free
        · rw [throughPath_of_free hpath hq, State.port_setPort]
          split
          · rename_i hr
            subst hr
            exact .inr ⟨by simpa [State.isIn] using hv, throughPair_ne_c hpq, hq, rfl⟩
          · exact .inl rfl
        · rw [throughPath_of_owned hpath hq, markUnrepeated_port, if_neg h]
          exact .inl rfl
    · rw [markUnrepeated_port, if_neg h]
      exact .inl rfl

/-- Outside through working a beat changes nothing of the Service controller and enters nothing more. -/
theorem throughBeat_not_through (h : s.service.state ≠ .switchedOut ∨ p = .c) :
    (throughBeat p s).inbox = s.inbox := by
  unfold throughBeat
  split
  · rfl
  · rename_i q hpq
    have hv : s.service.state ≠ .switchedOut := h.resolve_right fun hc => by subst hc; cases hpq
    simp only [State.isIn, hv, decide_false, Bool.false_eq_true, if_false]
    rfl

end

/-! #### The end of a beat, of an outgoing beat and of a repeat (R81, R86, R122) -/

section
variable {p q : Sec} {s : State}

/-- Of the other port the end of a beat changes at most when its repeat is to end. -/
theorem endThrough_port (p r : Sec) (t : Nat) (s : State) : (endThrough p t s).port r = s.port r ∨
    ∃ rp, (s.port r).rpt = some rp ∧ r ≠ p ∧
      (endThrough p t s).port r = { s.port r with rpt := some { rp with stop := some (t + s.times.beatmin) } } := by
  simp only [endThrough]
  split
  · exact .inl rfl
  · rename_i q hpq
    split
    · split
      · rename_i rp hrp
        rw [State.port_setPort]
        split
        · rename_i hr
          subst hr
          exact .inr ⟨rp, hrp, throughPair_ne hpq, rfl⟩
        · exact .inl rfl
      · exact .inl rfl
    · exact .inl rfl

theorem endOfBeat_eq {u : Pulse} {us : List Pulse} {e : Nat} (hp : (s.port p).pulses = u :: us) (hb : u.beat = true)
    (he : u.ended = some e) : endOfBeat p s = endThrough p e (s.setPort p
      { (s.port p).withCode (Code.beatEnds e) with pulses := us, sounder := (s.port p).sounder.beatOver }) := by
  simp only [endOfBeat, hp, hb, he]

theorem endOfBeat_cases (p : Sec) (s : State) : endOfBeat p s = s ∨ ∃ u us e, (s.port p).pulses = u :: us ∧
    u.beat = true ∧ u.ended = some e ∧ endOfBeat p s = endThrough p e (s.setPort p
      { (s.port p).withCode (Code.beatEnds e) with pulses := us, sounder := (s.port p).sounder.beatOver }) := by
  unfold endOfBeat
  split
  · exact .inl rfl
  · rename_i u us hp
    split
    · exact .inr ⟨u, us, _, hp, ‹_›, ‹_›, rfl⟩
    · exact .inl rfl

theorem repeatOver_port (q r : Sec) (s : State) :
    (repeatOver q s).port r = if r = q then (s.port q).driveOff else s.port r := by
  simp only [repeatOver]
  repeat' split
  all_goals simp [*]

/-- The path is free again where the beat that was repeated is over too (R122). -/
theorem repeatOver_path (h : q.throughPair = some p) :
    (repeatOver q s).service.path = if (s.port p).beatOn then s.service.path else none := by
  simp only [repeatOver, h]
  split <;> rfl

theorem markOther_port (h : q.throughPair = some p) (r : Sec) : (markOther q s).port r =
    if r = p then (s.port p).withCode Code.markedUnrepeated else s.port r := by
  simp only [markOther, h]
  exact markUnrepeated_port p r s

theorem markOther_port_cases (q r : Sec) (s : State) :
    ∃ f, (f = id ∨ f = Code.markedUnrepeated) ∧ (markOther q s).port r = (s.port r).withCode f := by
  cases h : q.throughPair with
  | none => exact ⟨id, .inl rfl, by simp [markOther, h]⟩
  | some p =>
    rw [markOther_port h]
    split
    · rename_i hr
      exact ⟨_, .inr rfl, by rw [hr]⟩
    · exact ⟨id, .inl rfl, by simp⟩

theorem repeatClash_eq (hc : (s.port q).clash = true) (hr : (s.port q).rpt ≠ none) :
    repeatClash q s = (markOther q (repeatOver q s)).enter .service (.clash q) := by
  simp [repeatClash, hc, Option.isSome_iff_ne_none.2 hr]

end

end Sys2Proof.Machine
end

section
/-! ### What a command can make of a port: its drive, its owner and its beats (R82, R86 to R90, R93, R122) -/

namespace Sys2Proof.Machine

/-- Of a code in assembly the direction, the groups and the end of its last beat are as they were. -/
def Code.SameBeats (c d : Code) : Prop :=
  d.dir = c.dir ∧ d.groups = c.groups ∧ d.lastEnd = c.lastEnd

/-- What one command of the part can make of the port `p` in the service state `v`, by its drive, its owner, its code
and its beats. -/
inductive PortMove (v : ServiceState) (p : Sec) (k k' : PortData) : Prop
  /-- No drive starts or ends, and no beat begins or ends. -/
  | keeps (f : Code → Code) (hf : ∀ c : Code, c.SameBeats (f c)) (hcode : k'.code = k.code.map f)
      (howner : k'.owner = k.owner) (hdrive : k'.drive = k.drive) (hout : k'.out.isSome = k.out.isSome)
      (hrpt : k'.rpt.isSome = k.rpt.isSome) (hbeat : (∃ u ∈ k'.pulses, u.beat = true) → ∃ u ∈ k.pulses, u.beat = true)
      (htail : (∀ u ∈ k.pulses.tail, u.beat = false) → ∀ u ∈ k'.pulses.tail, u.beat = false)
  /-- A sensed beat begins a code or is added to one. -/
  | beat (c : Code) (hk : k.out = none) (hcode : k'.code = some c) (howner : k'.owner = .incoming)
      (hend : c.lastEnd = none)
      (hc : (c.ok ∧ c.dir ≠ .outgoing) ∨
        ∃ d, k.owner = .incoming ∧ k.code = some d ∧ c.dir = d.dir ∧ (d.ok → c.ok))
      (hdrive : k'.drive = k.drive) (hout : k'.out = none) (hrpt : k'.rpt = k.rpt)
      (htail : k'.pulses.tail = k.pulses.tail)
  /-- A sensed beat ends. -/
  | beatEnds (u : Pulse) (t : Nat) (hk : k.pulses = u :: k'.pulses) (hu : u.beat = true)
      (hcode : k'.code = k.code.map (Code.beatEnds t)) (howner : k'.owner = k.owner) (hdrive : k'.drive = k.drive)
      (hout : k'.out = k.out) (hrpt : k'.rpt = k.rpt)
  /-- A code whose last beat has ended completes. -/
  | completes (c : Code) (t : Nat) (hk : k.code = some c) (hend : c.lastEnd = some t) (hcode : k'.code = none)
      (howner : k'.owner = .free) (hdrive : k'.drive = k.drive) (hout : k'.out = k.out) (hrpt : k'.rpt = k.rpt)
      (hpulses : k'.pulses = k.pulses)
  /-- A code completes by a collision under its outgoing beat, which ends. -/
  | collides (hk : k.out.isSome = true) (hcode : k'.code = none) (howner : k'.owner = .free) (hdrive : k'.drive = false)
      (hout : k'.out = none) (hrpt : k'.rpt = none) (hpulses : k'.pulses = k.pulses)
  /-- An outgoing beat starts, from the tapper. -/
  | taps (c : Code) (hw : v = .inService ∨ v = .switchedOut ∧ p = .c) (hk : k.owner ≠ .incoming)
      (hcode : k'.code = some c) (howner : k'.owner = .outgoing) (hend : c.lastEnd = none)
      (hc : (c.ok ∧ c.dir = .outgoing) ∨
        ∃ d, k.owner = .outgoing ∧ k.code = some d ∧ c.dir = d.dir ∧ (d.ok → c.ok))
      (hdrive : k'.drive = true) (hout : k'.out.isSome = true) (hrpt : k'.rpt = none) (hpulses : k'.pulses ⊆ k.pulses)
  /-- A repeat of through working starts. -/
  | repeats (hv : v = .switchedOut) (hp : p ≠ .c) (hk : k.owner = .free) (hcode : k'.code = k.code)
      (howner : k'.owner = .free) (hdrive : k'.drive = true) (hout : k'.out = none) (hrpt : k'.rpt.isSome = true)
      (hpulses : k'.pulses ⊆ k.pulses)
  /-- The drive ends, and with it the outgoing beat or the repeat; the end of an outgoing beat is that of its code's. -/
  | falls (f : Code → Code) (hf : ∀ c, (f c).dir = c.dir ∧ (f c).groups = c.groups ∧
        ((f c).lastEnd = c.lastEnd ∨ k.out.isSome = true))
      (hcode : k'.code = k.code.map f) (howner : k'.owner = k.owner) (hdrive : k'.drive = false) (hout : k'.out = none)
      (hrpt : k'.rpt = none) (hpulses : k'.pulses = k.pulses)

theorem Code.SameBeats.refl (c : Code) : c.SameBeats c := ⟨rfl, rfl, rfl⟩

theorem sameBeats_spoilBy (cause : Option SpoilCause) (c : Code) : c.SameBeats (c.spoilBy cause) := by
  simp [Code.SameBeats]

theorem sameBeats_mark {f : Code → Code} (h : f = id ∨ f = Code.markedUnrepeated) (c : Code) : c.SameBeats (f c) := by
  obtain rfl | rfl := h
  · exact .refl c
  · simp [Code.SameBeats]

section
variable {v : ServiceState} {p : Sec} {k k' : PortData}

theorem PortMove.refl : PortMove v p k k :=
  .keeps id Code.SameBeats.refl (by simp) rfl rfl rfl rfl id id

theorem PortMove.of_eq (h : k' = k) : PortMove v p k k' :=
  h ▸ .refl

/-- Marking or spoiling a code, and what else of a port is no drive, owner or beat. -/
theorem PortMove.withCode (f : Code → Code) (hf : ∀ c : Code, c.SameBeats (f c)) (hcode : k'.code = k.code.map f)
    (howner : k'.owner = k.owner) (hdrive : k'.drive = k.drive) (hout : k'.out.isSome = k.out.isSome)
    (hrpt : k'.rpt.isSome = k.rpt.isSome) (hpulses : k'.pulses = k.pulses) : PortMove v p k k' :=
  .keeps f hf hcode howner hdrive hout hrpt (hpulses ▸ id) (hpulses ▸ id)

/-- A drive starts from the tapper or as a repeat only, on a line that no sensed code owns, in service. -/
theorem PortMove.driveStarts (h : PortMove v p k k') (hoff : k.drive = false) (hon : k'.drive = true) :
    k.owner ≠ .incoming ∧ (v = .inService ∨ v = .switchedOut) := by
  cases h with
  | keeps _ _ _ _ hdrive | beat _ _ _ _ _ _ hdrive | beatEnds _ _ _ _ _ _ hdrive | completes _ _ _ _ _ _ hdrive =>
    rw [hdrive, hoff] at hon
    cases hon
  | collides _ _ _ hdrive | falls _ _ _ _ hdrive =>
    rw [hdrive] at hon
    cases hon
  | taps _ hw hk => exact ⟨hk, hw.imp id And.left⟩
  | repeats hv _ hk => exact ⟨by simp [hk], .inr hv⟩

/-! #### Owner, code, drive and pulses agree after each move -/

theorem PortData.ok.no_beat (h : k.ok) (ho : k.owner ≠ .incoming) : ∀ u ∈ k.pulses, u.beat = false := by
  obtain ⟨-, -, -, -, -, hbeat, -⟩ := h
  intro u hu
  by_contra hb
  exact ho (hbeat u hu (by simpa using hb)).1

/-- A port with no beat in progress agrees with itself by its owner, its code and its drive alone. -/
theorem PortData.ok_of_no_beat (howner : k.owner = .free ↔ k.code = none)
    (hcode : ∀ c, k.code = some c → c.ok ∧ (c.dir = .outgoing ↔ k.owner = .outgoing))
    (hout : k.out.isSome = true → k.owner = .outgoing ∧ ∀ c, k.code = some c → c.lastEnd = none)
    (hdrive : k.drive = true ↔ k.out.isSome = true ∨ k.rpt.isSome = true)
    (hone : ¬(k.out.isSome = true ∧ k.rpt.isSome = true)) (hbeat : ∀ u ∈ k.pulses, u.beat = false) : k.ok :=
  ⟨howner, hcode, hout, hdrive, hone, fun u hu hb => by simp [hbeat u hu] at hb,
    fun u hu => hbeat u (List.mem_of_mem_tail hu)⟩

/-! A port whose code is mapped, and whose owner stays, agrees on owner and code as before. -/

section
variable {f : Code → Code} (hcode : k'.code = k.code.map f)
include hcode

theorem owner_iff_of_map (h : k.owner = .free ↔ k.code = none) (howner : k'.owner = k.owner) :
    k'.owner = .free ↔ k'.code = none := by
  rw [howner, hcode, Option.map_eq_none_iff, h]

theorem code_ok_of_map (h : ∀ c, k.code = some c → c.ok ∧ (c.dir = .outgoing ↔ k.owner = .outgoing))
    (hf : ∀ c : Code, (f c).dir = c.dir ∧ (f c).groups = c.groups) (howner : k'.owner = k.owner) :
    ∀ c, k'.code = some c → c.ok ∧ (c.dir = .outgoing ↔ k'.owner = .outgoing) := by
  intro c' hc'
  rw [hcode, Option.map_eq_some_iff] at hc'
  obtain ⟨c, hc, rfl⟩ := hc'
  obtain ⟨hdir, hgroups⟩ := hf c
  rw [howner, hdir]
  exact ⟨Code.ok_of_groups (h c hc).1 hgroups, (h c hc).2⟩

theorem lastEnd_none_of_map (hf : ∀ c : Code, (f c).lastEnd = c.lastEnd)
    (h : ∀ c, k.code = some c → c.lastEnd = none) : ∀ c, k'.code = some c → c.lastEnd = none := by
  intro c' hc'
  rw [hcode, Option.map_eq_some_iff] at hc'
  obtain ⟨c, hc, rfl⟩ := hc'
  rw [hf c, h c hc]

end

theorem PortMove.ok (h : PortMove v p k k') (hk : k.ok) : k'.ok := by
  have hquiet := hk.no_beat
  obtain ⟨howns, hcodes, houts, hdrives, hone, hbeats, htails⟩ := hk
  cases h with
  | keeps f hf hcode howner hdrive hout hrpt hbeat htail =>
    have hopen := lastEnd_none_of_map hcode fun c => (hf c).2.2
    refine ⟨owner_iff_of_map hcode howns howner, code_ok_of_map hcode hcodes (fun c => ⟨(hf c).1, (hf c).2.1⟩) howner,
      fun ho => ?_, by rw [hdrive, hout, hrpt, hdrives], by rwa [hout, hrpt], fun u hu hb => ?_, htail htails⟩
    · rw [howner]
      exact (houts (hout ▸ ho)).imp id hopen
    · obtain ⟨w, hw, hwb⟩ := hbeat ⟨u, hu, hb⟩
      rw [howner]
      exact (hbeats w hw hwb).imp id hopen
  | beat c _ hcode howner hend hc hdrive hout hrpt htail =>
    have hnone : k.out.isSome = false := by simp [*]
    have hok : c.ok ∧ c.dir ≠ .outgoing := by
      obtain hc | ⟨d, hinc, hd, hdir, himp⟩ := hc
      · exact hc
      · exact ⟨himp (hcodes d hd).1, fun ho => by simpa [hinc] using (hcodes d hd).2.1 (hdir ▸ ho)⟩
    have hcs : ∀ c', k'.code = some c' → c' = c := fun c' hc' => Option.some.inj (hc'.symm.trans hcode)
    refine ⟨by simp [howner, hcode], fun c' hc' => ?_, by simp [hout], by rw [hdrive, hdrives, hout, hrpt, hnone]; rfl,
      by simp [hout], fun u _ _ => ⟨howner, fun c' hc' => hcs c' hc' ▸ hend⟩, by rwa [htail]⟩
    rw [hcs c' hc', howner]
    exact ⟨hok.1, by simp [hok.2]⟩
  | beatEnds u t hp hu hcode howner hdrive hout hrpt =>
    have hinc : k.owner = .incoming := (hbeats u (by simp [hp]) hu).1
    rw [hp] at htails
    refine PortData.ok_of_no_beat (owner_iff_of_map hcode howns howner)
      (code_ok_of_map hcode hcodes (fun _ => ⟨rfl, rfl⟩) howner) (fun ho => ?_) (by rw [hdrive, hout, hrpt, hdrives])
      (by rwa [hout, hrpt]) htails
    have := (houts (hout ▸ ho)).1
    simp [hinc] at this
  | completes c t hc hend hcode howner hdrive hout hrpt hpulses =>
    have hnone : k.out.isSome ≠ true := fun ho => by simpa [hend] using (houts ho).2 c hc
    refine PortData.ok_of_no_beat (by simp [howner, hcode]) (by simp [hcode]) (fun ho => absurd (hout ▸ ho) hnone)
      (by rw [hdrive, hout, hrpt, hdrives]) (by rwa [hout, hrpt]) (fun u hu => ?_)
    by_contra hb
    simpa [hend] using (hbeats u (hpulses ▸ hu) (by simpa using hb)).2 c hc
  | collides ho hcode howner hdrive hout hrpt hpulses =>
    refine PortData.ok_of_no_beat (by simp [howner, hcode]) (by simp [hcode]) (by simp [hout])
      (by simp [hdrive, hout, hrpt]) (by simp [hout]) ?_
    rw [hpulses]
    exact hquiet (by simp [(houts ho).1])
  | taps c _ hinc hcode howner hend hc hdrive hout hrpt hpulses =>
    have hok : c.ok ∧ c.dir = .outgoing := by
      obtain hc | ⟨d, hout, hd, hdir, himp⟩ := hc
      · exact hc
      · exact ⟨himp (hcodes d hd).1, hdir.trans ((hcodes d hd).2.2 hout)⟩
    refine PortData.ok_of_no_beat (by simp [howner, hcode]) (fun c' hc' => ?_) (fun _ => ⟨howner, fun c' hc' => ?_⟩)
      (by simp [hdrive, hout]) (by simp [hrpt]) (fun u hu => hquiet hinc u (hpulses hu))
    · obtain rfl := Option.some.inj (hcode.symm.trans hc')
      exact ⟨hok.1, by simp [howner, hok.2]⟩
    · obtain rfl := Option.some.inj (hcode.symm.trans hc')
      exact hend
  | repeats _ _ hfree hcode howner hdrive hout hrpt hpulses =>
    have hnone := howns.1 hfree
    exact PortData.ok_of_no_beat (by simp [howner, hcode, hnone]) (by simp [hcode, hnone]) (by simp [hout])
      (by simp [hdrive, hrpt]) (by simp [hout]) (fun u hu => hquiet (by simp [hfree]) u (hpulses hu))
  | falls f hf hcode howner hdrive hout hrpt hpulses =>
    refine ⟨owner_iff_of_map hcode howns howner, code_ok_of_map hcode hcodes (fun c => ⟨(hf c).1, (hf c).2.1⟩) howner,
      by simp [hout], by simp [hdrive, hout, hrpt], by simp [hout], fun u hu hb => ?_, by rwa [hpulses]⟩
    obtain ⟨hinc, hopen⟩ := hbeats u (hpulses ▸ hu) hb
    have hnone : k.out.isSome ≠ true := fun ho => by simpa [hinc] using (houts ho).1
    exact ⟨howner.trans hinc, lastEnd_none_of_map hcode (fun c => (hf c).2.2.resolve_right hnone) hopen⟩

/-- A port is in order for a service state: it agrees with itself, and is driven only as that state lets it be. -/
def PortData.okIn (k : PortData) (v : ServiceState) (p : Sec) : Prop :=
  k.ok ∧ (k.rpt.isSome = true → v = .switchedOut ∧ p ≠ .c) ∧
    (k.out.isSome = true → v = .inService ∨ v = .switchedOut ∧ p = .c)

theorem tapperWorks_iff (s : State) (p : Sec) :
    s.tapperWorks p = true ↔ s.service.state = .inService ∨ s.service.state = .switchedOut ∧ p = .c := by
  simp [State.tapperWorks, State.isIn]

theorem portsOk_iff (s : State) : s.portsOk ↔ ∀ p, (s.port p).okIn s.service.state p :=
  forall_congr' fun p => by rw [tapperWorks_iff]; rfl

/-- Every move keeps a port in order for the service state it was made in. -/
theorem PortMove.okIn (h : PortMove v p k k') (hk : k.okIn v p) : k'.okIn v p := by
  obtain ⟨hok, hrpts, houts⟩ := hk
  refine ⟨h.ok hok, ?_⟩
  cases h with
  | keeps _ _ _ _ _ hout hrpt => exact ⟨hrpt ▸ hrpts, hout ▸ houts⟩
  | beat _ _ _ _ _ _ _ hout hrpt => exact ⟨hrpt ▸ hrpts, by simp [hout]⟩
  | beatEnds _ _ _ _ _ _ _ hout hrpt => exact ⟨hrpt ▸ hrpts, hout ▸ houts⟩
  | completes _ _ _ _ _ _ _ hout hrpt => exact ⟨hrpt ▸ hrpts, hout ▸ houts⟩
  | collides _ _ _ _ hout hrpt => exact ⟨by simp [hrpt], by simp [hout]⟩
  | taps _ hw _ _ _ _ _ _ _ hrpt => exact ⟨by simp [hrpt], fun _ => hw⟩
  | repeats hv hp _ _ _ _ hout => exact ⟨fun _ => ⟨hv, hp⟩, by simp [hout]⟩
  | falls _ _ _ _ _ hout hrpt => exact ⟨by simp [hrpt], by simp [hout]⟩

/-- A port driven by nothing is in order for every service state. -/
theorem PortData.okIn.of_quiet (h : k.okIn v p) (hout : k.out = none) (hrpt : k.rpt = none)
    (v' : ServiceState) : k.okIn v' p :=
  ⟨h.1, by simp [hrpt], by simp [hout]⟩

/-- Outside service nothing drives a port. -/
theorem PortData.okIn.quiet (h : k.okIn v p) (hin : v ≠ .inService) (hsw : v ≠ .switchedOut) :
    k.out = none ∧ k.rpt = none := by
  obtain ⟨-, hrpt, hout⟩ := h
  exact ⟨by simpa [hin, hsw] using hout, by simpa [hsw] using hrpt⟩

end

end Sys2Proof.Machine
end

section
/-! ### The sense of a port: two samples that agree, and the pulses they begin and end (R79, R81, R90) -/

namespace Sys2Proof.Machine

section
variable {beatmin t : Nat} {us : List Pulse}

/-- With no pulse open nothing ends. -/
theorem closePulse_of_ended (h : ∀ w ∈ us, w.ended ≠ none) : closePulse beatmin t us = us := by
  induction us with
  | nil => rfl
  | cons u us ih =>
    obtain ⟨e, he⟩ := Option.ne_none_iff_exists'.1 (h u (by simp))
    simp only [closePulse, he, ih fun w hw => h w (List.mem_cons_of_mem u hw)]

/-- The first open pulse ends, or goes where it was noise (R81). -/
theorem closePulse_of_open {before after : List Pulse} {u : Pulse} (hb : ∀ w ∈ before, w.ended ≠ none)
    (hu : u.ended = none) : closePulse beatmin t (before ++ u :: after) = before ++
      (if u.beat || decide (u.start + beatmin ≤ t) then { u with ended := some t } :: after else after) := by
  induction before with
  | nil => simp only [List.nil_append, closePulse, hu]
  | cons w ws ih =>
    obtain ⟨e, he⟩ := Option.ne_none_iff_exists'.1 (hb w (by simp))
    simp only [List.cons_append, closePulse, he, ih fun v hv => hb v (List.mem_cons_of_mem w hv)]

/-- No pulse becomes a beat by an end. -/
theorem mem_closePulse {w : Pulse} (h : w ∈ closePulse beatmin t us) : ∃ v ∈ us, v.beat = w.beat := by
  induction us with
  | nil => cases h
  | cons u us ih =>
    rw [closePulse] at h
    split at h
    · obtain rfl | hw := List.mem_cons.1 h
      · exact ⟨w, by simp, rfl⟩
      · obtain ⟨v, hv, hb⟩ := ih hw
        exact ⟨v, List.mem_cons_of_mem u hv, hb⟩
    · split at h
      · obtain rfl | hw := List.mem_cons.1 h
        · exact ⟨u, by simp, rfl⟩
        · exact ⟨w, List.mem_cons_of_mem u hw, rfl⟩
      · exact ⟨w, List.mem_cons_of_mem u h, rfl⟩

theorem closePulse_tail (h : ∀ w ∈ us.tail, w.beat = false) : ∀ w ∈ (closePulse beatmin t us).tail, w.beat = false := by
  cases us with
  | nil => simp [closePulse]
  | cons u us =>
    intro w hw
    rw [closePulse] at hw
    split at hw
    · obtain ⟨v, hv, hb⟩ := mem_closePulse hw
      rw [← hb, h v hv]
    · split at hw
      · exact h w hw
      · exact h w (List.mem_of_mem_tail hw)

end

/-- The pulses of a port after a sense taken. -/
def PortData.pulsesTaking (k : PortData) (beatmin : Nat) (v : Sense) (t : Nat) : List Pulse :=
  if k.sensed = false ∨ k.sense = v then k.pulses
  else if k.sense = .incoming then closePulse beatmin t k.pulses
  else if k.sense = .idle ∧ v = .incoming then k.pulses ++ [⟨t, none, false, false⟩]
  else k.pulses

section
variable {k : PortData} {beatmin now t : Nat} {v : Sense}

theorem takeSense_eq (k : PortData) (beatmin : Nat) (v : Sense) (t : Nat) : k.takeSense beatmin v t =
    { k with sense := v, sensed := true, pulses := k.pulsesTaking beatmin v t } := by
  unfold PortData.takeSense PortData.pulsesTaking
  cases hs : k.sensed with
  | false => simp
  | true =>
    by_cases hv : k.sense = v
    · subst hv
      simp [← hs]
    · by_cases hi : v = .incoming <;> cases hk : k.sense <;> simp_all

/-- A sample that agrees with the one before it: its value is taken, and a CLASH under the drive is kept (R79, R90). -/
theorem sample_of_agree (h : k.lastSample = some (v, t)) : k.sample beatmin now v = { k with
    sense := v
    sensed := true
    pulses := k.pulsesTaking beatmin v t
    clash := k.clash || (k.drive && decide (v = .clash)) } := by
  simp only [PortData.sample, h, if_true, takeSense_eq]
  cases k.drive <;> cases k.clash <;> by_cases hv : v = .clash <;> simp [hv]

/-- Any other sample is kept to be agreed with; a CLASH under the drive is kept where the sense still stands at it
(log 47). -/
theorem sample_of_differ (h : k.lastSample = none ∨ ∃ u τ, k.lastSample = some (u, τ) ∧ u ≠ v) :
    k.sample beatmin now v = { k with
      lastSample := some (v, now)
      clash := k.clash || (k.drive && decide (v = .clash) && decide (k.sense = .clash)) } := by
  have hlast : k.sample beatmin now v =
      if k.drive && decide (v = .clash) && decide (k.sense = .clash) then
        { k with lastSample := some (v, now), clash := true }
      else { k with lastSample := some (v, now) } := by
    obtain h | ⟨u, τ, h, hu⟩ := h
    · simp only [PortData.sample, h]
    · simp only [PortData.sample, h, hu, if_false]
  rw [hlast]
  split
  · rename_i hc
    simp [hc]
  · rename_i hc
    simp [Bool.not_eq_true _ ▸ hc]

/-- Of the drive, the owner and the code a sample changes nothing, and it makes no pulse a beat. -/
theorem sample_eq (k : PortData) (beatmin now : Nat) (v : Sense) : ∃ sense sensed last pulses clash,
    k.sample beatmin now v =
      { k with sense := sense, sensed := sensed, lastSample := last, pulses := pulses, clash := clash } ∧
    (pulses = k.pulses ∨ ∃ t, pulses = k.pulsesTaking beatmin v t) := by
  by_cases h : ∃ τ, k.lastSample = some (v, τ)
  · obtain ⟨τ, h⟩ := h
    exact ⟨_, _, _, _, _, sample_of_agree h, .inr ⟨τ, rfl⟩⟩
  · refine ⟨_, _, _, _, _, sample_of_differ ?_, .inl rfl⟩
    cases hl : k.lastSample with
    | none => exact .inl rfl
    | some e => exact .inr ⟨e.1, e.2, rfl, fun hv => h ⟨e.2, by rw [hl, ← hv]⟩⟩

theorem mem_pulsesTaking {w : Pulse} (h : w ∈ k.pulsesTaking beatmin v t) (hb : w.beat = true) :
    ∃ u ∈ k.pulses, u.beat = true := by
  unfold PortData.pulsesTaking at h
  split_ifs at h
  · exact ⟨w, h, hb⟩
  · obtain ⟨u, hu, he⟩ := mem_closePulse h
    exact ⟨u, hu, he.trans hb⟩
  · obtain hw | rfl := by simpa using h
    · exact ⟨w, hw, hb⟩
    · cases hb
  · exact ⟨w, h, hb⟩

theorem pulsesTaking_tail (h : ∀ u ∈ k.pulses.tail, u.beat = false) :
    ∀ u ∈ (k.pulsesTaking beatmin v t).tail, u.beat = false := by
  unfold PortData.pulsesTaking
  split_ifs
  · exact h
  · exact closePulse_tail h
  · intro u hu
    cases hp : k.pulses with
    | nil => simp [hp] at hu
    | cons w ws =>
      rw [hp] at h hu
      obtain hu | rfl := by simpa using hu
      · exact h u hu
      · rfl
  · exact h

end

theorem bellSenseSample_port {p : Sec} {s : State} (current : Bool) (h : s.service.state ≠ .powerUp) :
    (bellSenseSample p current s).port p =
      (s.port p).sample s.times.beatmin s.now (senseOf (s.port p).drive current) := by
  simp [bellSenseSample, State.isIn, h]

theorem senseOf_eq (drive current : Bool) : senseOf drive current =
    if drive then (if current then .outgoing else .clash) else if current then .incoming else .idle := by
  cases drive <;> cases current <;> rfl

theorem senseOf_clash {drive current : Bool} (h : senseOf drive current = .clash) : drive = true := by
  cases drive <;> cases current <;> simp_all [senseOf]

/-- Settles O24: a sample differs from the one before it or agrees with it, and the pulses after a sense taken are by
the sense that stood and the sense taken. -/
theorem senseTakenAtSecondSample : Obligations.SenseTakenAtSecondSample := by
  intro p current s hs
  dsimp only
  rw [← senseOf_eq]
  have hport := bellSenseSample_port (p := p) current hs
  have hclash := senseOf_clash (drive := (s.port p).drive) (current := current)
  generalize senseOf (s.port p).drive current = v at hport hclash ⊢
  refine ⟨_, rfl, ?_⟩
  rw [commit_port, hport]
  generalize s.port p = k at hclash ⊢
  obtain ⟨_, _, _, _, _, he, -⟩ := sample_eq k s.times.beatmin s.now v
  refine ⟨by rw [he], by rw [he], fun hd => ?_, fun τ ha => ?_⟩
  · rw [sample_of_differ hd]
    refine ⟨rfl, rfl, rfl, rfl, fun hv hk => by simp [hv, hk, hclash hv], fun hne => ?_⟩
    obtain hne | hne := hne <;> simp [hne]
  · rw [sample_of_agree ha]
    refine ⟨ha, rfl, rfl, fun hv => by simp [hv, hclash hv], fun hv => by simp [hv], fun h => if_pos h,
      fun h1 h2 h3 => ?_, fun h => ?_, fun h1 h2 => ?_, fun h1 h2 h3 => ?_⟩
    · simp [PortData.pulsesTaking, h1, h2, h3]
    · obtain h | h := h <;> simp [PortData.pulsesTaking, h]
    · simp [PortData.pulsesTaking, h1, h2]
    · have hp : k.pulsesTaking s.times.beatmin v τ = closePulse s.times.beatmin τ k.pulses := by
        simp [PortData.pulsesTaking, h1, h2, Ne.symm h3]
      dsimp only
      rw [hp]
      refine ⟨closePulse_of_ended, fun before u after hpulses hbefore hu => ?_⟩
      rw [hpulses, closePulse_of_open hbefore hu]
      refine ⟨fun h => by simp [h], fun hb hlt => ?_⟩
      rw [if_neg (by simp [hb]; omega)]

end Sys2Proof.Machine
end

section
/-! ### Every command's move of every port, and the agreement of the ports (O30, O59) -/

namespace Sys2Proof.Machine

/-! #### The operations of the Bell unit -/

section
variable {v : ServiceState} {s t : State} {p r : Sec}

/-- A port replaced by what a move makes of it. -/
theorem PortMove.setPort {k : PortData} (h : PortMove v p (s.port p) k) (r : Sec) :
    PortMove v r (s.port r) ((s.setPort p k).port r) := by
  rw [State.port_setPort]
  split
  · rename_i hr
    exact hr ▸ h
  · exact .refl

theorem bellSenseSample_move (p r : Sec) (current : Bool) (s : State) :
    PortMove v r (s.port r) ((bellSenseSample p current s).port r) := by
  unfold bellSenseSample
  split
  · exact .refl
  · refine PortMove.setPort ?_ r
    obtain ⟨_, _, _, pulses, _, he, hp⟩ := sample_eq (s.port p) s.times.beatmin s.now (senseOf (s.port p).drive current)
    rw [he]
    obtain rfl | ⟨τ, rfl⟩ := hp
    · exact .withCode id Code.SameBeats.refl (by simp) rfl rfl rfl rfl rfl
    · exact .keeps id Code.SameBeats.refl (by simp) rfl rfl rfl rfl (fun ⟨_, hu, hb⟩ => mem_pulsesTaking hu hb)
        pulsesTaking_tail

/-- The port of a beat, after through working has taken it. -/
theorem takeBeat_move {u : Pulse} {us : List Pulse} {f : Code → Code} (hf : ∀ c : Code, c.SameBeats (f c))
    (hp : (s.port p).pulses = u :: us) (ho : (s.port p).out = none) :
    PortMove v p (s.port p) (((takeBeat p u us s).port p).withCode f) := by
  by_cases hinc : (s.port p).owner = .incoming ∧ ∃ c, (s.port p).code = some c
  · obtain ⟨hinc, c, hc⟩ := hinc
    obtain ⟨hdir, hgroups, hend⟩ := hf (c.addBeat (c.gapTo u.start) s.times.join)
    rw [takeBeat_port_of_incoming hinc hc]
    exact .beat (f (c.addBeat (c.gapTo u.start) s.times.join)) ho rfl hinc (by rw [hend, addBeat_lastEnd])
      (.inr ⟨c, hinc, hc, by rw [hdir, addBeat_dir], fun h => Code.ok_of_groups (addBeat_ok h _ _) hgroups⟩)
      rfl ho rfl (by simp [PortData.withCode, hp])
  · obtain ⟨snt, rcv, he⟩ := takeBeat_port_of_begins (p := p) (s := s) (u := u) (us := us) fun h =>
      Option.eq_none_iff_forall_ne_some.2 fun c hc => hinc ⟨h, c, hc⟩
    obtain ⟨hdir, hgroups, hend⟩ := hf (newCode (s.sensedDir p))
    rw [he]
    refine .beat (f (newCode (s.sensedDir p))) ho rfl rfl (by rw [hend]; rfl)
      (.inl ⟨Code.ok_of_groups (newCode_ok _) hgroups, ?_⟩) rfl ho rfl (by simp [PortData.withCode, hp])
    rw [hdir, newCode, State.sensedDir]
    split <;> simp

theorem startOfBeat_move (p r : Sec) (s : State) :
    PortMove s.service.state r (s.port r) ((startOfBeat p s).port r) := by
  obtain h | ⟨u, us, hp, -, ho, h⟩ := startOfBeat_cases p s <;> rw [h]
  · exact .refl
  by_cases hr : r = p
  · subst hr
    obtain ⟨f, hf, he⟩ := throughBeat_own_port r (takeBeat r u us s)
    rw [he]
    exact takeBeat_move (sameBeats_mark hf) hp ho
  · have hne := takeBeat_port_ne p s u us hr
    obtain he | ⟨hv, hc, hfree, he⟩ := throughBeat_other_port hr (takeBeat p u us s)
    · exact .of_eq (he.trans hne)
    · rw [hne] at hfree he
      rw [takeBeat_service] at hv
      rw [he]
      exact .repeats hv hc hfree rfl hfree rfl rfl rfl (List.filter_subset_self _)

theorem endOfBeat_move (p r : Sec) (s : State) : PortMove v r (s.port r) ((endOfBeat p s).port r) := by
  obtain h | ⟨u, us, e, hp, hb, -, h⟩ := endOfBeat_cases p s <;> rw [h]
  · exact .refl
  obtain he | ⟨rp, hrp, hr, he⟩ := endThrough_port p r e (s.setPort p
    { (s.port p).withCode (Code.beatEnds e) with pulses := us, sounder := (s.port p).sounder.beatOver })
  · rw [he]
    refine PortMove.setPort ?_ r
    exact .beatEnds u e hp hb rfl rfl rfl rfl rfl
  · rw [State.port_setPort, if_neg hr] at hrp he
    rw [he]
    exact .withCode id Code.SameBeats.refl (by simp) rfl rfl rfl (by simp [hrp]) rfl

theorem beatHeld_move (p r : Sec) (s : State) : PortMove v r (s.port r) ((beatHeld p s).port r) := by
  unfold beatHeld
  split
  · exact .refl
  · rename_i u us hp
    split
    · refine PortMove.setPort ?_ r
      refine .keeps _ (sameBeats_spoilBy _) rfl rfl rfl rfl rfl (fun h => ?_) (fun h => ?_)
      · simpa [hp] using h
      · simpa [hp] using h
    · exact .refl

theorem strokeEnd_move (p r : Sec) (s : State) : PortMove v r (s.port r) ((strokeEnd p s).port r) := by
  unfold strokeEnd
  split
  · split
    · refine PortMove.setPort ?_ r
      exact .withCode id Code.SameBeats.refl (by simp) rfl rfl rfl rfl rfl
    · exact .refl
  · exact .refl

theorem codeComplete_move (p r : Sec) (s : State) : PortMove v r (s.port r) ((codeComplete p s).port r) := by
  unfold codeComplete
  split
  · exact .refl
  · rename_i c hc
    split
    · rename_i hw
      by_cases hr : r = p
      · subst hr
        cases he : c.lastEnd with
        | none => simp [Code.waitOver, he] at hw
        | some t =>
          rw [completeCode_port]
          exact .completes c t hc he rfl rfl rfl rfl rfl rfl
      · exact .of_eq (completeCode_port_ne hr c s)
    · exact .refl

theorem collision_move (p r : Sec) (s : State) : PortMove v r (s.port r) ((collision p s).port r) := by
  unfold collision
  dsimp only
  split
  · rename_i h
    simp only [Bool.and_eq_true] at h
    have hfalls : PortMove v r (s.port r) (((s.setPort p (s.port p).driveOff).enter .bell (.clash p)).port r) := by
      rw [State.enter_port]
      refine PortMove.setPort ?_ r
      exact .falls id (fun _ => ⟨rfl, rfl, .inl rfl⟩) (by simp [PortData.driveOff]) rfl rfl rfl rfl rfl
    split
    · by_cases hr : r = p
      · subst hr
        rw [completeCode_port, State.enter_port, State.port_setPort, if_pos rfl]
        exact .collides h.2 rfl rfl rfl rfl rfl rfl
      · rw [completeCode_port_ne hr]
        exact hfalls
    · exact hfalls
  · exact .refl

/-- An outgoing beat that ends with the drive. -/
theorem endOutBeat_move {k : PortData} (ho : k.out.isSome = true) (now : Nat) : PortMove v p k (k.endOutBeat now) :=
  .falls (Code.beatEnds now) (fun _ => ⟨rfl, rfl, .inr ho⟩) rfl rfl rfl rfl rfl rfl

theorem beginOut_move {c : Code} (hw : v = .inService ∨ v = .switchedOut ∧ p = .c) (hk : (s.port p).owner ≠ .incoming)
    (hend : c.lastEnd = none) (hc : (c.ok ∧ c.dir = .outgoing) ∨
      ∃ d, (s.port p).owner = .outgoing ∧ (s.port p).code = some d ∧ c.dir = d.dir ∧ (d.ok → c.ok)) (r : Sec) :
    PortMove v r (s.port r) ((beginOut p c s).port r) :=
  PortMove.setPort (.taps c hw hk rfl rfl hend hc rfl rfl rfl (List.filter_subset_self _)) r

theorem pressTaken_move (hw : v = .inService ∨ v = .switchedOut ∧ p = .c) (r : Sec) :
    PortMove v r (s.port r) ((pressTaken p s).port r) := by
  unfold pressTaken
  dsimp only
  split
  · rename_i o ho
    refine PortMove.setPort ?_ r
    exact .withCode id Code.SameBeats.refl (by simp) rfl rfl (by simp [ho]) rfl rfl
  · split
    · exact .refl
    · split
      · refine PortMove.setPort ?_ r
        exact .withCode (fun c => { c with suppressed := true }) (fun _ => ⟨rfl, rfl, rfl⟩) rfl rfl rfl rfl rfl rfl
      · rename_i c hout hc
        exact beginOut_move hw (by simp [hout]) (addBeat_lastEnd ..)
          (.inr ⟨c, hout, hc, addBeat_dir .., fun h => addBeat_ok h _ _⟩) r
      · rename_i hinc _
        exact beginOut_move hw hinc rfl (.inl ⟨newCode_ok _, rfl⟩) r

theorem releaseTaken_move (p r : Sec) (s : State) : PortMove v r (s.port r) ((releaseTaken p s).port r) := by
  unfold releaseTaken
  dsimp only
  split
  · refine PortMove.setPort ?_ r
    exact .withCode id Code.SameBeats.refl (by simp) rfl rfl rfl rfl rfl
  · rename_i o ho
    split
    · refine PortMove.setPort ?_ r
      exact .falls (Code.beatEnds s.now) (fun _ => ⟨rfl, rfl, .inr (by simp [ho])⟩) rfl rfl rfl rfl rfl rfl
    · refine PortMove.setPort ?_ r
      exact .withCode id Code.SameBeats.refl (by simp) rfl rfl (by simp [ho]) rfl rfl

theorem tapperPress_move (p r : Sec) (s : State) :
    PortMove s.service.state r (s.port r) ((tapperPress p s).port r) := by
  unfold tapperPress
  split
  · exact .refl
  · rename_i t ht
    obtain ⟨rest, -, rfl⟩ := takeTapper_some p s ht
    split
    · rename_i hw
      exact pressTaken_move (s := s.setInbox { s.inbox with tappers := rest }) ((tapperWorks_iff s p).1 hw) r
    · exact .refl

theorem tapperRelease_move (p r : Sec) (s : State) : PortMove v r (s.port r) ((tapperRelease p s).port r) := by
  unfold tapperRelease
  split
  · exact .refl
  · rename_i t ht
    obtain ⟨rest, -, rfl⟩ := takeTapper_some p s ht
    exact releaseTaken_move p r (s.setInbox { s.inbox with tappers := rest })

theorem stretchEnd_move (p r : Sec) (s : State) : PortMove v r (s.port r) ((stretchEnd p s).port r) := by
  unfold stretchEnd
  split
  · rename_i o ho
    split
    · exact (endOutBeat_move (by simp [ho]) s.now).setPort r
    · exact .refl
  · exact .refl

theorem tapperHeldCut_move (p r : Sec) (s : State) : PortMove v r (s.port r) ((tapperHeldCut p s).port r) := by
  unfold tapperHeldCut
  split
  · rename_i o ho
    split
    · refine PortMove.setPort ?_ r
      exact .falls (fun c => (c.spoilBy (some .held)).beatEnds s.now)
        (fun c => ⟨spoilBy_dir c, spoilBy_groups c, .inr (by simp [ho])⟩)
        (by simp [PortData.endOutBeat, PortData.driveOff, PortData.withCode, Function.comp_def]) rfl rfl rfl rfl rfl
    · exact .refl
  · exact .refl

/-- A repeat that ends, a code in assembly marked by no more than what is not repeated. -/
theorem driveOff_move {k : PortData} {f : Code → Code} (hf : ∀ c : Code, c.SameBeats (f c)) :
    PortMove v p k (k.driveOff.withCode f) :=
  .falls f (fun c => ⟨(hf c).1, (hf c).2.1, .inl (hf c).2.2⟩) rfl rfl rfl rfl rfl rfl

theorem repeatOver_move (q r : Sec) (s : State) : PortMove v r (s.port r) ((repeatOver q s).port r) := by
  rw [repeatOver_port]
  split
  · rename_i hr
    subst hr
    simpa using driveOff_move (f := id) Code.SameBeats.refl
  · exact .refl

theorem repeatEnd_move (q r : Sec) (s : State) : PortMove v r (s.port r) ((repeatEnd q s).port r) := by
  unfold repeatEnd
  split
  · split
    · exact repeatOver_move q r s
    · exact .refl
  · exact .refl

theorem mark_move {k : PortData} {f : Code → Code} (hf : ∀ c : Code, c.SameBeats (f c)) :
    PortMove v p k (k.withCode f) :=
  .withCode f hf rfl rfl rfl rfl rfl rfl

theorem repeatClash_move (q r : Sec) (s : State) : PortMove v r (s.port r) ((repeatClash q s).port r) := by
  unfold repeatClash
  split
  · obtain ⟨f, hf, he⟩ := markOther_port_cases q r (repeatOver q s)
    rw [State.enter_port, he, repeatOver_port]
    split
    · rename_i hr
      subst hr
      exact driveOff_move (sameBeats_mark hf)
    · exact mark_move (sameBeats_mark hf)
  · exact .refl

end

/-! #### Switching out and in, and WITHDRAW -/

/-- A port whose tapper drive, if one is on, is turned off (R93). -/
def PortData.tapperCut (k : PortData) (now : Nat) : PortData :=
  if k.out.isSome then k.endOutBeat now else k

/-- A port whose repeat, if one is on, is turned off (R125). -/
def PortData.repeatCut (k : PortData) : PortData :=
  if k.rpt.isSome then k.driveOff else k

section
variable {v : ServiceState} {s t : State} {p r : Sec} {k : PortData} {now : Nat}

theorem tapperCut_of_none (h : k.out = none) : k.tapperCut now = k := by
  simp [PortData.tapperCut, h]

theorem tapperCut_of_some (h : k.out ≠ none) : k.tapperCut now = k.endOutBeat now := by
  simp [PortData.tapperCut, Option.isSome_iff_ne_none, h]

theorem tapperCut_out (k : PortData) (now : Nat) : (k.tapperCut now).out = none := by
  by_cases h : k.out = none
  · rw [tapperCut_of_none h, h]
  · rw [tapperCut_of_some h]
    rfl

theorem tapperCut_rpt (h : k.rpt = none) : (k.tapperCut now).rpt = none := by
  by_cases ho : k.out = none
  · rw [tapperCut_of_none ho, h]
  · rw [tapperCut_of_some ho]
    rfl

theorem tapperCut_move (k : PortData) (now : Nat) : PortMove v p k (k.tapperCut now) := by
  by_cases h : k.out = none
  · exact .of_eq (tapperCut_of_none h)
  · rw [tapperCut_of_some h]
    exact endOutBeat_move (Option.isSome_iff_ne_none.2 h) now

theorem cutTapper_port (p r : Sec) (s : State) :
    (cutTapper p s).port r = if r = p then (s.port p).tapperCut s.now else s.port r := by
  unfold cutTapper PortData.tapperCut
  by_cases hr : r = p
  · subst hr
    split <;> simp
  · split <;> simp [hr]

theorem withCode_withCode (k : PortData) (f g : Code → Code) : (k.withCode f).withCode g = k.withCode (g ∘ f) := by
  simp [PortData.withCode]

theorem repeatCut_withCode (k : PortData) (f : Code → Code) : (k.withCode f).repeatCut = k.repeatCut.withCode f := by
  cases h : k.rpt <;> simp [PortData.repeatCut, PortData.withCode, PortData.driveOff, h]

theorem repeatCut_rpt (k : PortData) : k.repeatCut.rpt = none := by
  unfold PortData.repeatCut
  split
  · rfl
  · simpa using ‹¬k.rpt.isSome = true›

theorem repeatCut_move {f : Code → Code} (hf : ∀ c : Code, c.SameBeats (f c)) :
    PortMove v p k (k.repeatCut.withCode f) := by
  unfold PortData.repeatCut
  split
  · exact driveOff_move hf
  · exact mark_move hf

theorem cutRepeat_port (q r : Sec) (s : State) : ∃ f : Code → Code, (∀ c : Code, c.SameBeats (f c)) ∧
    (cutRepeat q s).port r = (if r = q then (s.port q).repeatCut else s.port r).withCode f := by
  unfold cutRepeat PortData.repeatCut
  split
  · obtain ⟨f, hf, he⟩ := markOther_port_cases q r (s.setPort q (s.port q).driveOff)
    exact ⟨f, sameBeats_mark hf, by rw [he, State.port_setPort]⟩
  · refine ⟨id, Code.SameBeats.refl, ?_⟩
    split <;> simp [*]

theorem clearMarks_port (r : Sec) (s : State) : (clearMarks s).port r = s.port r :=
  clearMarks_leaves s (.port r) (by simp)

/-- At switching out the tappers of the through ports are cut (R121). -/
theorem enterSwitchedOut_port (r : Sec) (s : State) : (enterSwitchedOut s).port r =
    if r = .c then s.port r else (s.port r).tapperCut s.now := by
  have hrep : ∀ x t, Leaves everySection t (repeatReading x t) :=
    fun x t => (repeatReading_leaves x t).mono (by cases x <;> simp [Sec.throughPair])
  have hleaves : Leaves everySection s (repeatReading .b (repeatReading .a
      (enterLoaded .closed .c (endSec .b .through .cancelled (endSec .a .through .cancelled s))))) :=
    (((((endSec_leaves .a s _ _).mono (by simp)).trans ((endSec_leaves .b _ _ _).mono (by simp))).trans
      ((enterLoaded_leaves .c _ _).mono (by simp))).trans (hrep .a _)).trans (hrep .b _)
  have hport : ∀ x, _ = s.port x := fun x => hleaves (.port x) (by simp [everySection])
  have hnow : _ = s.now := hleaves .now (by simp [everySection])
  simp only [enterSwitchedOut, State.enter_port, State.setService_port, clearMarks_port]
  generalize repeatReading .b _ = u at hport hnow ⊢
  rw [cutTapper_port, cutTapper_port, cutTapper_port]
  have hn : (cutTapper .a u).now = s.now := (cutTapper_leaves .a u .now (by simp)).trans hnow
  cases r <;> simp [hport, hnow, hn]

/-- At switching in the repeats are cut, and their codes marked as not repeated whole (R118, R125). -/
theorem enterSwitchedIn_port (r : Sec) (s : State) : ∃ f : Code → Code, (∀ c : Code, c.SameBeats (f c)) ∧
    (enterSwitchedIn s).port r = (if r = .c then s.port r else (s.port r).repeatCut).withCode f := by
  have hleaves :
      Leaves everySection s (enterLoaded .blocked .c (enterLoaded .blocked .b (enterLoaded .blocked .a s))) :=
    (((enterLoaded_leaves .a s _).mono (by simp)).trans ((enterLoaded_leaves .b _ _).mono (by simp))).trans
      ((enterLoaded_leaves .c _ _).mono (by simp))
  have hport : ∀ x, _ = s.port x := fun x => hleaves (.port x) (by simp [everySection])
  simp only [enterSwitchedIn, State.enter_port, State.setService_port, clearMarks_port]
  generalize enterLoaded .blocked .c _ = u at hport ⊢
  obtain ⟨f, hf, ha⟩ := cutRepeat_port .a r u
  obtain ⟨g, hg, hb⟩ := cutRepeat_port .b r (cutRepeat .a u)
  have hgf : ∀ c : Code, c.SameBeats (g (f c)) := fun c =>
    ⟨(hg _).1.trans (hf c).1, (hg _).2.1.trans (hf c).2.1, (hg _).2.2.trans (hf c).2.2⟩
  refine ⟨g ∘ f, hgf, ?_⟩
  rw [hb]
  cases r with
  | a => rw [if_neg (by decide), ha, if_pos rfl, if_neg (by decide), hport, withCode_withCode]
  | b => rw [if_pos rfl, ha, if_neg (by decide), if_neg (by decide), hport, repeatCut_withCode, withCode_withCode]
  | c => rw [if_neg (by decide), ha, if_neg (by decide), if_pos rfl, hport, withCode_withCode]

/-- At WITHDRAW every tapper is cut (R93). -/
theorem leaveService_port (r : Sec) (s : State) : (leaveService s).port r = (s.port r).tapperCut s.now := by
  have hleaves : Leaves everySection s (enterLoaded .closed .c (enterLoaded .closed .b (enterLoaded .closed .a s))) :=
    (((enterLoaded_leaves .a s _).mono (by simp)).trans ((enterLoaded_leaves .b _ _).mono (by simp))).trans
      ((enterLoaded_leaves .c _ _).mono (by simp))
  have hport : ∀ x, _ = s.port x := fun x => hleaves (.port x) (by simp [everySection])
  have hnow : _ = s.now := hleaves .now (by simp [everySection])
  simp only [leaveService, State.enter_port, State.setService_port]
  generalize enterLoaded .closed .c _ = u at hport hnow ⊢
  have ha : (cutTapper .a u).now = s.now := (cutTapper_leaves .a u .now (by simp)).trans hnow
  have hb : (cutTapper .b (cutTapper .a u)).now = s.now := (cutTapper_leaves .b _ .now (by simp)).trans ha
  cases r <;> simp [cutTapper_port, hport, hnow, ha, hb]

/-- An arrival at OUT switches the box out of IN_SERVICE, or changes neither the service state nor a port. -/
theorem arrivalAtOut_ports (s : State) :
    ((arrivalAtOut s).service.state = s.service.state ∧ ∀ r, (arrivalAtOut s).port r = s.port r) ∨
    (s.service.state = .inService ∧ (arrivalAtOut s).service.state = .switchedOut ∧
      ∀ r, (arrivalAtOut s).port r = if r = .c then s.port r else (s.port r).tapperCut s.now) := by
  unfold arrivalAtOut
  split
  · exact .inl ⟨rfl, fun _ => rfl⟩
  · rename_i u hu
    obtain ⟨rest, -, rfl⟩ := takeBox_some s hu
    unfold turnOut
    split
    · exact .inl ⟨rfl, fun _ => rfl⟩
    · exact .inl ⟨rfl, fun _ => rfl⟩
    · exact .inl ⟨rfl, fun _ => rfl⟩
    · rename_i hv
      split
      · exact .inl ⟨rfl, fun _ => rfl⟩
      · exact .inr ⟨hv, rfl, fun r => enterSwitchedOut_port r _⟩

/-- An arrival at IN switches the box in, or changes neither the service state nor a port. -/
theorem arrivalAtIn_ports (s : State) :
    ((arrivalAtIn s).service.state = s.service.state ∧ ∀ r, (arrivalAtIn s).port r = s.port r) ∨
    (s.service.state = .switchedOut ∧ (arrivalAtIn s).service.state = .inService ∧
      ∀ r, ∃ f : Code → Code, (∀ c : Code, c.SameBeats (f c)) ∧
        (arrivalAtIn s).port r = (if r = .c then s.port r else (s.port r).repeatCut).withCode f) := by
  unfold arrivalAtIn
  split
  · exact .inl ⟨rfl, fun _ => rfl⟩
  · rename_i u hu
    obtain ⟨rest, -, rfl⟩ := takeBox_some s hu
    unfold turnIn
    split
    · exact .inl ⟨rfl, fun _ => rfl⟩
    · exact .inl ⟨rfl, fun _ => rfl⟩
    · exact .inl ⟨rfl, fun _ => rfl⟩
    · rename_i hv
      split
      · exact .inl ⟨rfl, fun _ => rfl⟩
      · exact .inr ⟨hv, rfl, fun r => enterSwitchedIn_port r _⟩

/-- WITHDRAW takes the box out of IN_SERVICE, or changes neither the service state nor a port. -/
theorem withdraw_ports (s : State) :
    ((requestStep .withdraw inService handleWithdraw s).service.state = s.service.state ∧
      ∀ r, (requestStep .withdraw inService handleWithdraw s).port r = s.port r) ∨
    (s.service.state = .inService ∧ ∀ r,
      (requestStep .withdraw inService handleWithdraw s).port r = (s.port r).tapperCut s.now) := by
  refine requestStep_keeps (P := fun u => (u.service.state = s.service.state ∧ ∀ r, u.port r = s.port r) ∨
    (s.service.state = .inService ∧ ∀ r, u.port r = (s.port r).tapperCut s.now)) (.inl ⟨rfl, fun _ => rfl⟩)
    (fun ws u w _ ha hu => .inr ⟨by simpa [inService] using ha, fun r => ?_⟩) fun _ _ h => h
  rw [(handleWithdraw_ok hu).2]
  exact leaveService_port r s

end

/-! #### Every command -/

section
variable {c : Instr} {s t : State}

/-- What a command other than a reset makes of a port is a move of it. -/
theorem exec_portMove (hc : ∀ b, c ≠ .reset b ∧ c ≠ .restartPowerUp b) (h : exec c s = .next t) (r : Sec) :
    PortMove s.service.state r (s.port r) (t.port r) := by
  by_cases hr : .port r ∉ writes c
  · exact .of_eq (exec_keeps hc h _ hr)
  have own : ∀ {u : State}, exec c s = .next (commit s u) → PortMove s.service.state r (s.port r) (u.port r) →
      PortMove s.service.state r (s.port r) (t.port r) := fun hu hmove => by
    cases hu.symm.trans h
    rw [commit_port]
    exact hmove
  cases c with
  | bellSenseSample p current => exact own rfl (bellSenseSample_move p r current s)
  | startOfBeat p => exact own rfl (startOfBeat_move p r s)
  | endOfBeat p => exact own rfl (endOfBeat_move p r s)
  | beatHeld p => exact own rfl (beatHeld_move p r s)
  | codeComplete p => exact own rfl (codeComplete_move p r s)
  | tapperPress p => exact own rfl (tapperPress_move p r s)
  | tapperRelease p => exact own rfl (tapperRelease_move p r s)
  | stretchEnd p => exact own rfl (stretchEnd_move p r s)
  | tapperHeldCut p => exact own rfl (tapperHeldCut_move p r s)
  | collision p => exact own rfl (collision_move p r s)
  | strokeEnd p => exact own rfl (strokeEnd_move p r s)
  | repeatEnd p => exact own rfl (repeatEnd_move p r s)
  | repeatClash p => exact own rfl (repeatClash_move p r s)
  | arrivalAtOut =>
    refine own rfl ?_
    obtain ⟨-, hp⟩ | ⟨-, -, hp⟩ := arrivalAtOut_ports s
    · exact .of_eq (hp r)
    · rw [hp]
      split
      · exact .refl
      · exact tapperCut_move _ _
  | arrivalAtIn =>
    refine own rfl ?_
    obtain ⟨-, hp⟩ | ⟨-, -, hp⟩ := arrivalAtIn_ports s
    · exact .of_eq (hp r)
    · obtain ⟨f, hf, hp⟩ := hp r
      rw [hp]
      split
      · exact mark_move hf
      · exact repeatCut_move hf
  | withdraw =>
    refine own rfl ?_
    obtain ⟨-, hp⟩ | ⟨-, hp⟩ := withdraw_ports s
    · exact .of_eq (hp r)
    · rw [hp]
      exact tapperCut_move _ _
  | _ => exact absurd hr (by simp [writes, lineParts, everyLever, everySection])

/-- After a reset no port is driven, owned or sounded. -/
theorem powerUp_portsOk (held : Bool) (strap : Fin 4) (s : State) : (powerUp held strap s).portsOk :=
  invariantsHoldAtReset.2.2.1

/-- A command that changes the service state leaves each port in order for the new one: what the old one let drive a
port and the new one does not is cut. -/
theorem exec_okIn_of_service (hs : s.portsOk) (hc : ∀ b, c ≠ .reset b ∧ c ≠ .restartPowerUp b) (h : exec c s = .next t)
    (hv : t.service.state ≠ s.service.state) (r : Sec) : (t.port r).okIn t.service.state r := by
  have hok := (portsOk_iff s).1 hs r
  have hmove := (exec_portMove hc h r).okIn hok
  by_cases hw : .serviceState ∉ writes c
  · exact absurd (exec_serviceState hc h hw) hv
  cases c with
  | initialisationComplete =>
    have hport : t.port r = s.port r := exec_keeps hc h (.port r) (by simp [writes, everyLever])
    have hpow : s.service.state = .powerUp := by
      by_contra hne
      cases h
      exact hv (by simp [completeInit, State.isIn, hne])
    obtain ⟨hout, hrpt⟩ := hok.quiet (by simp [hpow]) (by simp [hpow])
    rw [hport]
    exact hok.of_quiet hout hrpt _
  | start =>
    have hport : t.port r = s.port r :=
      exec_keeps hc h (.port r) (by simp [writes, lineParts, everyLever, everySection])
    obtain ⟨he, -⟩ | ⟨hconf, -⟩ := exec_start_cases h
    · exact absurd he hv
    · obtain ⟨hout, hrpt⟩ := hok.quiet (by simp [hconf]) (by simp [hconf])
      rw [hport]
      exact hok.of_quiet hout hrpt _
  | arrivalAtOut =>
    cases h
    rw [commit_service] at hv ⊢
    rw [commit_port] at hmove ⊢
    obtain ⟨he, -⟩ | ⟨hin, hout, hp⟩ := arrivalAtOut_ports s
    · exact absurd he hv
    have hrpt : (s.port r).rpt = none := by simpa [hin] using hok.2.1
    rw [hout]
    rw [hp] at hmove ⊢
    split
    · rename_i hr
      exact ⟨hok.1, by simp [hrpt], fun _ => .inr ⟨rfl, hr⟩⟩
    · rename_i hr
      rw [if_neg hr] at hmove
      exact hmove.of_quiet (tapperCut_out _ _) (tapperCut_rpt hrpt) _
  | arrivalAtIn =>
    cases h
    rw [commit_service] at hv ⊢
    rw [commit_port] at hmove ⊢
    obtain ⟨he, -⟩ | ⟨hsw, hin, hp⟩ := arrivalAtIn_ports s
    · exact absurd he hv
    obtain ⟨f, -, hp⟩ := hp r
    rw [hin]
    refine ⟨hmove.1, ?_, fun _ => .inl rfl⟩
    rw [hp]
    split
    · rename_i hr
      have : (s.port r).rpt = none := by simpa [hr] using hok.2.1
      simp [PortData.withCode, this]
    · simp [PortData.withCode, repeatCut_rpt]
  | withdraw =>
    cases h
    rw [commit_service] at hv ⊢
    rw [commit_port] at hmove ⊢
    obtain ⟨he, -⟩ | ⟨hin, hp⟩ := withdraw_ports s
    · exact absurd he hv
    have hrpt : (s.port r).rpt = none := by simpa [hin] using hok.2.1
    rw [hp] at hmove ⊢
    exact hmove.of_quiet (tapperCut_out _ _) (tapperCut_rpt hrpt) _
  | _ => exact absurd hw (by simp [writes, everySection, portAndPair, lineParts, everyLever])

/-- Every command keeps the ports in order. -/
theorem exec_portsOk (hs : s.portsOk) (h : exec c s = .next t) : t.portsOk := by
  by_cases hc : ∀ b, c ≠ .reset b ∧ c ≠ .restartPowerUp b
  · refine (portsOk_iff t).2 fun r => ?_
    by_cases hv : t.service.state = s.service.state
    · rw [hv]
      exact (exec_portMove hc h r).okIn ((portsOk_iff s).1 hs r)
    · exact exec_okIn_of_service hs hc h hv r
  · cases c with
    | reset b =>
      cases h
      exact powerUp_portsOk true b s
    | restartPowerUp b =>
      cases h
      split
      · exact powerUp_portsOk false b s
      · exact hs
    | _ => exact absurd (fun b => ⟨by simp, by simp⟩) hc

end

/-- Settles O30: of the moves of a port only a tap and a repeat start its drive; a reset leaves every drive off. -/
theorem driveNeverStartsUnderIncoming : Obligations.DriveNeverStartsUnderIncoming := by
  intro c s t p h hoff hon
  by_cases hc : ∀ b, c ≠ .reset b ∧ c ≠ .restartPowerUp b
  · exact (exec_portMove hc h p).driveStarts hoff hon
  · have hreset : ∀ held strap, ((powerUp held strap s).port p).drive = false := fun _ _ =>
      congrArg PortData.drive (reset_port_eq p)
    cases c with
    | reset b =>
      cases h
      simp [hreset] at hon
    | restartPowerUp b =>
      cases h
      split at hon
      · simp [hreset] at hon
      · simp [hoff] at hon
    | _ => exact absurd (fun b => ⟨by simp, by simp⟩) hc

/-- Settles O59: each move of a port keeps it in order for the service state, and a change of that state cuts what the
new one lets nothing drive. -/
theorem everyStepKeepsPortsOk : Obligations.EveryStepKeepsPortsOk := by
  intro s t hs h
  unfold step at h
  split at h
  · cases h
    exact hs
  · rename_i c rest _
    exact exec_portsOk (s := { s with pending := rest }) hs h

end Sys2Proof.Machine
end

section
/-! ### Beats and codes: how a beat begins, extends or interrupts a code, ends and holds, and how a code completes (R81
to R84, R89 to R92) -/

namespace Sys2Proof.Machine

/-! #### The port of a beat that has been assembled and rung -/

section
variable (p : Sec) (u : Pulse) (us : List Pulse) (s : State)

theorem takeBeat_pulses : ((takeBeat p u us s).port p).pulses = { u with beat := true } :: us := by
  obtain ⟨_, _, _, h⟩ := takeBeat_port p u us s; rw [h]

theorem takeBeat_owner : ((takeBeat p u us s).port p).owner = .incoming := by
  obtain ⟨_, _, _, h⟩ := takeBeat_port p u us s; rw [h]

theorem takeBeat_sounder : ((takeBeat p u us s).port p).sounder = ringOf s.times s.now := by
  obtain ⟨_, _, _, h⟩ := takeBeat_port p u us s; rw [h]

variable {p s}

theorem takeBeat_code_of_incoming {c : Code} {e : Nat} (ho : (s.port p).owner = .incoming)
    (hc : (s.port p).code = some c) (he : c.lastEnd = some e) :
    ((takeBeat p u us s).port p).code = some (c.addBeat (u.start - e) s.times.join) := by
  rw [takeBeat_port_of_incoming ho hc, gapTo_of_lastEnd he]

theorem takeBeat_code_of_begins (ho : (s.port p).owner ≠ .incoming) :
    ((takeBeat p u us s).port p).code = some (newCode (s.sensedDir p)) := by
  obtain ⟨_, _, he⟩ := takeBeat_port_of_begins (u := u) (us := us) fun h => absurd h ho
  rw [he]

end

theorem withCode_code {k : PortData} {c : Code} (h : k.code = some c) (f : Code → Code) :
    (k.withCode f).code = some (f c) := by
  simp [PortData.withCode, h]

theorem mark_of_ne_thru {c : Code} {f : Code → Code} (hf : f = id ∨ f = Code.markedUnrepeated) (h : c.dir ≠ .thru) :
    f c = c := by
  obtain rfl | rfl := hf
  · rfl
  · exact markedUnrepeated_of_ne h

theorem Code.Placed.mark {c d : Code} {gs : List Nat} {g gap join : Nat} {f : Code → Code}
    (hf : f = id ∨ f = Code.markedUnrepeated) (h : c.Placed d gs g gap join) : c.Placed (f d) gs g gap join := by
  obtain rfl | rfl := hf
  · exact h
  · exact h.markedUnrepeated

/-- Outside through working a sensed beat begins an incoming code. -/
theorem sensedDir_of_not_through {s : State} {p : Sec} (h : s.service.state ≠ .switchedOut ∨ p = .c) :
    s.sensedDir p = .incoming := by
  obtain h | rfl := h
  · simp [State.sensedDir, State.isIn, h]
  · simp [State.sensedDir, Sec.throughPair]

/-- The record of an interrupted code (R89): the mark it had, or the interruption. -/
theorem recordOf_interrupted (s : State) (c : Code) :
    (s.recordOf (c.spoilBy (some .interrupted))).pattern = c.groups ∧
      (c.spoil = .absent → (s.recordOf (c.spoilBy (some .interrupted))).cls = .erroneous (some .interrupted)) ∧
      ∀ cause, c.spoil = .present cause → (s.recordOf (c.spoilBy (some .interrupted))).cls = .erroneous cause :=
  ⟨spoilBy_groups c, fun h => classify_of_present _ (spoilBy_spoil_of_absent h),
    fun _ h => classify_of_present _ (spoilBy_spoil_of_present h)⟩

/-- The entries of a beat's step are those of its own part. -/
theorem startOfBeat_entries (p : Sec) (s : State) :
    (commit s (startOfBeat p s)).inbox.entries = (startOfBeat p s).inbox.entries :=
  commit_entries_of_leaves (startOfBeat_leaves p s)
    (fun _ => by cases p <;> simp [writes, portAndPair, Sec.throughPair])
    (by cases p <;> simp [writes, portAndPair, Sec.throughPair])
    (by cases p <;> simp [writes, portAndPair, Sec.throughPair])

/-- Settles O25: the beat is assembled and rung, and through working does no more than mark a THRU code. -/
theorem beatStartsOrExtendsACode : Obligations.BeatStartsOrExtendsACode := by
  intro p s u us hv hp hb ho hl
  have hstart := startOfBeat_eq hp hb ho hl
  have hentries := startOfBeat_entries p s
  obtain ⟨f, hf, hport⟩ := throughBeat_own_port p (takeBeat p u us s)
  have hinbox := throughBeat_not_through (p := p) (s := takeBeat p u us s) (by rwa [takeBeat_service])
  have hnew : f (newCode .incoming) = newCode .incoming := mark_of_ne_thru hf (by simp [newCode])
  refine ⟨_, rfl, ?_⟩
  rw [commit_port, commit_inbox_codes, commit_inbox_exchange, hentries, hstart, hport, hinbox]
  refine ⟨takeBeat_pulses p u us s, takeBeat_owner p u us s, takeBeat_sounder p u us s, fun hfree => ?_,
    fun c gs g e hinc hc hg he hover => ?_, fun c hout hc hd => ?_⟩
  · have hcode := takeBeat_code_of_begins (p := p) (s := s) u us (by simp [hfree])
    rw [sensedDir_of_not_through hv] at hcode
    exact ⟨newCode .incoming, by rw [withCode_code hcode, hnew], rfl, rfl, rfl, rfl, rfl⟩
  · exact ⟨_, withCode_code (takeBeat_code_of_incoming u us hinc hc he) f, (addBeat_placed hg hover).mark hf⟩
  · have hcode := takeBeat_code_of_begins (p := p) (s := s) u us (by simp [hout])
    rw [sensedDir_of_not_through hv] at hcode
    obtain ⟨hsent, hcodes, hexchange, hent⟩ := takeBeat_interrupts (u := u) (us := us) hout hc hd
    obtain ⟨hpattern, habsent, hpresent⟩ := recordOf_interrupted s c
    exact ⟨_, newCode .incoming, hsent, hpattern, habsent, hpresent, hcodes, hexchange, hent,
      by rw [withCode_code hcode, hnew], rfl, rfl⟩

/-! #### The end of a beat, a held beat, the end of a stroke (R81, R83, R91) -/

theorem beatOver_of_follow {v : Sounder} (h : v = .follow) : v.beatOver = .off := by
  rw [h]
  rfl

theorem beatOver_of_ne {v : Sounder} (h : v ≠ .follow) : v.beatOver = v := by
  cases v with
  | follow => exact absurd rfl h
  | off | stroke => rfl

section
variable {p : Sec} {s : State} {u : Pulse} {us : List Pulse}

theorem endOfBeat_port {e : Nat} (hp : (s.port p).pulses = u :: us) (hb : u.beat = true) (he : u.ended = some e) :
    (endOfBeat p s).port p =
      { (s.port p).withCode (Code.beatEnds e) with pulses := us, sounder := (s.port p).sounder.beatOver } := by
  rw [endOfBeat_eq hp hb he]
  obtain h | ⟨_, _, hne, _⟩ := endThrough_port p p e (s.setPort p
    { (s.port p).withCode (Code.beatEnds e) with pulses := us, sounder := (s.port p).sounder.beatOver })
  · rw [h, State.port_setPort, if_pos rfl]
  · exact absurd rfl hne

theorem beatHeld_port (hp : (s.port p).pulses = u :: us) (hb : u.beat = true) (hh : u.held = false)
    (ho : u.over s.times.beatmax s.now = true) : (beatHeld p s).port p =
      { (s.port p).withCode (·.spoilBy (some .held)) with
        pulses := { u with held := true } :: us
        sounder := (s.port p).sounder.beatOver } := by
  simp [beatHeld, hp, hb, hh, ho]

theorem over_of {beatmax now : Nat} (h : (u.ended = none ∧ u.start + beatmax ≤ now) ∨
    ∃ e, u.ended = some e ∧ u.start + beatmax < e) : u.over beatmax now = true := by
  obtain ⟨he, hle⟩ | ⟨e, he, hlt⟩ := h <;> simp [Pulse.over, *]

end

/-- Settles O26: the beat's port after its end, after it is held, and after the stroke. -/
theorem beatEndsAndHolds : Obligations.BeatEndsAndHolds := by
  refine ⟨fun p s u us e hp hb he => ⟨_, rfl, ?_⟩, fun p s u us hp hb hh ho => ⟨_, rfl, ?_⟩,
    fun p s d hd => ⟨_, rfl, ?_⟩⟩
  · rw [commit_port, endOfBeat_port hp hb he]
    exact ⟨rfl, fun c hc => withCode_code hc _, beatOver_of_follow, beatOver_of_ne⟩
  · rw [commit_port, beatHeld_port hp hb hh (over_of ho)]
    exact ⟨rfl, fun c hc => ⟨_, withCode_code hc _, spoilBy_groups c, spoilBy_spoil_of_absent, spoilBy_spoil_of_ne⟩,
      beatOver_of_follow, beatOver_of_ne⟩
  · rw [commit_port]
    refine ⟨fun hle => ?_, fun hlt => ?_⟩
    · simp [strokeEnd, hd, hle]
    · have hn : ¬d ≤ s.now := by omega
      simp [strokeEnd, hd, hn]

/-! #### Completion (R84, R90, R92) -/

/-- The code `c` of port `p` has completed between `s` and `t`, classified as `cls`, with the entries `before` its
own. -/
def Completed (p : Sec) (c : Code) (s : State) (cls : Classification) (before : List (RegUnit × RegBody))
    (t : State) : Prop :=
  let r : CodeRecord := ⟨c.groups, cls, s.register.clock, s.now⟩
  (t.port p).owner = .free ∧ (t.port p).code = none ∧
    (c.dir = .outgoing → (t.port p).sent = some r ∧ (t.port p).rcvd = (s.port p).rcvd) ∧
    (c.dir ≠ .outgoing → (t.port p).rcvd = some r ∧ (t.port p).sent = (s.port p).sent) ∧
    t.inbox.codes = s.inbox.codes ++ [⟨p, c.dir, r, c.unrepeated⟩] ∧
    t.inbox.exchange = s.inbox.exchange ++ [⟨p, c.dir, r, c.unrepeated⟩] ∧
    t.inbox.entries = s.inbox.entries ++ before ++ [(.bell, .bell p c.dir c.groups cls)]

section
variable {p : Sec} {s : State} {c : Code}

/-- The completion of a code, as it stands. -/
theorem completeCode_completed (p : Sec) (c : Code) (s : State) :
    Completed p c s (classify s.codes c) [] (completeCode p c s) := by
  refine ⟨?_, ?_, fun hd => ?_, fun hd => ?_, completeCode_codes p c s, completeCode_exchange p c s, ?_⟩
  · rw [completeCode_port]
  · rw [completeCode_port]
  · rw [completeCode_port]
    exact ⟨if_pos hd, if_pos hd⟩
  · rw [completeCode_port]
    exact ⟨if_neg hd, if_neg hd⟩
  · rw [completeCode_entries, List.append_nil]

/-- A collision: the drive ends, the CLASH entry is made, and the code, spoiled by it, is complete (R90). -/
theorem collision_eq (hclash : (s.port p).clash = true) (ho : (s.port p).out ≠ none) (hc : (s.port p).code = some c) :
    collision p s = completeCode p (c.spoilBy (some .clashed))
      ((s.setPort p (s.port p).driveOff).enter .bell (.clash p)) := by
  simp [collision, hclash, Option.isSome_iff_ne_none, ho, hc]

theorem collision_port (hclash : (s.port p).clash = true) (ho : (s.port p).out ≠ none) (hc : (s.port p).code = some c) :
    (collision p s).port p = { (s.port p).driveOff with
      owner := .free
      code := none
      sent := if c.dir = .outgoing then some (s.recordOf (c.spoilBy (some .clashed))) else (s.port p).sent
      rcvd := if c.dir = .outgoing then (s.port p).rcvd else some (s.recordOf (c.spoilBy (some .clashed))) } := by
  rw [collision_eq hclash ho hc, completeCode_port]
  simp [PortData.driveOff]

theorem collision_completed (hclash : (s.port p).clash = true) (ho : (s.port p).out ≠ none)
    (hc : (s.port p).code = some c) :
    Completed p c s (classify s.codes (c.spoilBy (some .clashed))) [(.bell, .clash p)] (collision p s) := by
  have he := collision_eq hclash ho hc
  have hr : s.recordOf (c.spoilBy (some .clashed)) =
      ⟨c.groups, classify s.codes (c.spoilBy (some .clashed)), s.register.clock, s.now⟩ := by
    rw [State.recordOf, spoilBy_groups]
  unfold Completed
  rw [collision_port hclash ho hc, ← hr]
  refine ⟨rfl, rfl, fun hd => ⟨if_pos hd, if_pos hd⟩, fun hd => ⟨if_neg hd, if_neg hd⟩, ?_, ?_, ?_⟩
  · rw [he, completeCode_codes, spoilBy_dir, spoilBy_unrepeated]
    rfl
  · rw [he, completeCode_exchange, spoilBy_dir, spoilBy_unrepeated]
    rfl
  · rw [he, completeCode_entries, spoilBy_dir, spoilBy_groups]
    rfl

/-- The end of a step leaves a completion where it makes no entry of its own. -/
theorem Completed.commit {cls : Classification} {before : List (RegUnit × RegBody)} {t : State}
    (h : Completed p c s cls before t) (he : (commit s t).inbox.entries = t.inbox.entries) :
    Completed p c s cls before (commit s t) := by
  unfold Completed at h ⊢
  rw [he]
  exact h

theorem codeComplete_due {e : Nat} (hc : (s.port p).code = some c) (he : c.lastEnd = some e)
    (hle : e + s.times.endWait ≤ s.now) : codeComplete p s = completeCode p c s := by
  simp [codeComplete, hc, Code.waitOver, he, hle]

theorem codeComplete_early {e : Nat} (hc : (s.port p).code = some c) (he : c.lastEnd = some e)
    (hlt : s.now < e + s.times.endWait) : codeComplete p s = s := by
  have hn : ¬e + s.times.endWait ≤ s.now := by omega
  simp [codeComplete, hc, Code.waitOver, he, hn]

end

/-- Settles O27: the completion at the end wait and at a collision, with the classification by the mark and the
table. -/
theorem codesComplete : Obligations.CodesComplete := by
  intro p s c hc
  refine ⟨fun e he => ⟨_, rfl, fun hle => ?_, fun hlt => ?_⟩, fun hclash ho => ⟨_, rfl, ?_⟩⟩
  · have hcomp : Completed p c s (classify s.codes c) [] (commit s (codeComplete p s)) :=
      Completed.commit (codeComplete_due hc he hle ▸ completeCode_completed p c s)
        (commit_entries_of_leaves (codeComplete_leaves p s) (by simp) (by simp) (by simp))
    exact ⟨fun cause h => classify_of_present s.codes h ▸ hcomp, fun d h hd => classify_of_entry h hd ▸ hcomp,
      fun h hd => classify_of_no_entry h hd ▸ hcomp⟩
  · rw [commit_port, codeComplete_early hc he hlt]
  · have hport := collision_port hclash ho hc
    have hcomp := (collision_completed hclash ho hc).commit
      (commit_entries_of_leaves (collision_leaves p s) (by simp) (by simp) (by simp))
    refine ⟨by rw [commit_port, hport]; rfl, by rw [commit_port, hport]; rfl, fun h => ?_, fun cause h => ?_⟩
    · rw [classify_of_present s.codes (spoilBy_spoil_of_absent h)] at hcomp
      exact hcomp
    · rw [classify_of_present s.codes (spoilBy_spoil_of_present h)] at hcomp
      exact hcomp

end Sys2Proof.Machine
end

section
/-! ### The tapper (R86 to R88) -/

namespace Sys2Proof.Machine

section
variable {p : Sec} {s : State}

/-! #### A press -/

/-- The tapper event waiting for a port is taken from the list. -/
theorem takeTapper_of_waits {press : Bool} (h : s.tapperWaits p press) :
    ∃ rest, takeTapper p press s = some (s.setInbox { s.inbox with tappers := rest }) := by
  obtain ⟨rest, ht⟩ := takeFirst_of_find h
  exact ⟨rest, by simp [takeTapper, ht]⟩

/-- What a press makes of its port: nothing where the tapper does not work, else what a press taken does. -/
theorem tapperPress_port (h : s.tapperWaits p true) : (tapperPress p s).port p =
    if s.tapperWorks p then (pressTaken p s).port p else s.port p := by
  obtain ⟨rest, ht⟩ := takeTapper_of_waits h
  have hpress : ∀ b, (pressTaken p (s.setInbox b)).port p = (pressTaken p s).port p := fun b => by
    unfold pressTaken
    dsimp only [State.setInbox_port]
    split
    · simp
    · split
      · rfl
      · split <;> simp [beginOut]
  have hworks : ∀ b, (s.setInbox b).tapperWorks p = s.tapperWorks p := fun _ => rfl
  simp only [tapperPress, ht, hworks]
  split
  · exact hpress _
  · rfl

/-- A press under an outgoing beat makes its tapper again (R86). -/
theorem pressTaken_of_out {o : OutBeat} (ho : (s.port p).out = some o) :
    (pressTaken p s).port p = { s.port p with out := some { o with made := true } } := by
  simp [pressTaken, ho]

/-- A press after a cut does nothing until the tapper is released (R87). -/
theorem pressTaken_of_held (ho : (s.port p).out = none) (hh : (s.port p).held = true) :
    (pressTaken p s).port p = s.port p := by
  simp [pressTaken, ho, hh]

/-- A press under a sensed code is suppressed (R88). -/
theorem pressTaken_of_incoming {c : Code} (ho : (s.port p).out = none) (hh : (s.port p).held = false)
    (hinc : (s.port p).owner = .incoming) (hc : (s.port p).code = some c) :
    (pressTaken p s).port p = { s.port p with code := some { c with suppressed := true } } := by
  simp [pressTaken, ho, hh, hinc, hc, PortData.withCode]

/-- The port of an outgoing beat that begins with the code `c`. -/
theorem beginOut_port (p : Sec) (c : Code) (s : State) :
    (beginOut p c s).port p = { (s.port p).driveOn s.times.beatmin s.now with
      out := some ⟨s.now, true⟩
      rpt := none
      owner := .outgoing
      code := some c } := by
  simp [beginOut]

theorem pressTaken_of_free (ho : (s.port p).out = none) (hh : (s.port p).held = false)
    (hfree : (s.port p).owner = .free) : pressTaken p s = beginOut p (newCode .outgoing) s := by
  simp [pressTaken, ho, hh, hfree]

theorem pressTaken_of_outgoing {c : Code} {e : Nat} (ho : (s.port p).out = none) (hh : (s.port p).held = false)
    (hout : (s.port p).owner = .outgoing) (hc : (s.port p).code = some c) (he : c.lastEnd = some e) :
    pressTaken p s = beginOut p (c.addBeat (s.now - e) s.times.join) s := by
  simp [pressTaken, ho, hh, hout, hc, gapTo_of_lastEnd he]

/-! #### A release, the end of the stretch and the cut -/

theorem tapperRelease_port (h : s.tapperWaits p false) : (tapperRelease p s).port p = (releaseTaken p s).port p := by
  obtain ⟨rest, ht⟩ := takeTapper_of_waits h
  simp only [tapperRelease, ht, releaseTaken, State.setInbox_port]
  split
  · simp
  · simp only [State.setInbox_now, State.setInbox_times]
    split <;> simp [*]

theorem releaseTaken_of_none (ho : (s.port p).out = none) :
    (releaseTaken p s).port p = { s.port p with held := false } := by
  simp [releaseTaken, ho]

theorem releaseTaken_of_lasted {o : OutBeat} (ho : (s.port p).out = some o) (hle : o.start + s.times.beatmin ≤ s.now) :
    (releaseTaken p s).port p = { s.port p with held := false }.endOutBeat s.now := by
  simp [releaseTaken, ho, hle]

/-- A release before BEATMIN begins the stretch (R86). -/
theorem releaseTaken_of_short {o : OutBeat} (ho : (s.port p).out = some o) (hlt : s.now < o.start + s.times.beatmin) :
    (releaseTaken p s).port p = { s.port p with held := false, out := some { o with made := false } } := by
  have hn : ¬o.start + s.times.beatmin ≤ s.now := by omega
  simp [releaseTaken, ho, hn]

theorem stretchEnd_port {o : OutBeat} (ho : (s.port p).out = some o) (hm : o.made = false) : (stretchEnd p s).port p =
    if o.start + s.times.beatmin ≤ s.now then (s.port p).endOutBeat s.now else s.port p := by
  simp only [stretchEnd, ho, hm]
  split <;> simp_all

theorem tapperHeldCut_port {o : OutBeat} (ho : (s.port p).out = some o) (hm : o.made = true) :
    (tapperHeldCut p s).port p = if o.start + s.times.beatmax ≤ s.now then
      { ((s.port p).withCode (·.spoilBy (some .held))).endOutBeat s.now with held := true } else s.port p := by
  simp only [tapperHeldCut, ho, hm]
  split <;> simp_all

end

theorem endOutBeat_code {k : PortData} {c : Code} (h : k.code = some c) (now : Nat) :
    (k.endOutBeat now).code = some { c with lastEnd := some now } :=
  withCode_code h _

/-- Settles O28: a press by the port's owner, a release by the time the beat has lasted, and the two ends by time. -/
theorem tapperDrivesTheLine : Obligations.TapperDrivesTheLine := by
  refine ⟨fun p s hw => ?_, fun p s hw => ⟨_, rfl, ?_⟩, fun p s o ho hm => ⟨_, rfl, ?_⟩,
    fun p s o ho hm => ⟨_, rfl, ?_⟩⟩
  · intro k takes
    refine ⟨_, rfl, ?_⟩
    rw [commit_port, tapperPress_port hw]
    have hpress : takes → (if s.tapperWorks p then (pressTaken p s).port p else s.port p) = (pressTaken p s).port p :=
      fun ht => if_pos ((tapperWorks_iff s p).2 ht)
    refine ⟨fun ht => if_neg (mt (tapperWorks_iff s p).1 ht), fun o ht ho => ?_, fun ht ho hh => ?_, fun ht ho hh => ?_⟩
    · rw [hpress ht, pressTaken_of_out ho]
    · rw [hpress ht, pressTaken_of_held ho hh]
    · rw [hpress ht]
      refine ⟨fun hfree => ?_, fun c gs g e hout hc hg he hover => ?_,
        fun c hinc hc => pressTaken_of_incoming ho hh hinc hc⟩
      · rw [pressTaken_of_free ho hh hfree, beginOut_port]
        exact ⟨rfl, rfl, rfl, _, rfl, rfl, rfl⟩
      · rw [pressTaken_of_outgoing ho hh hout hc he, beginOut_port]
        exact ⟨rfl, rfl, rfl, _, rfl, addBeat_placed hg hover⟩
  · rw [commit_port, tapperRelease_port hw]
    have hheld : ((releaseTaken p s).port p).held = false := by
      cases ho : (s.port p).out with
      | none => rw [releaseTaken_of_none ho]
      | some o =>
        by_cases hle : o.start + s.times.beatmin ≤ s.now
        · rw [releaseTaken_of_lasted ho hle]
          rfl
        · rw [releaseTaken_of_short ho (by omega)]
    refine ⟨hheld, releaseTaken_of_none, fun o ho => ⟨fun hle => ?_, fun hlt => ?_⟩⟩
    · rw [releaseTaken_of_lasted ho hle]
      exact ⟨rfl, rfl, fun c hc => endOutBeat_code (k := { s.port p with held := false }) hc _⟩
    · rw [releaseTaken_of_short ho hlt]
      exact ⟨rfl, rfl, rfl⟩
  · rw [commit_port, stretchEnd_port ho hm]
    refine ⟨fun hle => ?_, fun hlt => if_neg (by omega)⟩
    rw [if_pos hle]
    exact ⟨rfl, rfl, fun c hc => endOutBeat_code hc _⟩
  · rw [commit_port, tapperHeldCut_port ho hm]
    refine ⟨fun hle => ?_, fun hlt => if_neg (by omega)⟩
    rw [if_pos hle]
    exact ⟨rfl, rfl, rfl, fun c hc => ⟨_, endOutBeat_code (withCode_code hc _) _, rfl, spoilBy_groups c,
      spoilBy_spoil_of_absent, spoilBy_spoil_of_ne⟩⟩

end Sys2Proof.Machine
end

section
/-! ### Through working of the bells (R118, R122, R123) -/

namespace Sys2Proof.Machine

/-! #### A beat on a through port -/

section
variable {p q : Sec} {s : State}

/-- On its own port a beat taken by the path marks a THRU code where it is not repeated. -/
theorem throughPath_own_code (hpq : p.throughPair = some q) (s : State) :
    ∃ f : Code → Code, (f = id ∨ f = Code.markedUnrepeated) ∧ (throughPath p q s).port p = (s.port p).withCode f ∧
      ∀ d : Code, d.dir = .thru → ((f d).unrepeated = true ↔ d.unrepeated = true ∨ ¬s.repeatsOn q) := by
  by_cases h : s.repeatsOn q
  · exact ⟨id, .inl rfl, by rw [throughPath_own_port_repeated hpq h, withCode_id], fun d _ => by simp [h]⟩
  · exact ⟨_, .inr rfl, throughPath_own_port_withheld h, fun d hd => by simp [h, markedUnrepeated_of_thru hd]⟩

theorem sensedDir_through (hpq : p.throughPair = some q) (hv : s.service.state = .switchedOut) :
    s.sensedDir p = .thru := by
  simp [State.sensedDir, State.isIn, hv, hpq]

/-- The codes handed on by a beat's step are those of its assembly. -/
theorem throughBeat_codes (p : Sec) (s : State) : (throughBeat p s).inbox.codes = s.inbox.codes :=
  throughBeat_leaves p s .handedCodes (by simp [portAndPair])

theorem throughBeat_entries (p : Sec) (s : State) : s.inbox.entries <+: (throughBeat p s).inbox.entries :=
  EntersOnly.grows (throughBeat_leaves p s .entries (by simp [portAndPair]))

section
variable {u : Pulse} {us : List Pulse} (hpq : p.throughPair = some q)
include hpq

/-- A beat has been assembled: it is repeated as it would have been before. -/
theorem takeBeat_repeatsOn (u : Pulse) (us : List Pulse) : (takeBeat p u us s).repeatsOn q ↔ s.repeatsOn q := by
  rw [State.repeatsOn, takeBeat_service, takeBeat_port_ne p s u us (throughPair_ne hpq), State.repeatsOn]

/-- In SWITCHED_OUT a beat on a line with no sensed code begins a THRU code, unmarked if the beat is repeated. -/
theorem throughPath_begins (hv : s.service.state = .switchedOut) (ho : (s.port p).owner ≠ .incoming) :
    ∃ c, ((throughPath p q (takeBeat p u us s)).port p).code = some c ∧ c.dir = .thru ∧ c.groups = [1] ∧
      (c.unrepeated = false ↔ s.repeatsOn q) := by
  obtain ⟨f, hf, hown, hmark⟩ := throughPath_own_code hpq (takeBeat p u us s)
  have hcode := takeBeat_code_of_begins (p := p) (s := s) u us ho
  rw [sensedDir_through hpq hv] at hcode
  obtain ⟨hdir, hgroups, -⟩ := sameBeats_mark hf (newCode .thru)
  refine ⟨f (newCode .thru), by rw [hown, withCode_code hcode], hdir, hgroups, ?_⟩
  rw [← Bool.not_eq_true, hmark _ rfl, takeBeat_repeatsOn hpq]
  simp [newCode]

/-- A beat of a sensed code is added to it at its gap; a THRU code is marked where the beat is not repeated. -/
theorem throughPath_adds {c : Code} {gs : List Nat} {g e : Nat} (ho : (s.port p).owner = .incoming)
    (hc : (s.port p).code = some c) (hg : c.groups = gs ++ [g]) (he : c.lastEnd = some e) (hover : c.overflow = false) :
    ∃ c', ((throughPath p q (takeBeat p u us s)).port p).code = some c' ∧ c.Placed c' gs g (u.start - e) s.times.join ∧
      (c.dir = .thru → (c'.unrepeated = true ↔ c.unrepeated = true ∨ ¬s.repeatsOn q)) := by
  obtain ⟨f, hf, hown, hmark⟩ := throughPath_own_code hpq (takeBeat p u us s)
  refine ⟨_, by rw [hown, withCode_code (takeBeat_code_of_incoming u us ho hc he)], (addBeat_placed hg hover).mark hf,
    fun hd => ?_⟩
  rw [hmark _ (by rwa [addBeat_dir]), takeBeat_repeatsOn hpq, addBeat_unrepeated]

/-- A repeated beat owns the path and drives the other port. -/
theorem throughPath_repeats (h : s.repeatsOn q) : (throughPath p q (takeBeat p u us s)).service.path = some p ∧
    ((throughPath p q (takeBeat p u us s)).port q).drive = true ∧
    ((throughPath p q (takeBeat p u us s)).port q).rpt = some ⟨s.now, none⟩ ∧
    ((throughPath p q (takeBeat p u us s)).port q).owner = .free := by
  obtain ⟨hpath, hfree⟩ := (takeBeat_repeatsOn hpq u us).2 h
  rw [throughPath_of_free hpath hfree, State.port_setPort, if_pos rfl, takeBeat_now]
  exact ⟨rfl, rfl, rfl, hfree⟩

/-- A beat that finds the line of the other port owned takes the path and drives nothing. -/
theorem throughPath_owned (h : s.service.path ≠ some q) (hq : (s.port q).owner ≠ .free) :
    (throughPath p q (takeBeat p u us s)).service.path = some p ∧
      (throughPath p q (takeBeat p u us s)).port q = s.port q := by
  have hport := takeBeat_port_ne p s u us (throughPair_ne hpq)
  rw [throughPath_of_owned (by rwa [takeBeat_service]) (by rwa [hport]), markUnrepeated_port,
    if_neg (throughPair_ne hpq)]
  exact ⟨rfl, hport⟩

/-- A beat that finds the path the other port's is a clash of the two (R122). -/
theorem throughPath_foreign (h : s.service.path = some q) :
    (throughPath p q (takeBeat p u us s)).service.path = some q ∧
      (throughPath p q (takeBeat p u us s)).port q = s.port q ∧
      (.service, .clash p) ∈ (throughPath p q (takeBeat p u us s)).inbox.entries := by
  have hpath : (takeBeat p u us s).service.path = some q := by rwa [takeBeat_service]
  rw [throughPath_of_foreign hpath, State.enter_port, markUnrepeated_port, if_neg (throughPair_ne hpq)]
  exact ⟨hpath, takeBeat_port_ne p s u us (throughPair_ne hpq), by simp⟩

end

/-! #### The end of a repeat -/

theorem endThrough_of_repeat {r : Repeat} (hpq : p.throughPair = some q) (hpath : s.service.path = some p)
    (hr : (s.port q).rpt = some r) (e : Nat) : endThrough p e s =
      s.setPort q { s.port q with rpt := some { r with stop := some (e + s.times.beatmin) } } := by
  simp only [endThrough, hpq, hpath, if_true, hr]

theorem endThrough_of_none (hpq : p.throughPair = some q) (hpath : s.service.path = some p)
    (hr : (s.port q).rpt = none) (e : Nat) : endThrough p e s = s.setPath none := by
  simp only [endThrough, hpq, hpath, if_true, hr]

theorem repeat_due_iff (r : Repeat) (beatmax now : Nat) :
    r.due beatmax now = true ↔ (∃ d, r.stop = some d ∧ d ≤ now) ∨ r.start + beatmax ≤ now := by
  cases h : r.stop <;> simp [Repeat.due, h]

theorem repeatEnd_eq {r : Repeat} (hr : (s.port q).rpt = some r) :
    repeatEnd q s = if r.due s.times.beatmax s.now then repeatOver q s else s := by
  simp only [repeatEnd, hr]

theorem markOther_service (q : Sec) (s : State) : (markOther q s).service = s.service := by
  unfold markOther
  split <;> rfl

theorem markOther_entries (q : Sec) (s : State) : (markOther q s).inbox.entries = s.inbox.entries := by
  unfold markOther
  split <;> rfl

theorem repeatOver_entries (q : Sec) (s : State) : (repeatOver q s).inbox.entries = s.inbox.entries := by
  unfold repeatOver
  dsimp only
  repeat' split
  all_goals rfl

/-- A CLASH under a repeat: the repeat is over, and the code of the port it repeats is marked (R118, R123). -/
theorem repeatClash_spec (hpq : p.throughPair = some q) (hc : (s.port q).clash = true) (hr : (s.port q).rpt ≠ none) :
    ((repeatClash q s).port q).drive = false ∧ ((repeatClash q s).port q).rpt = none ∧
      (repeatClash q s).port p = (s.port p).withCode Code.markedUnrepeated ∧
      (repeatClash q s).service.path = (if (s.port p).beatOn then s.service.path else none) ∧
      (repeatClash q s).inbox.entries = s.inbox.entries ++ [(.service, .clash q)] := by
  have hqp := throughPair_symm hpq
  have hne := throughPair_ne hpq
  rw [repeatClash_eq hc hr, State.enter_port, State.enter_port, State.enter_service, State.enter_entries,
    markOther_port hqp, markOther_port hqp, if_neg hne, if_pos rfl, repeatOver_port, repeatOver_port, if_pos rfl,
    if_neg hne.symm, markOther_service, repeatOver_path hqp, markOther_entries, repeatOver_entries]
  exact ⟨rfl, rfl, rfl, rfl, rfl⟩

end

/-- Settles O29: a beat by the path's owner and the other port's, its end, the repeat's end, and the repeat's clash. -/
theorem throughWorkingOfBells : Obligations.ThroughWorkingOfBells := by
  intro p q hpq
  have hne := throughPair_ne hpq
  refine ⟨fun s u us hv hp hb ho hl => ?_, fun s u us e hp hb he hpath => ⟨_, rfl, ?_⟩, fun s r hr => ⟨_, rfl, ?_⟩,
    fun s hc hr => ⟨_, rfl, ?_⟩, fun s c hclash hr hc => ⟨_, rfl, ?_⟩⟩
  · intro repeats
    have hthrough := throughBeat_out (p := p) (s := takeBeat p u us s) hpq (by rwa [takeBeat_service])
    have hgrows : (takeBeat p u us s).inbox.entries <+: (throughPath p q (takeBeat p u us s)).inbox.entries :=
      hthrough ▸ throughBeat_entries p _
    have hcommit := (commit_entries_extend s (throughPath p q (takeBeat p u us s))).subset
    have hcodes := throughBeat_codes p (takeBeat p u us s)
    rw [hthrough] at hcodes
    obtain ⟨f, hf, hown, -⟩ := throughPath_own_code hpq (takeBeat p u us s)
    refine ⟨_, rfl, ?_⟩
    rw [startOfBeat_eq hp hb ho hl, hthrough, commit_port, commit_port, commit_service, commit_inbox_codes]
    refine ⟨?_, ?_, ?_, fun hfree => throughPath_begins hpq hv (by simp [hfree]),
      fun c gs g e hinc hc hg he hover => ?_, fun c hout hc hd => ?_,
      fun hpath hfree => throughPath_repeats hpq ⟨by simp [hpath], hfree⟩,
      fun hpath howned => throughPath_owned hpq (by simp [hpath]) howned, fun hpath => ?_, fun hpath => ?_⟩
    · rw [hown]
      exact takeBeat_owner p u us s
    · rw [hown]
      exact takeBeat_pulses p u us s
    · rw [hown]
      exact takeBeat_sounder p u us s
    · obtain ⟨c', hc', ⟨hdir, hend, h1, h2, h3, h4, -⟩, hmark⟩ :=
        throughPath_adds (u := u) (us := us) hpq hinc hc hg he hover
      exact ⟨c', hc', hdir, hend, hmark, h1, h2, h3, h4⟩
    · obtain ⟨c', hc', hdir, hgroups, hrep⟩ := throughPath_begins (u := u) (us := us) hpq hv (by simp [hout])
      obtain ⟨hsent, hhanded, -, hent⟩ := takeBeat_interrupts (u := u) (us := us) hout hc hd
      obtain ⟨hpattern, habsent, hpresent⟩ := recordOf_interrupted s c
      exact ⟨_, c', by rw [hown]; exact hsent, hpattern, habsent, hpresent, hcodes.trans hhanded,
        hcommit (hgrows.subset (by simp [hent])), hc', hdir, hgroups, hrep⟩
    · have hfree : s.service.path ≠ some q := by simpa [hpath] using hne.symm
      refine ⟨?_, fun hq => ?_, fun hq => (throughPath_owned hpq hfree hq).2⟩
      · by_cases hq : (s.port q).owner = .free
        · exact (throughPath_repeats hpq ⟨hfree, hq⟩).1
        · exact (throughPath_owned hpq hfree hq).1
      · obtain ⟨-, hdrive, hrpt, -⟩ := throughPath_repeats (u := u) (us := us) hpq ⟨hfree, hq⟩
        exact ⟨hdrive, hrpt⟩
    · obtain ⟨hstays, hq, hclash⟩ := throughPath_foreign (u := u) (us := us) hpq hpath
      exact ⟨hstays, hq, hcommit hclash⟩
  · have hother : ∀ k, ((s.setPort p k).port q).rpt = (s.port q).rpt := fun k => by simp [hne]
    rw [commit_port, commit_service, endOfBeat_eq hp hb he]
    refine ⟨fun r hr => ?_, fun hr => ?_⟩
    · rw [endThrough_of_repeat (s := s.setPort p _) hpq hpath ((hother _).trans hr)]
      simp [hne, hpath]
    · rw [endThrough_of_none (s := s.setPort p _) hpq hpath ((hother _).trans hr)]
      rfl
  · rw [commit_port, commit_service, repeatEnd_eq hr]
    refine ⟨fun hdue => ?_, fun hstop hstart => ?_⟩
    · rw [if_pos ((repeat_due_iff _ _ _).2 hdue), repeatOver_port, if_pos rfl, repeatOver_path (throughPair_symm hpq)]
      exact ⟨rfl, rfl, fun hb => by simp [hb], fun hb => by simp [hb]⟩
    · have hn : ¬r.due s.times.beatmax s.now = true := fun h => by
        obtain ⟨d, hd, hle⟩ | hle := (repeat_due_iff _ _ _).1 h
        · exact absurd (hstop d hd) (by omega)
        · omega
      rw [if_neg hn]
  · obtain ⟨hdrive, hrpt, -, hpath, -⟩ := repeatClash_spec hpq hc hr
    rw [commit_port, commit_service]
    refine ⟨hdrive, hrpt, fun u us hp hb => ?_, fun hp => ?_⟩
    · rw [hpath, PortData.beatOn, hp]
      exact if_pos hb
    · rw [hpath, PortData.beatOn, hp]
      rfl
  · obtain ⟨hdrive, hrpt, hown, -, hentries⟩ := repeatClash_spec hpq hclash hr
    rw [commit_port, commit_port, commit_entries_of_leaves (repeatClash_leaves q s)
      (fun _ => by cases q <;> simp [portAndPair, Sec.throughPair]) (by cases q <;> simp [portAndPair, Sec.throughPair])
      (by cases q <;> simp [portAndPair, Sec.throughPair]), hown]
    refine ⟨hdrive, hrpt, hentries, fun hd => ?_, fun hd => ?_⟩
    · rw [withCode_code hc, markedUnrepeated_of_thru hd]
    · rw [withCode_code hc, markedUnrepeated_of_ne hd]

end Sys2Proof.Machine
end

section
/-! ### WITHDRAW and RESTART (R93, R115, R157, R159, R166) -/

namespace Sys2Proof.Machine

section
variable {s : State}

/-! #### The box at rest -/

/-- At rest every lever with a record is locked at an end, and every section with a record is BLOCKED (R166). -/
theorem atRest_iff_locked_and_blocked (s : State) : s.atRest = true ↔
    (∀ n, (s.lever n).record ≠ none → (s.lever n).pos = .nLocked ∨ (s.lever n).pos = .rLocked) ∧
      ∀ x, (s.section_ x).record ≠ none → (s.section_ x).state = .blocked := by
  have hlocked : ∀ pos : LeverPos, pos.isLocked = true ↔ pos = .nLocked ∨ pos = .rLocked := fun pos => by
    cases pos <;> simp [LeverPos.isLocked]
  simp only [atRest_iff, LeverData.loaded, Option.isSome_iff_ne_none, hlocked]

/-! #### Leaving service -/

theorem enterLoaded_section (st : SecState) (x z : Sec) (s : State) : (enterLoaded st x s).section_ z =
    if z = x ∧ (s.section_ x).record.isSome = true then (s.section_ x).enter st none else s.section_ z := by
  unfold enterLoaded
  by_cases hr : (s.section_ x).record.isSome = true
  · rw [if_pos hr, endSec]
    by_cases hz : z = x
    · subst hz
      rw [enterSec_section, if_pos ⟨rfl, hr⟩]
    · rw [enterSec_section_ne hz, if_neg fun h => hz h.1]
  · rw [if_neg hr, if_neg fun h => hr h.2]

theorem enterLoaded_link (st : SecState) (x : Sec) (s : State) : (enterLoaded st x s).link = s.link := by
  unfold enterLoaded
  split <;> rfl

theorem cutTapper_link (p : Sec) (s : State) : (cutTapper p s).link = s.link := by
  unfold cutTapper
  split <;> rfl

theorem cutTapper_section (p x : Sec) (s : State) : (cutTapper p s).section_ x = s.section_ x := by
  unfold cutTapper
  split <;> rfl

theorem leaveService_link (s : State) : (leaveService s).link = s.link := by
  simp only [leaveService, State.enter_link, State.setService_link, cutTapper_link, enterLoaded_link]

theorem leaveService_section {x : Sec} (h : (s.section_ x).record ≠ none) :
    (leaveService s).section_ x = (s.section_ x).enter .closed none := by
  have hr := Option.isSome_iff_ne_none.2 h
  simp only [leaveService, State.enter_section_, State.setService_section_, cutTapper_section]
  cases x <;> simp [enterLoaded_section, hr]

theorem leaveService_lever (s : State) (n : Lever) : (leaveService s).lever n = s.lever n :=
  leaveService_leaves s (.lever n) (by simp [writes, lineParts, everySection])

/-! #### The requests -/

theorem handleWithdraw_atRest (h : s.atRest = true) :
    handleWithdraw [W.WITHDRAW] s = .ok (leaveService s, [W.WITHDRAW]) := by
  simp only [handleWithdraw, h]
  rfl

theorem handleWithdraw_refused (h : s.atRest = false) : handleWithdraw [W.WITHDRAW] s = .error .state := by
  simp only [handleWithdraw, h]
  rfl

/-- RESTART changes only what is to come of the reply. -/
theorem handleRestart_words (s : State) : handleRestart [W.RESTART] s =
    .ok (s.setLink { s.link with restart := .replyWaiting }, [W.RESTART]) := rfl

@[simp] theorem reply_port (ws : List Text) (s : State) (p : Sec) : (reply ws s).port p = s.port p := rfl

end

/-- Settles O52: WITHDRAW by the box at rest or not, with what leaving service does; and RESTART's reply. -/
theorem withdrawAndRestart : Obligations.WithdrawAndRestart := by
  intro s rest
  refine ⟨fun hs ha => ?_, fun hs ha => ?_⟩
  · have hv : inService s.service.state = true := by simp [inService, hs]
    cases hrest : s.atRest with
    | false =>
      have hn : ¬rest := mt (atRest_iff_locked_and_blocked s).2 (by simp [hrest])
      obtain ⟨t, hx, hr, hk⟩ := refused rfl ha hv (handleWithdraw_refused hrest) (r := [refusalWord W.STATE]) rfl
      exact ⟨t, hx, fun h => absurd h hn, fun _ => ⟨hr, hk⟩⟩
    | true =>
      have hyes : rest := (atRest_iff_locked_and_blocked s).1 hrest
      obtain ⟨hx, hr⟩ := request_ok rfl ha hv (handleWithdraw_atRest hrest) (leaveService_link s)
      refine ⟨_, hx, fun _ => ⟨hr, rfl, fun x hrec => ?_, fun p ho => ?_, fun p ho => ?_, ?_, fun n => ?_⟩,
        fun h => absurd hyes h⟩
      · rw [commit_section, reply_section, leaveService_section hrec]
        exact ⟨rfl, rfl⟩
      · rw [commit_port, reply_port, leaveService_port, tapperCut_of_some ho]
        exact ⟨rfl, rfl⟩
      · rw [commit_port, reply_port, leaveService_port, tapperCut_of_none ho]
      · exact (commit_entries_extend s _).subset (List.mem_append_right _ (List.mem_singleton.2 rfl))
      · rw [commit_lever, reply_lever, leaveService_lever]
  · have hx : exec .restart s = .next (commit s
        (reply (success [W.RESTART]) (s.setLink { s.link with restart := .replyWaiting }))) := by
      show Host.Outcome.next _ = _
      rw [requestStep_of_asks ha, if_pos (inConfigure_of hs), handle_ok (handleRestart_words s)]
    exact ⟨_, hx, ⟨rfl, rfl, rfl, rfl, rfl⟩, rfl⟩

end Sys2Proof.Machine
end

section
/-! ### Each section agrees with its state after every step (R96, R97, R100, R110, R115; O58) -/

namespace Sys2Proof.Machine

/-! #### A section that enters a state -/

/-- A section is worked as a service state has it (R96, R115). -/
def SectionData.fitsIn (k : SectionData) (v : ServiceState) (x : Sec) : Prop :=
  match v with
  | .powerUp | .configure => k.state = .closed
  | .inService => k.state ≠ .through ∧ (k.state = .closed ↔ k.record = none)
  | .switchedOut => if x = .c then k.state = .closed else k.state = .through ∧ k.record.isSome = true

/-- A section agrees with its state, and is worked as a service state has it. -/
def SectionData.okIn (k : SectionData) (v : ServiceState) (x : Sec) : Prop :=
  k.ok ∧ k.fitsIn v x

theorem sectionsOk_iff (s : State) : s.sectionsOk ↔
    (∀ x, (s.section_ x).okIn s.service.state x) ∧ s.boxoutFits ∧ s.lastTrain ≤ Config.maxTrainId := Iff.rfl

section
variable {k : SectionData} {st : SecState} {r : Train}

/-- A state that holds no record is entered with flags, timer and record cleared. -/
theorem SectionData.ok.enter_none (h : k.ok) (hst : st.holdsNone = true) : (k.enter st none).ok := by
  obtain ⟨-, -, -, -, -, -, -, hreleases⟩ := h
  simp [SectionData.ok, SectionData.enter, hst, hreleases]

/-- A record created in a state that held none: its id is in range, and its direction is the one of the state entered. -/
theorem SectionData.ok.enter_new (h : k.ok) (hk : k.state.holdsNone = true) (hst : st.holdsNone = false)
    (hid : 1 ≤ r.ident ∧ r.ident ≤ Config.maxTrainId)
    (hin : r.inward = true ↔ st = .offerIn ∨ st = .clearIn ∨ st = .enteredIn) : (k.enter st (some r)).ok := by
  obtain ⟨-, -, -, -, htimer, -, -, hreleases⟩ := h
  have hoff : ¬(k.timer.isSome = true ∨ k.released = true) := fun ht => by simp [htimer ht, SecState.holdsNone] at hk
  refine ⟨fun _ => rfl, by simp [SectionData.enter], by simp [SectionData.enter], by simp [SectionData.enter], ?_,
    by simp [SectionData.enter, hst], fun t ht => ?_, hreleases⟩
  · simpa [SectionData.enter, hst] using fun ht => absurd ht hoff
  · obtain rfl : r = t := by simpa [SectionData.enter, hst] using ht
    exact ⟨hid.1, hid.2, hin⟩

/-- A record carried on, from each state that holds one into the next. -/
theorem SectionData.ok.enter_next (h : k.ok) {f : Train → Train}
    (hf : ∀ r, (f r).ident = r.ident ∧ (f r).inward = r.inward)
    (hs : (k.state, st) ∈ [(SecState.offerIn, SecState.clearIn), (.clearIn, .enteredIn), (.offerOut, .clearOut),
      (.clearOut, .enteredOut)]) : (k.enter st (k.train.map f)).ok := by
  obtain ⟨-, -, -, -, htimer, htrain, hrecord, hreleases⟩ := h
  simp only [List.mem_cons, Prod.mk.injEq, List.not_mem_nil, or_false] at hs
  obtain ⟨r, hr⟩ : ∃ r, k.train = some r := by
    refine Option.isSome_iff_exists.1 (htrain.2 ?_)
    obtain ⟨h, -⟩ | ⟨h, -⟩ | ⟨h, -⟩ | ⟨h, -⟩ := hs <;> rw [h] <;> rfl
  obtain ⟨hlow, hhigh, hin⟩ := hrecord r hr
  obtain ⟨hid, hdir⟩ := hf r
  obtain ⟨h, rfl⟩ | ⟨h, rfl⟩ | ⟨h, rfl⟩ | ⟨h, rfl⟩ := hs <;>
    simp_all [SectionData.ok, SectionData.enter, SecState.holdsNone]

end

/-! #### What the Block unit makes of a section -/

/-- The section is worked: neither CLOSED nor THROUGH. -/
def SecState.worked (st : SecState) : Prop := st ≠ .closed ∧ st ≠ .through

/-- What the Block unit makes of a section in one step: it agrees with its state as before, its record is the same, and only
worked states are left and entered. -/
structure SectionData.Works (k k' : SectionData) : Prop where
  ok : k.ok → k'.ok
  record : k'.record = k.record
  state : k'.state = k.state ∨ k.state.worked ∧ k'.state.worked

namespace SectionData.Works
variable {k k' k'' : SectionData}

theorem refl (k : SectionData) : k.Works k := ⟨id, rfl, .inl rfl⟩

theorem trans (h : k.Works k') (h' : k'.Works k'') : k.Works k'' := by
  refine ⟨h'.ok ∘ h.ok, h'.record.trans h.record, ?_⟩
  obtain he | ⟨hk, hk'⟩ := h.state <;> obtain he' | ⟨hl, hl'⟩ := h'.state
  · exact .inl (he'.trans he)
  · exact .inr ⟨he ▸ hl, hl'⟩
  · exact .inr ⟨hk, he' ▸ hk'⟩
  · exact .inr ⟨hk, hl'⟩

/-- A worked section is worked in service only, and in no other way after a step of the Block unit. -/
theorem okIn (h : k.Works k') {v : ServiceState} {x : Sec} (hk : k.okIn v x) : k'.okIn v x := by
  obtain ⟨hok, hfits⟩ := hk
  refine ⟨h.ok hok, ?_⟩
  obtain he | ⟨⟨hc, ht⟩, hc', ht'⟩ := h.state
  · cases v <;> simpa only [SectionData.fitsIn, he, h.record] using hfits
  · cases v with
    | powerUp | configure => exact absurd hfits hc
    | inService => exact ⟨ht', iff_of_false hc' (h.record ▸ mt hfits.2.2 hc)⟩
    | switchedOut =>
      simp only [SectionData.fitsIn] at hfits
      split at hfits
      · exact absurd hfits hc
      · exact absurd hfits.1 ht

theorem enter {st : SecState} {train : Option Train} (hk : k.state.worked) (hst : st.worked)
    (h : k.ok → (k.enter st train).ok) : k.Works (k.enter st train) :=
  ⟨h, rfl, .inr ⟨hk, hst⟩⟩

end SectionData.Works

theorem nextTrain_range (n : Nat) : 1 ≤ nextTrain n ∧ nextTrain n ≤ Config.maxTrainId := by
  unfold nextTrain
  split
  · exact ⟨by omega, ‹_›⟩
  · decide

section
variable (x : Sec) (s : State)

theorem endSec_works {st : SecState} (hst : st = .blocked ∨ st = .protected_ ∨ st = .unofferedClear) (o : TrainEnd)
    (hk : (s.section_ x).state.worked) : (s.section_ x).Works ((endSec x st o s).section_ x) := by
  rw [endSec, enterSec_section]
  obtain rfl | rfl | rfl := hst <;> exact .enter hk (by simp [SecState.worked]) fun h => h.enter_none rfl

/-- A record carried on into the next state. -/
theorem enterSec_next_works {st : SecState} {f : Train → Train}
    (hf : ∀ r, (f r).ident = r.ident ∧ (f r).inward = r.inward) (o : TrainEnd) (auto : Bool)
    (hs : ((s.section_ x).state, st) ∈ [(SecState.offerIn, SecState.clearIn), (.clearIn, .enteredIn),
      (.offerOut, .clearOut), (.clearOut, .enteredOut)]) :
    (s.section_ x).Works ((enterSec x st ((s.section_ x).train.map f) o auto s).section_ x) := by
  rw [enterSec_section]
  refine .enter ?_ ?_ fun h => h.enter_next hf hs
  all_goals
    simp only [List.mem_cons, Prod.mk.injEq, List.not_mem_nil, or_false] at hs
    obtain ⟨h, rfl⟩ | ⟨h, rfl⟩ | ⟨h, rfl⟩ | ⟨h, rfl⟩ := hs <;> simp [SecState.worked, h]

variable {x s} in
theorem progressCheck_works {u : State} (hu : u.section_ x = s.section_ x) :
    (s.section_ x).Works ((progressCheck x u).section_ x) := by
  rw [← hu]
  cases hr : (u.section_ x).train with
  | none =>
    have : progressCheck x u = u := by simp only [progressCheck, hr]
    rw [this]
    exact .refl _
  | some r =>
    obtain ⟨p, st, he, -⟩ := progressCheck_train hr
    rw [he]
    refine ⟨fun h => ?_, rfl, .inl rfl⟩
    obtain ⟨hdrive, hrelease, hheard, hone, htimer, htrain, hrecord, hreleases⟩ := h
    refine ⟨hdrive, hrelease, hheard, hone, htimer, by simpa [hr] using htrain, fun t ht => ?_, hreleases⟩
    cases ht
    exact hrecord r hr

variable {x s} in
theorem enterEnteredIn_works {u : State} (hu : u.section_ x = s.section_ x) (auto : Bool)
    (hs : (s.section_ x).state = .clearIn) : (s.section_ x).Works ((enterEnteredIn x auto u).section_ x) := by
  rw [← hu] at hs ⊢
  have h := enterSec_next_works x u (st := .enteredIn) (f := Train.enter u.register.clock) (fun _ => ⟨rfl, rfl⟩) .void auto
    (by simp [hs])
  rw [enterEnteredIn]
  exact h.trans (progressCheck_works rfl)

theorem takeProgress_works : (s.section_ x).Works ((takeProgress x s).section_ x) := by
  simp only [takeProgress]
  split
  · exact .refl _
  · split
    · exact .refl _
    · split
      · exact progressCheck_works rfl
      · exact .refl _

theorem autoTol_works : (s.section_ x).Works ((autoTol x s).section_ x) := by
  simp only [autoTol]
  split
  · exact .refl _
  · split
    · refine enterEnteredIn_works ?_ true ((autoTolActs_iff _).1 ‹_›).1
      rfl
    · exact progressCheck_works rfl

theorem enterClearOut_works (hs : (s.section_ x).state = .offerOut) :
    (s.section_ x).Works ((enterClearOut x s).section_ x) := by
  have h := enterSec_next_works x s (st := .clearOut) (f := Train.accept s.register.clock) (fun _ => ⟨rfl, rfl⟩) .void false
    (by simp [hs])
  rw [enterSec_section] at h
  rw [enterClearOut_section]
  refine ⟨fun hk => ?_, h.record, h.state⟩
  obtain ⟨hdrive, -, hheard, hone, htimer, htrain, hrecord, hreleases⟩ := h.ok hk
  exact ⟨hdrive, fun _ => rfl, hheard, hone, htimer, htrain, hrecord, hreleases⟩

/-- What is no part of the agreement: the settling of the reading, the switch's position and the marks. -/
theorem indicatorSample_works (cls : IndClass) : (s.section_ x).Works ((indicatorSample x cls s).section_ x) := by
  simp only [indicatorSample]
  split
  · exact .refl _
  · rw [State.section_setSection, if_pos rfl]
    exact ⟨id, rfl, .inl rfl⟩

/-- A release taken back leaves a section in agreement. -/
theorem SectionData.Works.spends (k : SectionData) : k.Works { k with releaseUnused := false } := by
  refine ⟨fun h => ?_, rfl, .inl rfl⟩
  obtain ⟨hdrive, -, hheard, hone, htimer, htrain, hrecord, hreleases⟩ := h
  exact ⟨hdrive, fun h => (by cases h), hheard, hone, htimer, htrain, hrecord, hreleases⟩

theorem takeReading_works (reading : Option Ind) : (s.section_ x).Works ((takeReading x reading s).section_ x) := by
  have hend : ∀ {st st' : SecState} {o : TrainEnd}, (s.section_ x).state = st' → st'.worked →
      st = .blocked ∨ st = .protected_ ∨ st = .unofferedClear →
      (s.section_ x).Works ((endSec x st o s).section_ x) := fun he hw hst => endSec_works x s hst _ (he ▸ hw)
  simp only [takeReading]
  split
  · exact enterClearOut_works x s ‹_›
  · refine enterSec_next_works x s (st := .enteredOut) (f := Train.enter s.register.clock) (fun _ => ⟨rfl, rfl⟩) _ _ ?_
    simp [*]
  · exact hend ‹_› (by simp [SecState.worked]) (.inl rfl)
  · rw [noteReading, State.enter_section_, State.section_setSection, if_pos rfl]
    exact .spends _
  · exact hend ‹_› (by simp [SecState.worked]) (.inl rfl)
  · exact hend ‹_› (by simp [SecState.worked]) (.inl rfl)
  · exact hend ‹_› (by simp [SecState.worked]) (.inr (.inr rfl))
  · exact .refl _
  · exact .refl _

theorem settleReading_works (reading : Option Ind) : (s.section_ x).Works ((settleReading x reading s).section_ x) := by
  simp only [settleReading]
  split
  · rw [State.section_setSection, if_pos rfl]
    exact ⟨id, rfl, .inl rfl⟩
  · refine .trans (k' := { s.section_ x with reading := reading, unsettled := none }) ⟨id, rfl, .inl rfl⟩ ?_
    rw [changeReading]
    generalize hu : State.setInbox _ _ = u
    have hk : u.section_ x = { s.section_ x with reading := reading, unsettled := none } := by simp [← hu]
    rw [← hk]
    exact takeReading_works x u reading

theorem indicatorSettled_works : (s.section_ x).Works ((indicatorSettled x s).section_ x) := by
  simp only [indicatorSettled]
  split
  · split
    · exact settleReading_works x s _
    · exact .refl _
  · exact .refl _

theorem unsettledTimeout_works : (s.section_ x).Works ((unsettledTimeout x s).section_ x) := by
  simp only [unsettledTimeout]
  split
  · split
    · exact settleReading_works x s _
    · exact .refl _
  · exact .refl _

/-- The switch's position taken, and what its arrival brings. -/
theorem takeSwitch_works {i : Ind} {t : State} (h : takeSwitch x i s = some t) : (s.section_ x).Works (t.section_ x) := by
  obtain ⟨rest, -, rfl⟩ := takeSwitch_some x s h
  rw [State.section_setSection, if_pos rfl]
  exact ⟨id, rfl, .inl rfl⟩

theorem switchLC_works : (s.section_ x).Works ((switchLC x s).section_ x) := by
  by_cases h : (s.section_ x).state = .offerIn ∧ s.mayAccept x = true
  · rw [switchLC_accepts h.1 h.2]
    refine enterSec_next_works x s (st := .clearIn) (f := Train.accept s.register.clock) (fun _ => ⟨rfl, rfl⟩) _ _ ?_
    simp [h.1]
  · rw [switchLC_stays h]
    exact .refl _

theorem switchTOL_works : (s.section_ x).Works ((switchTOL x s).section_ x) := by
  cases hs : (s.section_ x).state with
  | clearIn =>
    rw [switchTOL_enters hs]
    exact enterEnteredIn_works rfl false hs
  | blocked | offerIn | offerOut | clearOut | unofferedClear | enteredOut =>
    rw [switchTOL_ends (by simp [hs])]
    exact endSec_works x s (.inr (.inl rfl)) _ (by simp [hs, SecState.worked])
  | enteredIn | protected_ | closed | through =>
    rw [switchTOL_stays (by simp [hs])]
    exact .refl _

theorem switchLB_works : (s.section_ x).Works ((switchLB x s).section_ x) := by
  have hend : ∀ o, (s.section_ x).state.worked → (s.section_ x).Works ((endSec x .blocked o s).section_ x) :=
    fun o => endSec_works x s (.inl rfl) o
  cases hs : (s.section_ x).state with
  | clearIn =>
    rw [switchLB_clearIn hs]
    split
    · exact enterEnteredIn_works rfl false hs
    · split
      · exact hend _ (by simp [hs, SecState.worked])
      · exact .refl _
  | enteredIn =>
    rw [switchLB_enteredIn hs]
    split
    · exact hend _ (by simp [hs, SecState.worked])
    · split
      · exact hend _ (by simp [hs, SecState.worked])
      · exact .refl _
  | protected_ =>
    rw [switchLB_protected hs]
    exact hend _ (by simp [hs, SecState.worked])
  | closed | blocked | offerOut | clearOut | unofferedClear | enteredOut | offerIn | through =>
    rw [switchLB_stays (by simp [hs])]
    exact .refl _

theorem arrivalAtLC_works : (s.section_ x).Works ((arrivalAtLC x s).section_ x) := by
  simp only [arrivalAtLC]
  split
  · exact .refl _
  · exact (takeSwitch_works x s ‹_›).trans (switchLC_works x _)

theorem arrivalAtTOL_works : (s.section_ x).Works ((arrivalAtTOL x s).section_ x) := by
  simp only [arrivalAtTOL]
  split
  · exact .refl _
  · exact (takeSwitch_works x s ‹_›).trans (switchTOL_works x _)

theorem arrivalAtLB_works : (s.section_ x).Works ((arrivalAtLB x s).section_ x) := by
  simp only [arrivalAtLB]
  split
  · exact .refl _
  · exact (takeSwitch_works x s ‹_›).trans (switchLB_works x _)

theorem blockControlArrival_works (n : Lever) : (s.section_ x).Works ((blockControlArrival n s).section_ x) := by
  by_cases h : n ∈ s.inbox.atR
  · rw [blockControlArrival_section h]
    split
    · exact .spends _
    · exact .refl _
  · have : takeFirst (fun m => decide (m = n)) s.inbox.atR = none :=
      takeFirst_none.2 (by simpa using fun m hm (hn : m = n) => h (hn ▸ hm))
    simp only [blockControlArrival, this]
    exact .refl _

theorem takeOffer_works (inward : Bool) (cls : Nat) (hs : (s.section_ x).state = .blocked) :
    (s.section_ x).Works ((takeOffer x inward cls s).section_ x) := by
  rw [takeOffer, enterSec_section]
  show (s.section_ x).Works ((s.section_ x).enter _ _)
  refine .enter (by simp [hs, SecState.worked]) (by cases inward <;> simp [SecState.worked]) fun h =>
    h.enter_new (by simp [hs, SecState.holdsNone]) (by cases inward <;> rfl) (nextTrain_range _)
      (by cases inward <;> simp [State.newTrain])

theorem crossOffers_works (hs : (s.section_ x).state.worked) :
    (s.section_ x).Works ((crossOffers x s).section_ x) :=
  endSec_works x (s.enter .block (.crossed x)) (.inl rfl) _ hs

variable {x s} in
theorem outCodeResult_works {c : Classification} {t : State} (h : outCodeResult x c s = some t) :
    (s.section_ x).Works (t.section_ x) := by
  unfold outCodeResult at h
  split at h
  · cases h
    exact takeOffer_works x s _ _ ‹_›
  · rename_i hs
    cases h
    exact crossOffers_works x s (by simp [hs, SecState.worked])
  · rename_i hs
    cases h
    exact endSec_works x s (.inl rfl) _ (by simp [hs, SecState.worked])
  · cases h

/-- What CLEAR_IN has heard, of the two messages one at most. -/
theorem heard_works {k : SectionData} (hs : k.state = .clearIn) {cancel entering : Bool}
    (h : ¬(cancel = true ∧ entering = true)) : k.Works { k with cancelHeard := cancel, enteringHeard := entering } := by
  refine ⟨fun hk => ?_, rfl, .inl rfl⟩
  obtain ⟨hdrive, hrelease, -, -, htimer, htrain, hrecord, hreleases⟩ := hk
  exact ⟨hdrive, hrelease, fun _ => hs, h, htimer, htrain, hrecord, hreleases⟩

variable {x s} in
theorem inCodeResult_works {c : Classification} {t : State} (h : inCodeResult x c s = some t) :
    (s.section_ x).Works (t.section_ x) := by
  unfold inCodeResult at h
  dsimp only at h
  split at h
  · cases h
    exact takeOffer_works x s _ _ ‹_›
  · rename_i hs
    cases h
    exact crossOffers_works x s (by simp [hs, SecState.worked])
  · rename_i hs
    cases h
    exact endSec_works x s (.inl rfl) _ (by simp [hs, SecState.worked])
  · rename_i hs
    split at h
    · cases h
    · cases h
      rw [State.section_setSection, if_pos rfl]
      exact heard_works hs (by simp [*])
  · rename_i hs
    split at h
    · cases h
    · cases h
      rw [State.section_setSection, if_pos rfl]
      exact heard_works hs (by simp)
  · cases h

/-- What a code does, if it acts, and its mark. -/
theorem getD_works {u : State} {r : Option State} (hu : u.section_ x = s.section_ x)
    (h : ∀ t, r = some t → (u.section_ x).Works (t.section_ x)) : (s.section_ x).Works ((r.getD u).section_ x) := by
  cases r with
  | none => exact hu ▸ .refl _
  | some t => exact hu ▸ h t rfl

theorem outCodeTaken_works : (s.section_ x).Works ((outCodeTaken x s).section_ x) := by
  simp only [outCodeTaken]
  split
  · exact .refl _
  · rename_i h u hu
    have hk : u.section_ x = s.section_ x := by
      obtain ⟨rest, -, -, rfl⟩ := takeCode_some x s hu
      rfl
    have hw := getD_works x s hk fun t => outCodeResult_works (c := h.code.cls)
    rw [setMark_section]
    exact hw.trans ⟨id, rfl, .inl rfl⟩

theorem inCodeTaken_works : (s.section_ x).Works ((inCodeTaken x s).section_ x) := by
  simp only [inCodeTaken]
  split
  · exact .refl _
  · rename_i h u hu
    have hk : u.section_ x = s.section_ x := by
      obtain ⟨rest, -, -, rfl⟩ := takeCode_some x s hu
      rfl
    have hw := getD_works x s (r := if h.dir = .incoming then inCodeResult x h.code.cls u else none) hk fun t ht => by
      split at ht
      · exact inCodeResult_works ht
      · cases ht
    rw [setMark_section]
    exact hw.trans ⟨id, rfl, .inl rfl⟩

theorem countRelease_le {n : Nat} (h : n ≤ Config.maxReleases) : countRelease n ≤ Config.maxReleases := by
  unfold countRelease
  split
  · omega
  · exact h

theorem releasePlungerPress_works : (s.section_ x).Works ((releasePlungerPress x s).section_ x) := by
  simp only [releasePlungerPress]
  split
  · exact .refl _
  · simp only [pressPlunger]
    split
    · rename_i hm
      rw [State.enter_section_, State.section_setSection, if_pos rfl]
      refine ⟨fun hk => ?_, rfl, .inl rfl⟩
      obtain ⟨hdrive, hrelease, hheard, hone, -, htrain, hrecord, hreleases⟩ := hk
      exact ⟨hdrive, hrelease, hheard, hone, fun _ => ((mayRelease_iff _).1 hm).1, htrain, hrecord,
        countRelease_le hreleases⟩
    · exact .refl _

theorem emergencyTimerExpiry_works : (s.section_ x).Works ((emergencyTimerExpiry x s).section_ x) := by
  cases hd : (s.section_ x).timer with
  | none =>
    simp only [emergencyTimerExpiry, hd]
    exact .refl _
  | some d =>
    rw [emergencyTimerExpiry_section hd]
    split
    · refine ⟨fun hk => ?_, rfl, .inl rfl⟩
      obtain ⟨hdrive, hrelease, hheard, hone, htimer, htrain, hrecord, hreleases⟩ := hk
      exact ⟨hdrive, hrelease, hheard, hone, fun _ => htimer (by simp [hd]), htrain, hrecord, hreleases⟩
    · exact .refl _

/-- A scan sets positions only. -/
theorem scanContacts_works (made : List Contact) : (s.section_ x).Works ((scanContacts made s).section_ x) := by
  have hp : ∀ (a b : SwitchContacts) (k : SectionData), k.Works (takePosition a b k) := fun a b k => by
    obtain h | ⟨-, -, h⟩ := takePosition_cases a b k <;> rw [h]
    · exact .refl k
    · exact ⟨id, rfl, .inl rfl⟩
  simp only [scanContacts]
  split
  · exact .refl _
  · cases x <;> exact hp _ _ _

end

/-! #### Switching out and in, WITHDRAW and START -/

theorem endSec_section (x z : Sec) (st : SecState) (o : TrainEnd) (s : State) :
    (endSec x st o s).section_ z = if z = x then (s.section_ x).enter st none else s.section_ z := by
  by_cases h : z = x
  · rw [if_pos h, h, endSec, enterSec_section]
  · rw [if_neg h, endSec, enterSec_section_ne h]

theorem enterLoaded_each_section (st : SecState) (x : Sec) (s : State) :
    (enterLoaded st .c (enterLoaded st .b (enterLoaded st .a s))).section_ x =
      if (s.section_ x).record.isSome = true then (s.section_ x).enter st none else s.section_ x := by
  cases x <;> simp [enterLoaded_section]

theorem repeatReading_section (p z : Sec) (s : State) : (repeatReading p s).section_ z =
    if p.throughPair = some z then { s.section_ z with drive := repeated (s.section_ p).reading } else s.section_ z := by
  unfold repeatReading
  split
  · rename_i q hq
    rw [State.section_setSection]
    by_cases h : z = q
    · subst h
      rw [if_pos rfl, if_pos hq]
    · rw [if_neg h, if_neg (by rw [hq]; simpa using Ne.symm h)]
  · rename_i hq
    rw [if_neg (by simp [hq])]

section
variable {k : SectionData} {x : Sec}

/-- A THROUGH section agrees with its state whatever it drives (R96, R124). -/
theorem SectionData.ok.drives (h : k.ok) (hs : k.state = .through) (i : Ind) : { k with drive := i }.ok :=
  ⟨fun hne => absurd hs hne, h.2⟩

/-- A loaded section closed; one with no record is CLOSED already. -/
theorem SectionData.okIn.closes (h : k.okIn .inService x) :
    (if k.record.isSome = true then k.enter .closed none else k).ok ∧
      (if k.record.isSome = true then k.enter .closed none else k).state = .closed := by
  obtain ⟨hok, -, hclosed⟩ := h
  split
  · exact ⟨hok.enter_none rfl, rfl⟩
  · exact ⟨hok, hclosed.2 (by simpa using ‹¬k.record.isSome = true›)⟩

/-- At switching in a loaded section is BLOCKED; one with no record is C, and CLOSED already. -/
theorem SectionData.okIn.blocks (h : k.okIn .switchedOut x) :
    (if k.record.isSome = true then k.enter .blocked none else k).okIn .inService x := by
  obtain ⟨hok, hfits⟩ := h
  simp only [SectionData.fitsIn] at hfits
  split
  · rename_i hr
    refine ⟨hok.enter_none rfl, by simp [SectionData.enter], ?_⟩
    simpa [SectionData.enter, ← Option.isSome_iff_ne_none] using hr
  · rename_i hr
    split at hfits
    · exact ⟨hok, by simp [hfits], by simpa [hfits] using hr⟩
    · exact absurd hfits.2 hr

end

section
variable {s : State}

/-- The repeat of a reading changes the drive of a THROUGH section. -/
theorem repeatReading_okIn (p : Sec) (h : ∀ x, (s.section_ x).okIn .switchedOut x) (x : Sec) :
    ((repeatReading p s).section_ x).okIn .switchedOut x := by
  rw [repeatReading_section]
  split
  · rename_i hp
    obtain ⟨hok, hfits⟩ := h x
    have ht := hfits
    simp only [SectionData.fitsIn, if_neg (throughPair_ne_c hp)] at ht
    exact ⟨hok.drives ht.1 _, hfits⟩
  · exact h x

theorem repeatReading_record (p x : Sec) (s : State) :
    ((repeatReading p s).section_ x).record = (s.section_ x).record := by
  rw [repeatReading_section]
  split <;> rfl

theorem clearMarks_section (x : Sec) (s : State) : (clearMarks s).section_ x = s.section_ x :=
  clearMarks_leaves s (.section_ x) (by simp)

theorem cutRepeat_section (p x : Sec) (s : State) : (cutRepeat p s).section_ x = s.section_ x :=
  cutRepeat_leaves p s (.section_ x) (by simp [portAndPair])

/-- At switching out A and B, which are loaded, enter THROUGH, and C is closed (R121). -/
theorem enterSwitchedOut_okIn (h : ∀ x, (s.section_ x).okIn .inService x)
    (hr : ∀ x, x ≠ .c → (s.section_ x).record.isSome = true) (x : Sec) :
    ((enterSwitchedOut s).section_ x).okIn .switchedOut x ∧
      ((enterSwitchedOut s).section_ x).record = (s.section_ x).record := by
  simp only [enterSwitchedOut, State.enter_section_, State.setService_section_, clearMarks_section, cutTapper_section,
    repeatReading_record]
  generalize hu : enterLoaded .closed .c _ = u
  have hloaded : ∀ y, y ≠ .c → u.section_ y = (s.section_ y).enter .through none := fun y hy => by
    cases y <;> simp_all [← hu, enterLoaded_section, endSec_section]
  have hc : u.section_ .c = if (s.section_ .c).record.isSome = true then (s.section_ .c).enter .closed none
      else s.section_ .c := by
    simp [← hu, enterLoaded_section, endSec_section]
  refine ⟨repeatReading_okIn .b (repeatReading_okIn .a fun y => ?_) x, ?_⟩
  · by_cases hy : y = .c
    · subst hy
      rw [hc]
      exact (h .c).closes
    · rw [hloaded y hy]
      exact ⟨(h y).1.enter_none rfl, by simp [SectionData.fitsIn, hy, SectionData.enter, hr y hy]⟩
  · by_cases hx : x = .c
    · subst hx
      rw [hc]
      split <;> rfl
    · rw [hloaded x hx]
      rfl

/-- At switching in every loaded section is BLOCKED (R125). -/
theorem enterSwitchedIn_okIn (h : ∀ x, (s.section_ x).okIn .switchedOut x) (x : Sec) :
    ((enterSwitchedIn s).section_ x).okIn .inService x ∧
      ((enterSwitchedIn s).section_ x).record = (s.section_ x).record := by
  simp only [enterSwitchedIn, State.enter_section_, State.setService_section_, clearMarks_section, cutRepeat_section,
    enterLoaded_each_section]
  refine ⟨(h x).blocks, ?_⟩
  split <;> rfl

/-- At WITHDRAW every loaded section is closed (R166). -/
theorem leaveService_okIn (h : ∀ x, (s.section_ x).okIn .inService x) (x : Sec) :
    ((leaveService s).section_ x).okIn .configure x ∧
      ((leaveService s).section_ x).record = (s.section_ x).record := by
  simp only [leaveService, State.enter_section_, State.setService_section_, cutTapper_section, enterLoaded_each_section]
  refine ⟨(h x).closes, ?_⟩
  split <;> rfl

/-- The entry decision of START, on a section that was CLOSED (R165). -/
theorem startSection_okIn {x : Sec} (h : (s.section_ x).okIn .configure x) :
    ((startSection x s).section_ x).okIn .inService x ∧
      ((startSection x s).section_ x).record = (s.section_ x).record := by
  obtain ⟨hok, hclosed⟩ := h
  have hclosed : (s.section_ x).state = .closed := hclosed
  by_cases hr : (s.section_ x).record = none
  · rw [startSection_noRecord x s hr]
    exact ⟨⟨hok, by simp [SectionData.fitsIn, hclosed, hr]⟩, rfl⟩
  have entered : ∀ {k : SectionData}, k.ok → k.state.worked → k.record = (s.section_ x).record →
      k.okIn .inService x ∧ k.record = (s.section_ x).record := fun hk ⟨hc, ht⟩ hrec =>
    ⟨⟨hk, ht, by simp [hc, hrec, hr]⟩, hrec⟩
  have created : ∀ {st : SecState} {tr : Train}, tr.ident = nextTrain s.lastTrain →
      st = .enteredIn ∧ tr.inward = true ∨ st = .enteredOut ∧ tr.inward = false →
      ((s.section_ x).enter st (some tr)).ok := by
    intro st tr hid hst
    have hrange := nextTrain_range s.lastTrain
    obtain ⟨rfl, hin⟩ | ⟨rfl, hin⟩ := hst <;>
      exact hok.enter_new (by rw [hclosed]; rfl) rfl (hid ▸ hrange) (by simp [hin])
  by_cases hp : (s.section_ x).position = .tol
  · obtain ⟨clear, he⟩ := startSection_atTol x s hr hp
    rw [he]
    exact entered (created rfl (.inl ⟨rfl, rfl⟩)) (by simp [SectionData.enter, SecState.worked]) rfl
  · rw [startSection_section x s hr hp]
    split
    · exact entered (hok.enter_none rfl) (by simp [SectionData.enter, SecState.worked]) rfl
    · split
      · exact entered (hok.enter_none rfl) (by simp [SectionData.enter, SecState.worked]) rfl
      · split
        · exact entered (created rfl (.inr ⟨rfl, rfl⟩)) (by simp [SectionData.enter, SecState.worked]) rfl
        · exact entered (hok.enter_none rfl) (by simp [SectionData.enter, SecState.worked]) rfl

/-- START takes the entry decision of each section (R165). -/
theorem enterService_okIn (h : ∀ x, (s.section_ x).okIn .configure x) (x : Sec) :
    ((enterService s).section_ x).okIn .inService x ∧
      ((enterService s).section_ x).record = (s.section_ x).record := by
  rw [enterService_eq]
  simp only [← beginService_section s] at h ⊢
  generalize beginService s = u at h ⊢
  have hx := h x
  cases x with
  | a =>
    rw [startSection_section_ne _ _ (by simp), startSection_section_ne _ _ (by simp)]
    exact startSection_okIn hx
  | b =>
    rw [← startSection_section_ne .a u (by simp)] at hx ⊢
    rw [startSection_section_ne _ _ (by simp)]
    exact startSection_okIn hx
  | c =>
    rw [← startSection_section_ne .a u (by simp), ← startSection_section_ne .b (startSection .a u) (by simp)] at hx ⊢
    exact startSection_okIn hx

end

/-! #### Every command -/

/-- What a command makes of sections that agree with their states: they agree as before, with the service state after it,
and their records change in CONFIGURE only. -/
def SectionsKept (s t : State) : Prop :=
  s.sectionsOk → (∀ x, (t.section_ x).okIn t.service.state x) ∧
    (s.service.state ≠ .configure → ∀ x, (t.section_ x).record = (s.section_ x).record)

section
variable {c : Instr} {s t : State}

theorem SectionsKept.of_works (hv : t.service.state = s.service.state)
    (h : ∀ x, (s.section_ x).Works (t.section_ x)) : SectionsKept s t := fun hs =>
  ⟨fun x => hv ▸ (h x).okIn (hs.1 x), fun _ x => (h x).record⟩

theorem SectionsKept.of_same (hv : t.service.state = s.service.state) (h : ∀ x, t.section_ x = s.section_ x) :
    SectionsKept s t :=
  .of_works hv fun x => h x ▸ .refl _

/-- A record loaded or erased, in CONFIGURE, where every section is CLOSED. -/
theorem SectionsKept.of_records (hv : t.service.state = s.service.state) (hc : s.service.state = .configure)
    (h : ∀ x, ∃ r, t.section_ x = { s.section_ x with record := r }) : SectionsKept s t := by
  refine fun hs => ⟨fun x => ?_, fun hne => absurd hc hne⟩
  obtain ⟨hok, hfits⟩ := hs.1 x
  obtain ⟨r, hr⟩ := h x
  rw [hv, hc, hr]
  exact ⟨hok, by simpa [SectionData.fitsIn, State.sectionFits, hc] using hfits⟩

theorem SectionsKept.congr {u : State} (h : SectionsKept s t) (hx : ∀ x, u.section_ x = t.section_ x)
    (hv : u.service.state = t.service.state) : SectionsKept s u := by
  simpa only [SectionsKept, hx, hv] using h

theorem SectionsKept.reply {ws : List Text} (h : SectionsKept s t) : SectionsKept s (reply ws t) := h

/-- A request makes of the sections what its accepted handling makes of them. -/
theorem requestStep_sectionsKept {row : Instr} {accept : ServiceState → Bool} {f : Handler}
    (hf : ∀ ws t r, accept s.service.state = true → f ws s = .ok (t, r) → SectionsKept s t) :
    SectionsKept s (requestStep row accept f s) :=
  requestStep_keeps (P := SectionsKept s) (.of_same rfl fun _ => rfl) (fun ws t r _ => hf ws t r)
    fun _ _ h => h.reply

theorem throughIndicatorRepeat_sectionsKept (p : Sec) (s : State) : SectionsKept s (throughIndicatorRepeat p s) := by
  simp only [throughIndicatorRepeat]
  split
  · exact .of_same rfl fun _ => rfl
  · split
    · rename_i hv
      generalize hu : State.setInbox _ _ = u
      have hk : ∀ x, u.section_ x = s.section_ x := fun x => by rw [← hu]; rfl
      have hservice : (repeatReading p u).service.state = s.service.state := by
        rw [show (repeatReading p u).service.state = u.service.state from
          repeatReading_leaves p u .serviceState (by simp), ← hu]
        rfl
      have hv : s.service.state = .switchedOut := by simpa [State.isIn] using hv
      refine fun hs => ⟨fun x => ?_, fun _ x => by rw [repeatReading_record, hk]⟩
      rw [hservice, hv]
      exact repeatReading_okIn p (fun y => by rw [hk, ← hv]; exact hs.1 y) x
    · exact .of_same rfl fun _ => rfl

theorem completeInit_sectionsKept (s : State) : SectionsKept s (completeInit s) := by
  unfold completeInit
  split
  · rename_i hp
    have hv : s.service.state = .powerUp := by simp_all [State.isIn]
    have hk : ∀ x, (initialise s).section_ x = s.section_ x := fun x => by simp only [initialise, State.section_]
    refine fun hs => ⟨fun x => ?_, fun _ x => by rw [hk]⟩
    obtain ⟨hok, hfits⟩ := hs.1 x
    rw [hk, show (initialise s).service.state = .configure by simp only [initialise]]
    exact ⟨hok, by simpa [SectionData.fitsIn, State.sectionFits, hv] using hfits⟩
  · exact .of_same rfl fun _ => rfl

/-- The test of R120 passed: a list of switch-out terms stands. -/
theorem boxout_of_switchOut (h : s.switchOutRefusal = none) : s.service.boxout.isSome = true := by
  have := firstRefusal_none.1 h s.refuseNoList (by simp)
  unfold State.refuseNoList at this
  split at this
  · cases this
  · simp [*]

theorem turnOut_sectionsKept (s : State) : SectionsKept s (turnOut s) := by
  unfold turnOut
  split
  · exact .of_same rfl fun _ => rfl
  · exact .of_same rfl fun _ => rfl
  · exact .of_same rfl fun _ => rfl
  · rename_i hv
    split
    · exact .of_same rfl fun _ => rfl
    · rename_i hr
      rintro ⟨hsec, hbox, -⟩
      obtain ⟨ha, hb⟩ := hbox (.inl hv) (boxout_of_switchOut hr)
      have hout := enterSwitchedOut_okIn (s := s) (fun x => hv ▸ hsec x) fun x hx => by
        cases x with
        | a => exact ha
        | b => exact hb
        | c => exact absurd rfl hx
      rw [show (enterSwitchedOut s).service.state = .switchedOut from rfl]
      exact ⟨fun x => (hout x).1, fun _ x => (hout x).2⟩

theorem turnIn_sectionsKept (s : State) : SectionsKept s (turnIn s) := by
  unfold turnIn
  split
  · exact .of_same rfl fun _ => rfl
  · exact .of_same rfl fun _ => rfl
  · exact .of_same rfl fun _ => rfl
  · rename_i hv
    split
    · exact .of_same rfl fun _ => rfl
    · rintro ⟨hsec, -⟩
      have hin := enterSwitchedIn_okIn (s := s) fun x => hv ▸ hsec x
      rw [show (enterSwitchedIn s).service.state = .inService from rfl]
      exact ⟨fun x => (hin x).1, fun _ x => (hin x).2⟩

/-- The arrival of the box switch taken, and its position, are no part of the agreement. -/
theorem SectionsKept.of_takeBox {b : BoxPos} {u : State} (hu : takeBox b s = some u) (h : SectionsKept u t) :
    SectionsKept s t := by
  obtain ⟨rest, -, rfl⟩ := takeBox_some s hu
  exact h

theorem arrivalAtOut_sectionsKept (s : State) : SectionsKept s (arrivalAtOut s) := by
  simp only [arrivalAtOut]
  split
  · exact .of_same rfl fun _ => rfl
  · exact .of_takeBox ‹_› (turnOut_sectionsKept _)

theorem arrivalAtIn_sectionsKept (s : State) : SectionsKept s (arrivalAtIn s) := by
  simp only [arrivalAtIn]
  split
  · exact .of_same rfl fun _ => rfl
  · exact .of_takeBox ‹_› (turnIn_sectionsKept _)

theorem withdraw_sectionsKept (s : State) : SectionsKept s (requestStep .withdraw inService handleWithdraw s) := by
  refine requestStep_sectionsKept fun ws t r ha ht => ?_
  obtain ⟨-, rfl⟩ := handleWithdraw_ok ht
  have hv : s.service.state = .inService := by simpa [inService] using ha
  refine fun hs => ?_
  have hleave := leaveService_okIn fun x => show (s.section_ x).okIn .inService x from hv ▸ hs.1 x
  exact ⟨fun x => (hleave x).1, fun _ x => (hleave x).2⟩

theorem start_sectionsKept (s : State) : SectionsKept s (requestStep .start inConfigure handleStart s) := by
  refine requestStep_sectionsKept fun ws t r ha ht => ?_
  obtain rfl := handleStart_ok ht
  have hv : s.service.state = .configure := by simpa [inConfigure] using ha
  refine fun hs => ?_
  have hstart := enterService_okIn fun x => show (s.section_ x).okIn .configure x from hv ▸ hs.1 x
  exact ⟨fun x => enterService_state s ▸ (hstart x).1, fun _ x => (hstart x).2⟩

/-- Every command but a reset keeps the sections in agreement, and their records outside CONFIGURE. -/
theorem exec_sectionsKept (hc : ∀ b, c ≠ .reset b ∧ c ≠ .restartPowerUp b) (h : exec c s = .next t) :
    SectionsKept s t := by
  have own : ∀ {u : State}, exec c s = .next (commit s u) → SectionsKept s u → SectionsKept s t := fun hu hk => by
    cases hu.symm.trans h
    exact hk.congr (fun _ => rfl) rfl
  have all : ∀ {u : State}, exec c s = .next (commit s u) → .serviceState ∉ writes c →
      (∀ x, (s.section_ x).Works (u.section_ x)) → SectionsKept s t := fun {u} hu hv hw => by
    refine .of_works (exec_serviceState hc h hv) fun x => ?_
    cases hu.symm.trans h
    rw [commit_section]
    exact hw x
  have one : ∀ {u : State} (y : Sec), exec c s = .next (commit s u) → (∀ x, x ≠ y → .section_ x ∉ writes c) →
      .serviceState ∉ writes c → (s.section_ y).Works (u.section_ y) → SectionsKept s t := fun {u} y hu hx hv hw => by
    refine .of_works (exec_serviceState hc h hv) fun x => ?_
    by_cases hxy : x = y
    · subst hxy
      cases hu.symm.trans h
      rw [commit_section]
      exact hw
    · rw [exec_section hc h (hx x hxy)]
      exact .refl _
  by_cases hw : (∀ x, .section_ x ∉ writes c) ∧ .serviceState ∉ writes c
  · exact .of_same (exec_serviceState hc h hw.2) fun x => exec_section hc h (hw.1 x)
  cases c with
  | outCodeTaken x => exact one x rfl (by simp [writes]) (by simp [writes]) (outCodeTaken_works x s)
  | inCodeTaken x => exact one x rfl (by simp [writes]) (by simp [writes]) (inCodeTaken_works x s)
  | indicatorSample x cls => exact one x rfl (by simp [writes]) (by simp [writes]) (indicatorSample_works x s cls)
  | indicatorSettled x => exact one x rfl (by simp [writes]) (by simp [writes]) (indicatorSettled_works x s)
  | unsettledTimeout x => exact one x rfl (by simp [writes]) (by simp [writes]) (unsettledTimeout_works x s)
  | arrivalAtLC x => exact one x rfl (by simp [writes]) (by simp [writes]) (arrivalAtLC_works x s)
  | arrivalAtTOL x => exact one x rfl (by simp [writes]) (by simp [writes]) (arrivalAtTOL_works x s)
  | arrivalAtLB x => exact one x rfl (by simp [writes]) (by simp [writes]) (arrivalAtLB_works x s)
  | autoTol x => exact one x rfl (by simp [writes]) (by simp [writes]) (autoTol_works x s)
  | progressCheck x => exact one x rfl (by simp [writes]) (by simp [writes]) (takeProgress_works x s)
  | releasePlungerPress x => exact one x rfl (by simp [writes]) (by simp [writes]) (releasePlungerPress_works x s)
  | emergencyTimerExpiry x => exact one x rfl (by simp [writes]) (by simp [writes]) (emergencyTimerExpiry_works x s)
  | contactScan made => exact all rfl (by simp [writes, everySection]) fun x => scanContacts_works x s made
  | blockControlArrival n => exact all rfl (by simp [writes, everySection]) fun x => blockControlArrival_works x s n
  | throughIndicatorRepeat p => exact own rfl (throughIndicatorRepeat_sectionsKept p s)
  | initialisationComplete => exact own rfl (completeInit_sectionsKept s)
  | arrivalAtOut => exact own rfl (arrivalAtOut_sectionsKept s)
  | arrivalAtIn => exact own rfl (arrivalAtIn_sectionsKept s)
  | withdraw => exact own rfl (withdraw_sectionsKept s)
  | sec =>
    refine own rfl (requestStep_sectionsKept fun ws t r ha ht => ?_)
    obtain ⟨y, rec_, rfl⟩ := handleSec_ok ht
    refine .of_records rfl (by simpa [inConfigure] using ha) fun x => ?_
    rw [storeSec, State.section_setSection]
    split
    · rename_i hx
      exact ⟨some rec_, by rw [hx]⟩
    · exact ⟨(s.section_ x).record, rfl⟩
  | eraseSec =>
    refine own rfl (requestStep_sectionsKept fun ws t r ha ht => ?_)
    obtain rfl := handleErase_ok ht
    exact .of_records rfl (by simpa [inConfigure] using ha) fun x => ⟨none, eraseSections_section s x⟩
  | start =>
    cases h
    obtain ⟨is, he⟩ := clearChangesAtStart_eq (s := s) (commit s (requestStep .start inConfigure handleStart s))
    have hk := start_sectionsKept s
    generalize requestStep .start inConfigure handleStart s = u at he hk ⊢
    exact hk.congr (fun x => by rw [he, State.setInbox_section_, commit_section]) (by rw [he]; rfl)
  | _ => exact absurd (by simp [writes, portAndPair, lineParts, everyLever]) hw

/-! #### The switch-out list and the train ids -/

/-- The switch-out list is loaded and erased in CONFIGURE only (R117). -/
theorem exec_boxout (hc : ∀ b, c ≠ .reset b ∧ c ≠ .restartPowerUp b) (h : exec c s = .next t)
    (hv : s.service.state ≠ .configure) : t.service.boxout = s.service.boxout := by
  have refused : ∀ {row : Instr} {f : Handler},
      (requestStep row inConfigure f s).service.boxout = s.service.boxout := fun {row f} =>
    requestStep_keeps (P := fun u => u.service.boxout = s.service.boxout) rfl
      (fun _ _ _ _ ha _ => absurd (by simpa [inConfigure] using ha) hv) fun _ _ h => h
  by_cases hb : .boxout ∉ writes c
  · exact exec_keeps hc h .boxout hb
  cases c with
  | boxout | eraseBoxout =>
    cases h
    rw [commit_service]
    exact refused
  | _ => exact absurd hb (by simp [writes, portAndPair, lineParts, everyLever, everySection])

/-- Service is entered from CONFIGURE by START only. -/
theorem service_before (hc : ∀ b, c ≠ .reset b ∧ c ≠ .restartPowerUp b) (h : exec c s = .next t)
    (ht : t.service.state = .inService ∨ t.service.state = .switchedOut) :
    s.service.state = .inService ∨ s.service.state = .switchedOut ∨ c = .start := by
  have same : t.service.state = s.service.state →
      s.service.state = .inService ∨ s.service.state = .switchedOut ∨ c = .start := fun he => by
    rw [he] at ht
    exact ht.imp id .inl
  by_cases hv : .serviceState ∉ writes c
  · exact same (exec_serviceState hc h hv)
  cases c with
  | initialisationComplete =>
    cases h
    simp only [commit_service, completeInit] at ht same
    split at ht
    · simp [initialise] at ht
    · exact ht.imp id .inl
  | start => exact .inr (.inr rfl)
  | arrivalAtOut =>
    cases h
    obtain ⟨he, -⟩ | ⟨hv, -⟩ := arrivalAtOut_ports s
    · exact same he
    · exact .inl hv
  | arrivalAtIn =>
    cases h
    obtain ⟨he, -⟩ | ⟨hv, -⟩ := arrivalAtIn_ports s
    · exact same he
    · exact .inr (.inl hv)
  | withdraw =>
    cases h
    obtain ⟨he, -⟩ | ⟨hv, -⟩ := withdraw_ports s
    · exact same he
    · exact .inl hv
  | _ => exact absurd hv (by simp [writes, everySection, portAndPair, lineParts, everyLever])

/-- An accepted START has passed the checks. -/
theorem handleStart_checked {ws r : List Text} (h : handleStart ws s = .ok (t, r)) : s.configError = none := by
  simp only [handleStart, parsed_bind_ok] at h
  obtain ⟨v, -, h⟩ := h
  split at h
  · cases h
  · assumption

theorem boxoutFits_congr (hx : ∀ x, t.section_ x = s.section_ x) (hv : t.service = s.service) (h : s.boxoutFits) :
    t.boxoutFits := by
  simpa only [State.boxoutFits, hx, hv] using h

/-- START enters service with the sections of the switch-out list loaded (R162). -/
theorem exec_start_boxoutFits (hs : s.sectionsOk) (h : exec .start s = .next t) : t.boxoutFits := by
  cases h
  obtain ⟨is, he⟩ := clearChangesAtStart_eq (s := s) (commit s (requestStep .start inConfigure handleStart s))
  have hstep : (requestStep .start inConfigure handleStart s).boxoutFits := by
    refine requestStep_keeps (P := State.boxoutFits) hs.2.1 (fun ws u r _ ha hu => ?_) fun _ _ h => h
    have hchecked := handleStart_checked hu
    obtain rfl := handleStart_ok hu
    obtain ⟨-, -, -, -, ⟨-, hloaded⟩, -⟩ := configError_none_iff.1 hchecked
    have hv : s.service.state = .configure := by simpa [inConfigure] using ha
    have hrec := fun x => (enterService_okIn (fun y => show (s.section_ y).okIn .configure y from hv ▸ hs.1 y) x).2
    have hbox : (enterService s).service.boxout = s.service.boxout :=
      enterService_leaves s .boxout (by simp [startParts, writes, lineParts, everyLever, everySection])
    intro _ hsome
    rw [hbox] at hsome
    obtain ⟨hla, hlb⟩ := hloaded (Option.isSome_iff_ne_none.1 hsome)
    rw [hrec, hrec]
    exact ⟨Option.isSome_iff_ne_none.2 hla, Option.isSome_iff_ne_none.2 hlb⟩
  generalize requestStep .start inConfigure handleStart s = u at he hstep
  refine boxoutFits_congr (fun x => ?_) ?_ hstep
  · rw [he, State.setInbox_section_, commit_section]
  · rw [he, State.setInbox_service, commit_service]

/-- In service a switch-out list means that A and B are loaded, after every command. -/
theorem exec_boxoutFits (hs : s.sectionsOk) (hc : ∀ b, c ≠ .reset b ∧ c ≠ .restartPowerUp b) (h : exec c s = .next t) :
    t.boxoutFits := by
  intro ht hsome
  by_cases hstart : c = .start
  · subst hstart
    exact exec_start_boxoutFits hs h ht hsome
  · have hv : s.service.state = .inService ∨ s.service.state = .switchedOut :=
      (service_before hc h ht).imp id fun h => h.resolve_right hstart
    have hne : s.service.state ≠ .configure := by obtain hv | hv := hv <;> simp [hv]
    have hrec := (exec_sectionsKept hc h hs).2 hne
    rw [hrec, hrec]
    exact hs.2.1 hv (exec_boxout hc h hne ▸ hsome)

theorem startSection_lastTrain (x : Sec) (h : s.lastTrain ≤ Config.maxTrainId) :
    (startSection x s).lastTrain ≤ Config.maxTrainId := by
  have hnext := (nextTrain_range s.lastTrain).2
  have hcheck : ∀ u, (progressCheck x u).lastTrain = u.lastTrain := fun u => progressCheck_leaves x u .lastTrain (by simp)
  simp only [startSection]
  split
  · exact h
  · split
    · rw [hcheck]
      exact hnext
    · exact h
    · exact h
    · exact hnext
    · exact h

theorem outCodeResult_lastTrain {x : Sec} {k : Classification} (h : outCodeResult x k s = some t)
    (hs : s.lastTrain ≤ Config.maxTrainId) : t.lastTrain ≤ Config.maxTrainId := by
  unfold outCodeResult at h
  split at h
  · cases h
    exact (nextTrain_range _).2
  · cases h
    exact hs
  · cases h
    exact hs
  · cases h

theorem inCodeResult_lastTrain {x : Sec} {k : Classification} (h : inCodeResult x k s = some t)
    (hs : s.lastTrain ≤ Config.maxTrainId) : t.lastTrain ≤ Config.maxTrainId := by
  unfold inCodeResult at h
  dsimp only at h
  split at h
  · cases h
    exact (nextTrain_range _).2
  · cases h
    exact hs
  · cases h
    exact hs
  · split at h
    · cases h
    · cases h
      exact hs
  · split at h
    · cases h
    · cases h
      exact hs
  · cases h

/-- The last train id given is in range after every command. -/
theorem exec_lastTrain (hc : ∀ b, c ≠ .reset b ∧ c ≠ .restartPowerUp b) (h : exec c s = .next t)
    (hs : s.lastTrain ≤ Config.maxTrainId) : t.lastTrain ≤ Config.maxTrainId := by
  by_cases hl : .lastTrain ∉ writes c
  · rw [show t.lastTrain = s.lastTrain from exec_keeps hc h .lastTrain hl]
    exact hs
  have marked : ∀ {x : Sec} {u : State} {r : Option State} {k : SectionData} {m : Option Mark},
      u.lastTrain ≤ Config.maxTrainId → (∀ w, r = some w → w.lastTrain ≤ Config.maxTrainId) →
      ((r.getD u).setMark x k m).lastTrain ≤ Config.maxTrainId := fun {x u r k m} hu hw => by
    cases r with
    | none => exact hu
    | some w => exact hw w rfl
  cases c with
  | outCodeTaken x =>
    cases h
    rw [commit_lastTrain, outCodeTaken]
    split
    · exact hs
    · rename_i g u hu
      have hus : u.lastTrain ≤ Config.maxTrainId := by
        obtain ⟨rest, -, -, rfl⟩ := takeCode_some x s hu
        exact hs
      exact marked hus fun w hw => outCodeResult_lastTrain hw hus
  | inCodeTaken x =>
    cases h
    rw [commit_lastTrain, inCodeTaken]
    split
    · exact hs
    · rename_i g u hu
      have hus : u.lastTrain ≤ Config.maxTrainId := by
        obtain ⟨rest, -, -, rfl⟩ := takeCode_some x s hu
        exact hs
      refine marked hus fun w hw => ?_
      split at hw
      · exact inCodeResult_lastTrain hw hus
      · cases hw
  | start =>
    cases h
    obtain ⟨is, he⟩ := clearChangesAtStart_eq (s := s) (commit s (requestStep .start inConfigure handleStart s))
    rw [he, State.setInbox_lastTrain, commit_lastTrain]
    refine requestStep_keeps (P := fun u => u.lastTrain ≤ Config.maxTrainId) hs (fun ws u r _ _ hu => ?_) fun _ _ h => h
    obtain rfl := handleStart_ok hu
    rw [enterService_eq]
    refine startSection_lastTrain _ (startSection_lastTrain _ (startSection_lastTrain _ ?_))
    simpa only [beginService, State.enter_lastTrain, State.setService_lastTrain, State.report_lastTrain] using hs
  | _ => exact absurd hl (by simp [writes, everySection, portAndPair, lineParts, everyLever])

/-- After a reset every section is CLOSED, with no record. -/
theorem powerUp_sectionsOk (held : Bool) (strap : Fin 4) (s : State) : (powerUp held strap s).sectionsOk :=
  invariantsHoldAtReset.2.1

/-- Every command keeps the sections in agreement with their states. -/
theorem exec_sectionsOk (hs : s.sectionsOk) (h : exec c s = .next t) : t.sectionsOk := by
  by_cases hc : ∀ b, c ≠ .reset b ∧ c ≠ .restartPowerUp b
  · exact (sectionsOk_iff t).2 ⟨(exec_sectionsKept hc h hs).1, exec_boxoutFits hs hc h, exec_lastTrain hc h hs.2.2⟩
  · cases c with
    | reset b =>
      cases h
      exact powerUp_sectionsOk true b s
    | restartPowerUp b =>
      cases h
      split
      · exact powerUp_sectionsOk false b s
      · exact hs
    | _ => exact absurd (fun b => ⟨by simp, by simp⟩) hc

end

/-- Settles O58: what the Block unit makes of a section keeps it in agreement, and a change of service state leaves each
section worked as the new state has it. -/
theorem everyStepKeepsSectionsOk : Obligations.EveryStepKeepsSectionsOk := by
  intro s t hs h
  unfold step at h
  split at h
  · cases h
    exact hs
  · rename_i c rest _
    exact exec_sectionsOk (s := { s with pending := rest }) hs h

end Sys2Proof.Machine
end

section
/-! ### The incoming indicator of a section, and what its reading does (R98, R103, R112, R114; O33) -/

namespace Sys2Proof.Machine

/-! #### The sample and the settling (R98) -/

section
variable {x : Sec} {s : State} {c : Ind} {showing : Option (Ind × Nat)} {reading : Option Ind}

theorem indicatorSample_section (cls : IndClass) (hv : s.service.state ≠ .powerUp) :
    (indicatorSample x cls s).section_ x = (s.section_ x).sampled s.now cls := by
  simp [indicatorSample, State.isIn, hv]

/-- A class shown without a break goes on being shown since it began. -/
theorem nowShowing_same {since : Nat} (h : showing = some (c, since)) (now : Nat) :
    nowShowing showing now (.valid c) = some (c, since) := by
  simp [nowShowing, h]

theorem nowShowing_begins (h : ∀ since, showing ≠ some (c, since)) (now : Nat) :
    nowShowing showing now (.valid c) = some (c, now) := by
  match showing, h with
  | none, _ => rfl
  | some (d, since), h =>
    have hd : d ≠ c := fun hd => h since (by rw [hd])
    simp [nowShowing, hd]

theorem differs_iff (reading : Option Ind) (cls : IndClass) :
    differs reading cls = true ↔ ∀ c, cls = .valid c → reading ≠ some c := by
  cases cls <;> simp [differs]

end

/-! #### What a change of the reading does (R103) -/

section
variable {x : Sec} {s : State} {reading : Option Ind}

theorem takeReading_gives (hs : (s.section_ x).state = .offerOut) : takeReading x (some .lc) s = enterClearOut x s := by
  simp [takeReading, hs]

theorem takeReading_enters (hs : (s.section_ x).state = .clearOut) : takeReading x (some .tol) s =
    enterSec x .enteredOut ((s.section_ x).train.map (Train.enter s.register.clock)) .void false s := by
  simp [takeReading, hs]

/-- LB ends what stood with the neighbour: the train is complete where it had entered, and cancelled where it had not. -/
theorem takeReading_ends
    (hs : (s.section_ x).state = .clearOut ∨ (s.section_ x).state = .enteredOut ∨ (s.section_ x).state = .unofferedClear) :
    takeReading x (some .lb) s =
      endSec x .blocked (if (s.section_ x).state = .enteredOut then .complete else .cancelled) s := by
  obtain hs | hs | hs := hs <;> simp [takeReading, hs]

theorem takeReading_invalid (hs : (s.section_ x).state = .clearOut) : takeReading x none s =
    noteReading x (s.setSection x { s.section_ x with releaseUnused := false }) := by
  simp [takeReading, hs]

theorem takeReading_unoffered (hs : (s.section_ x).state = .blocked) : takeReading x (some .lc) s =
    endSec x .unofferedClear .cancelled s := by
  simp [takeReading, hs]

theorem takeReading_notes (hs : (s.section_ x).state = .blocked) : takeReading x (some .tol) s = noteReading x s := by
  simp [takeReading, hs]

theorem takeReading_stays (h₁ : ¬((s.section_ x).state = .offerOut ∧ reading = some .lc))
    (h₂ : ¬((s.section_ x).state = .clearOut ∧ reading ≠ some .lc))
    (h₃ : ¬((s.section_ x).state = .enteredOut ∧ reading = some .lb))
    (h₄ : ¬((s.section_ x).state = .unofferedClear ∧ reading = some .lb))
    (h₅ : ¬((s.section_ x).state = .blocked ∧ (reading = some .lc ∨ reading = some .tol))) :
    takeReading x reading s = s := by
  simp only [takeReading]
  split <;> simp_all

/-- The reading, and the unsettled time that has stopped, stand through what the reading does. -/
theorem takeReading_reading (x : Sec) (reading : Option Ind) (s : State) :
    ((takeReading x reading s).section_ x).reading = (s.section_ x).reading ∧
      ((takeReading x reading s).section_ x).unsettled = (s.section_ x).unsettled := by
  simp only [takeReading]
  split <;> simp [enterClearOut_section, endSec, noteReading, SectionData.enter]

theorem takeReading_readings (x : Sec) (reading : Option Ind) (s : State) :
    (takeReading x reading s).inbox.readings = s.inbox.readings :=
  takeReading_leaves x s reading .readings (by simp)

theorem noteReading_section (x z : Sec) (s : State) : (noteReading x s).section_ z = s.section_ z := by
  rw [noteReading, State.enter_section_]

theorem noteReading_entry (x : Sec) (s : State) : (RegUnit.block, RegBody.change x (s.section_ x).state (s.section_ x).state
    ((s.section_ x).train.map (·.ident)) false) ∈ (noteReading x s).inbox.entries := by
  cases hr : (s.section_ x).train <;> simp [noteReading, State.enter, trainIdOf, hr]

/-- A record that the section holds ends with its entry. -/
theorem endSec_entry {r : Train} {st : SecState} (hr : (s.section_ x).train = some r) (hst : st.holdsNone = true)
    (o : TrainEnd) : (RegUnit.block, RegBody.train r.ident x r.inward r.cls o r.offered r.entered) ∈
      (endSec x st o s).inbox.entries := by
  rw [endSec, enterSec_entries]
  simp [sectionEntries, trainEntry, SectionData.enter, hr, hst]

end

/-- `u` is `s` with the reading of `x` changed to `reading` and handed to the Service controller, before the section acts
on it. -/
structure State.Reads (s u : State) (x : Sec) (reading : Option Ind) : Prop where
  section_ : u.section_ x = { s.section_ x with reading := reading, unsettled := none }
  readings : u.inbox.readings = s.inbox.readings ++ [x]
  clock : u.register.clock = s.register.clock

section
variable {x : Sec} {s : State} {reading : Option Ind}

/-- A reading that is the one before only stops the unsettled time. -/
theorem settleReading_same (h : (s.section_ x).reading = reading) :
    settleReading x reading s = s.setSection x { s.section_ x with unsettled := none } := if_pos h

theorem settleReading_changed (h : (s.section_ x).reading ≠ reading) :
    ∃ u, s.Reads u x reading ∧ settleReading x reading s = takeReading x reading u := by
  refine ⟨_, ?_, if_neg h⟩
  exact ⟨by simp, rfl, rfl⟩

/-- What the reading of section `x` does where it changes, by the section's state (R103). -/
def State.ActsOnReading (s t : State) (x : Sec) (new : Option Ind) : Prop :=
  let k := s.section_ x
  (k.state = .offerOut → new = some .lc → (t.section_ x).state = .clearOut ∧
    (t.section_ x).releaseUnused = true ∧ (∀ r, k.train = some r →
      (t.section_ x).train = some { r with stage := .accepted, accepted := some s.register.clock })) ∧
  (k.state = .clearOut → new = some .tol → (t.section_ x).state = .enteredOut ∧
    (t.section_ x).releaseUnused = false ∧ (∀ r, k.train = some r →
      (t.section_ x).train = some { r with stage := .entered, entered := some s.register.clock })) ∧
  (k.state = .clearOut ∨ k.state = .enteredOut ∨ k.state = .unofferedClear → new = some .lb →
    (t.section_ x).state = .blocked ∧ (t.section_ x).releaseUnused = false ∧ (t.section_ x).train = none ∧
    (∀ r, k.train = some r → (RegUnit.block, RegBody.train r.ident x r.inward r.cls
      (if k.state = .enteredOut then .complete else .cancelled) r.offered r.entered) ∈ t.inbox.entries)) ∧
  (k.state = .clearOut → new = none →
    t.section_ x = { k with reading := none, unsettled := none, releaseUnused := false } ∧
    (RegUnit.block, RegBody.change x .clearOut .clearOut (k.train.map (·.ident)) false) ∈ t.inbox.entries) ∧
  (k.state = .blocked → new = some .lc →
    (t.section_ x).state = .unofferedClear ∧ (t.section_ x).releaseUnused = false ∧ (t.section_ x).train = none) ∧
  (k.state = .blocked → new = some .tol →
    t.section_ x = { k with reading := new, unsettled := none } ∧
    (RegUnit.block, RegBody.change x .blocked .blocked (k.train.map (·.ident)) false) ∈ t.inbox.entries) ∧
  (¬(k.state = .offerOut ∧ new = some .lc) → ¬(k.state = .clearOut ∧ new ≠ some .lc) →
    ¬(k.state = .enteredOut ∧ new = some .lb) → ¬(k.state = .unofferedClear ∧ new = some .lb) →
    ¬(k.state = .blocked ∧ (new = some .lc ∨ new = some .tol)) →
    t.section_ x = { k with reading := new, unsettled := none })

theorem takeReading_actsOnReading {u : State} (hu : s.Reads u x reading) :
    s.ActsOnReading (commit s (takeReading x reading u)) x reading := by
  have hk := hu.section_
  have hstate : (u.section_ x).state = (s.section_ x).state := by rw [hk]
  have entered : ∀ {e t}, e ∈ t.inbox.entries → e ∈ (commit s t).inbox.entries := fun {_ t} he =>
    (commit_entries_extend s t).subset he
  refine ⟨?_, ?_, ?_, ?_, ?_, ?_, fun h₁ h₂ h₃ h₄ h₅ => ?_⟩
  · rintro h rfl
    rw [takeReading_gives (hstate.trans h), commit_section, enterClearOut_section, hk, hu.clock]
    exact ⟨rfl, rfl, fun r hr => by simp [SectionData.enter, SecState.holdsNone, hr, Train.accept]⟩
  · rintro h rfl
    rw [takeReading_enters (hstate.trans h), commit_section, enterSec_section, hk, hu.clock]
    exact ⟨rfl, rfl, fun r hr => by simp [SectionData.enter, SecState.holdsNone, hr, Train.enter]⟩
  · rintro h rfl
    rw [takeReading_ends (by rwa [hstate]), hstate, commit_section, endSec_section, if_pos rfl]
    refine ⟨rfl, rfl, rfl, fun r hr => ?_⟩
    have hr' : (u.section_ x).train = some r := by rw [hk, hr]
    exact entered (endSec_entry (st := .blocked) hr' rfl _)
  · rintro h rfl
    rw [takeReading_invalid (hstate.trans h)]
    refine ⟨by rw [commit_section, noteReading_section, State.section_setSection, if_pos rfl, hk], entered ?_⟩
    have he := noteReading_entry x (u.setSection x { u.section_ x with releaseUnused := false })
    simpa [hk, h] using he
  · rintro h rfl
    rw [takeReading_unoffered (hstate.trans h), commit_section, endSec_section, if_pos rfl]
    exact ⟨rfl, rfl, rfl⟩
  · rintro h rfl
    rw [takeReading_notes (hstate.trans h)]
    refine ⟨by rw [commit_section, noteReading_section, hk], entered ?_⟩
    have he := noteReading_entry x u
    simpa [hk, h] using he
  · rw [takeReading_stays (by rwa [hstate]) (by rwa [hstate]) (by rwa [hstate]) (by rwa [hstate]) (by rwa [hstate]),
      commit_section, hk]

/-- The reading of section `x` becomes `new`: where it changes, the section acts on it and it is handed on. -/
def State.ReadingBecomes (s t : State) (x : Sec) (new : Option Ind) : Prop :=
  let k := s.section_ x
  (t.section_ x).reading = new ∧ (t.section_ x).unsettled = none ∧
    (k.reading = new → t.section_ x = { k with unsettled := none } ∧ t.inbox.readings = s.inbox.readings) ∧
    (k.reading ≠ new → t.inbox.readings = s.inbox.readings ++ [x] ∧ s.ActsOnReading t x new)

theorem settleReading_becomes (x : Sec) (new : Option Ind) (s : State) :
    s.ReadingBecomes (commit s (settleReading x new s)) x new := by
  by_cases h : (s.section_ x).reading = new
  · rw [settleReading_same h, State.ReadingBecomes, commit_section, State.section_setSection, if_pos rfl]
    exact ⟨h, rfl, fun _ => ⟨rfl, rfl⟩, fun hne => absurd h hne⟩
  · obtain ⟨u, hu, he⟩ := settleReading_changed h
    obtain ⟨hreading, hunsettled⟩ := takeReading_reading x new u
    rw [hu.section_] at hreading hunsettled
    rw [he]
    refine ⟨?_, ?_, fun h' => absurd h' h, fun _ => ⟨?_, takeReading_actsOnReading hu⟩⟩
    · rw [commit_section, hreading]
    · rw [commit_section, hunsettled]
    · rw [commit_inbox_readings, takeReading_readings, hu.readings]

theorem indicatorSettled_of_showing {c : Ind} {since : Nat} (h : (s.section_ x).showing = some (c, since)) :
    indicatorSettled x s = if since + s.times.indstable ≤ s.now then settleReading x (some c) s else s := by
  simp [indicatorSettled, h]

theorem unsettledTimeout_of_unsettled {since : Nat} (h : (s.section_ x).unsettled = some since) :
    unsettledTimeout x s = if since + 2000 ≤ s.now then settleReading x none s else s := by
  simp only [unsettledTimeout, h]
  rfl

end

/-- Settles O33: a sample by what it shows and by what was shown, and a settled or failed reading by the section's state. -/
theorem readingChangesAtASection : Obligations.ReadingChangesAtASection := by
  refine ⟨fun p cls s hv => ⟨_, rfl, ?_⟩, fun p s => ⟨fun c since h => ⟨_, rfl, fun hle => ?_, fun hlt => ?_⟩,
    fun since h => ⟨_, rfl, fun hle => ?_, fun hlt => ?_⟩⟩⟩
  · rw [commit_section, indicatorSample_section cls hv]
    refine ⟨rfl, rfl, ?_, ?_, ?_, fun since h => by simp [SectionData.sampled, h], fun h => ⟨?_, fun hd => ?_⟩⟩
    · rintro rfl
      rfl
    · rintro c since rfl h
      exact nowShowing_same h s.now
    · rintro c rfl h
      exact nowShowing_begins h s.now
    · rintro ⟨c, rfl, hr⟩
      simp [SectionData.sampled, h, differs, hr]
    · simp [SectionData.sampled, h, (differs_iff _ _).2 hd]
  · rw [indicatorSettled_of_showing h, if_pos hle]
    exact settleReading_becomes p (some c) s
  · rw [indicatorSettled_of_showing h, if_neg (by omega)]
    exact commit_section s s p
  · rw [unsettledTimeout_of_unsettled h, if_pos hle]
    exact settleReading_becomes p none s
  · rw [unsettledTimeout_of_unsettled h, if_neg (by omega)]
    exact commit_section s s p

end Sys2Proof.Machine
end

section
/-! ### Delivered codes at a section (R105 to R108, R110, R112, R114, R155; O32) -/

namespace Sys2Proof.Machine

/-! #### What a code does, by the section's state (R105, R106) -/

section
variable {x : Sec} {s : State} {c : Classification} {cls : Nat}

theorem outCodeResult_offer (hc : c = .meaning (.offer cls)) (hs : (s.section_ x).state = .blocked) :
    outCodeResult x c s = some (takeOffer x false cls s) := by
  simp [outCodeResult, hc, hs]

theorem outCodeResult_crosses (hc : c = .meaning (.offer cls)) (hs : (s.section_ x).state = .offerIn) :
    outCodeResult x c s = some (crossOffers x s) := by
  simp [outCodeResult, hc, hs]

theorem outCodeResult_cancels (hc : c = .meaning .cancel) (hs : (s.section_ x).state = .offerOut) :
    outCodeResult x c s = some (endSec x .blocked .cancelled s) := by
  simp [outCodeResult, hc, hs]

theorem outCodeResult_none
    (ho : ∀ cls, c = .meaning (.offer cls) → (s.section_ x).state ≠ .blocked ∧ (s.section_ x).state ≠ .offerIn)
    (hc : c = .meaning .cancel → (s.section_ x).state ≠ .offerOut) : outCodeResult x c s = none := by
  unfold outCodeResult
  split
  · exact absurd ‹_› (ho _ rfl).1
  · exact absurd ‹_› (ho _ rfl).2
  · exact absurd ‹_› (hc rfl)
  · rfl

theorem inCodeResult_offer (hc : c = .meaning (.offer cls)) (hs : (s.section_ x).state = .blocked) :
    inCodeResult x c s = some (takeOffer x true cls s) := by
  simp [inCodeResult, hc, hs]

theorem inCodeResult_crosses (hc : c = .meaning (.offer cls)) (hs : (s.section_ x).state = .offerOut) :
    inCodeResult x c s = some (crossOffers x s) := by
  simp [inCodeResult, hc, hs]

theorem inCodeResult_cancels (hc : c = .meaning .cancel) (hs : (s.section_ x).state = .offerIn) :
    inCodeResult x c s = some (endSec x .blocked .cancelled s) := by
  simp [inCodeResult, hc, hs]

/-- A cancellation in CLEAR_IN is heard, unless ENTERING has been. -/
theorem inCodeResult_cancelHeard (hc : c = .meaning .cancel) (hs : (s.section_ x).state = .clearIn)
    (he : (s.section_ x).enteringHeard = false) :
    inCodeResult x c s = some (s.setSection x { s.section_ x with cancelHeard := true }) := by
  simp [inCodeResult, hc, hs, he]

theorem inCodeResult_enteringHeard (hc : c = .meaning .entering) (hs : (s.section_ x).state = .clearIn)
    (he : (s.section_ x).enteringHeard = false) :
    inCodeResult x c s = some (s.setSection x { s.section_ x with enteringHeard := true, cancelHeard := false }) := by
  simp [inCodeResult, hc, hs, he]

theorem inCodeResult_none
    (ho : ∀ cls, c = .meaning (.offer cls) → (s.section_ x).state ≠ .blocked ∧ (s.section_ x).state ≠ .offerOut)
    (hc : c = .meaning .cancel →
      (s.section_ x).state ≠ .offerIn ∧ ((s.section_ x).state = .clearIn → (s.section_ x).enteringHeard = true))
    (he : c = .meaning .entering → (s.section_ x).state = .clearIn → (s.section_ x).enteringHeard = true) :
    inCodeResult x c s = none := by
  unfold inCodeResult
  dsimp only
  split
  · exact absurd ‹_› (ho _ rfl).1
  · exact absurd ‹_› (ho _ rfl).2
  · exact absurd ‹_› (hc rfl).1
  · exact if_pos ((hc rfl).2 ‹_›)
  · exact if_pos (he rfl ‹_›)
  · rfl

end

/-! #### A code taken and marked (R108) -/

/-- `u` is `s` with a code of section `x` taken, as far as section `x` sees. -/
structure State.CodeTaken (s u : State) (x : Sec) : Prop where
  section_ : u.section_ x = s.section_ x
  lastTrain : u.lastTrain = s.lastTrain
  entries : u.inbox.entries = s.inbox.entries
  clock : u.register.clock = s.register.clock
  classes : u.link.classes = s.link.classes

theorem takeCode_of_waits {s : State} {x : Sec} {h : CodeHanded} (hw : s.codeWaits x h) :
    ∃ u, takeCode x (decide (h.dir = .outgoing)) s = some (h, u) ∧ s.CodeTaken u x := by
  obtain ⟨rest, hr⟩ := takeFirst_of_find hw
  exact ⟨s.setInbox { s.inbox with codes := rest }, by simp only [takeCode, hr, if_true], rfl, rfl, rfl, rfl, rfl⟩

/-- The mark of a code that acted, or did not, on a section worked or not. -/
theorem markFor_eq (st : SecState) (acted : Bool) : markFor st acted =
    if st = .closed ∨ st = .through then none else some (if acted = true then .taken else .outOfTurn) := by
  cases st <;> simp [markFor]

/-- The state after a code of `x` with the result `r`, taken in `u`: the result, or `u` where the code does not act, and the
mark, which `put` lays in the section. -/
def codeMarked (x : Sec) (put : Option Mark → SectionData → SectionData) (u : State) (r : Option State) : State :=
  (r.getD u).setMark x (put (markFor (u.section_ x).state r.isSome) ((r.getD u).section_ x))
    (markFor (u.section_ x).state r.isSome)

def markSent (m : Option Mark) (k : SectionData) : SectionData := { k with sentMark := m }

def markRcvd (m : Option Mark) (k : SectionData) : SectionData := { k with rcvdMark := m }

section
variable {x : Sec} {s : State} {h : CodeHanded}

theorem outCodeTaken_of_waits (hw : s.codeWaits x h) (hd : h.dir = .outgoing) : ∃ u, s.CodeTaken u x ∧
    outCodeTaken x s = codeMarked x markSent u (outCodeResult x h.code.cls u) := by
  obtain ⟨u, hu, htaken⟩ := takeCode_of_waits hw
  rw [decide_eq_true hd] at hu
  refine ⟨u, htaken, ?_⟩
  simp only [outCodeTaken, hu, codeMarked, markSent, htaken.section_]

theorem inCodeTaken_of_waits (hw : s.codeWaits x h) (hd : h.dir ≠ .outgoing) : ∃ u, s.CodeTaken u x ∧
    inCodeTaken x s = codeMarked x markRcvd u (if h.dir = .incoming then inCodeResult x h.code.cls u else none) := by
  obtain ⟨u, hu, htaken⟩ := takeCode_of_waits hw
  rw [decide_eq_false hd] at hu
  refine ⟨u, htaken, ?_⟩
  simp only [inCodeTaken, hu, codeMarked, markRcvd, htaken.section_]

end

/-- `t` is `w` at the end of a step that has marked a code of section `x`. -/
structure State.Marked (w t : State) (x : Sec) : Prop where
  state : (t.section_ x).state = (w.section_ x).state
  drive : (t.section_ x).drive = (w.section_ x).drive
  train : (t.section_ x).train = (w.section_ x).train
  lastTrain : t.lastTrain = w.lastTrain
  entries : w.inbox.entries <+: t.inbox.entries

section
variable {x : Sec} {s u w : State} {put : Option Mark → SectionData → SectionData}

theorem codeMarked_some : codeMarked x put u (some w) = w.setMark x (put (markFor (u.section_ x).state true) (w.section_ x))
    (markFor (u.section_ x).state true) := rfl

theorem codeMarked_none : codeMarked x put u none =
    u.setMark x (put (markFor (u.section_ x).state false) (u.section_ x)) (markFor (u.section_ x).state false) := rfl

theorem setMark_entries (s : State) (x : Sec) (k : SectionData) (m : Option Mark) :
    (s.setMark x k m).inbox.entries = s.inbox.entries := by
  rw [State.setMark, State.report_inbox, State.setSection_inbox]

theorem setMark_lastTrain (s : State) (x : Sec) (k : SectionData) (m : Option Mark) :
    (s.setMark x k m).lastTrain = s.lastTrain := by
  rw [State.setMark, State.report_lastTrain, State.setSection_lastTrain]

theorem marked_codeMarked (hput : put = markSent ∨ put = markRcvd) :
    w.Marked (commit s (codeMarked x put u (some w))) x := by
  have hent := commit_entries_extend s (codeMarked x put u (some w))
  have hk : ∀ m k, (put m k).state = k.state ∧ (put m k).drive = k.drive ∧ (put m k).train = k.train := fun m k => by
    obtain rfl | rfl := hput <;> exact ⟨rfl, rfl, rfl⟩
  obtain ⟨hstate, hdrive, htrain⟩ := hk (markFor (u.section_ x).state true) (w.section_ x)
  rw [codeMarked_some] at hent ⊢
  rw [setMark_entries] at hent
  constructor
  · rw [commit_section, setMark_section, hstate]
  · rw [commit_section, setMark_section, hdrive]
  · rw [commit_section, setMark_section, htrain]
  · rw [commit_lastTrain, setMark_lastTrain]
  · exact hent

/-- Each mark is a change of the section's item, whatever the mark before it (R108, R155). -/
theorem codeMarked_reports {r : Option State} (hc : (u.section_ x).state ≠ .closed) (ht : (u.section_ x).state ≠ .through)
    (hr : ∀ w, r = some w → w.link.classes = u.link.classes) (hn : u.link.classes.sec = true) :
    .sec x ∈ (commit s (codeMarked x put u r)).link.reports := by
  have hclasses : (r.getD u).link.classes.sec = true := by
    cases r with
    | none => exact hn
    | some w => rw [Option.getD_some, hr w rfl, hn]
  refine (prefix_addItems _ _ _).subset ?_
  rw [codeMarked, markFor_eq, if_neg (by simp [hc, ht])]
  exact mem_setMark_reports _ x _ _ hclasses

theorem outCodeResult_classes {c : Classification} (h : outCodeResult x c u = some w) :
    w.link.classes = u.link.classes :=
  outCodeResult_leaves x u h .classes (by simp)

theorem inCodeResult_classes {c : Classification} (h : inCodeResult x c u = some w) :
    w.link.classes = u.link.classes :=
  inCodeResult_leaves x u h .classes (by simp)

end

/-! #### Offers, crossed offers and cancellations (R105 to R107, R112, R114) -/

/-- An offer has created the record of section `x`. -/
def State.Offered (s t : State) (x : Sec) (st : SecState) (inward : Bool) (cls : Nat) : Prop :=
  (t.section_ x).state = st ∧ (t.section_ x).drive = .lb ∧ t.lastTrain = nextTrain s.lastTrain ∧
    (t.section_ x).train = some ⟨nextTrain s.lastTrain, inward, cls, .offered, s.register.clock, none, none, 0⟩ ∧
    ((s.section_ x).train = none → s.inbox.entries ++
      [(RegUnit.block, RegBody.change x .blocked st (some (nextTrain s.lastTrain)) false)] <+: t.inbox.entries)

/-- Section `x` is BLOCKED, and the record it held has ended, behind the entries `first`. -/
def State.EndsBlocked (s t : State) (x : Sec) (first : List (RegUnit × RegBody)) (outcome : TrainEnd) : Prop :=
  (t.section_ x).state = .blocked ∧ (t.section_ x).train = none ∧
    ∀ r, (s.section_ x).train = some r → s.inbox.entries ++ (first ++
      [(RegUnit.block, RegBody.change x (s.section_ x).state .blocked (some r.ident) false),
        (RegUnit.block, RegBody.train r.ident x r.inward r.cls outcome r.offered r.entered)]) <+: t.inbox.entries

section
variable {x : Sec} {s u t : State} (hu : s.CodeTaken u x)
include hu

theorem takeOffer_offered {inward : Bool} {cls : Nat} (hs : (s.section_ x).state = .blocked)
    (ht : (takeOffer x inward cls u).Marked t x) :
    s.Offered t x (if inward = true then .offerIn else .offerOut) inward cls := by
  have hsec : (takeOffer x inward cls u).section_ x = (s.section_ x).enter (if inward = true then .offerIn else .offerOut)
      (some (u.newTrain inward cls .offered)) := by
    rw [takeOffer, enterSec_section, ← hu.section_]
    rfl
  have hholds : (if inward = true then SecState.offerIn else .offerOut).holdsNone = false := by cases inward <;> rfl
  have hnew : u.newTrain inward cls .offered =
      ⟨nextTrain s.lastTrain, inward, cls, .offered, s.register.clock, none, none, 0⟩ := by
    rw [State.newTrain, hu.lastTrain, hu.clock]
  rw [State.Offered, ht.state, ht.drive, ht.train, ht.lastTrain, hsec, ← hnew, ← hu.lastTrain]
  refine ⟨rfl, by cases inward <;> rfl, rfl, by simp [SectionData.enter, hholds], fun hr => ?_⟩
  have hent := ht.entries
  rw [takeOffer, enterSec_entries] at hent
  have hcount : (countTrain u).section_ x = s.section_ x := hu.section_
  rw [hcount, show (countTrain u).inbox.entries = s.inbox.entries from hu.entries] at hent
  simpa [sectionEntries, trainIdOf, SectionData.enter, hholds, hr, hs, State.newTrain] using hent

/-- A record voided or cancelled in BLOCKED. -/
theorem endSec_endsBlocked {v : State} {first : List (RegUnit × RegBody)} (hv : v.section_ x = u.section_ x)
    (he : v.inbox.entries = u.inbox.entries ++ first) {o : TrainEnd} (ht : (endSec x .blocked o v).Marked t x) :
    s.EndsBlocked t x first o := by
  have hsec : v.section_ x = s.section_ x := hv.trans hu.section_
  rw [State.EndsBlocked, ht.state, ht.train, endSec, enterSec_section]
  refine ⟨rfl, rfl, fun r hr => ?_⟩
  have hent := ht.entries
  rw [endSec, enterSec_entries, he, hsec, hu.entries, List.append_assoc] at hent
  simpa [sectionEntries, trainIdOf, trainEntry, SectionData.enter, SecState.holdsNone, hr] using hent

theorem cancelled_endsBlocked (ht : (endSec x .blocked .cancelled u).Marked t x) : s.EndsBlocked t x [] .cancelled :=
  endSec_endsBlocked hu rfl (List.append_nil _).symm ht

theorem crossOffers_endsBlocked (ht : (crossOffers x u).Marked t x) :
    s.EndsBlocked t x [(.block, .crossed x)] .void :=
  endSec_endsBlocked (v := u.enter .block (.crossed x)) hu rfl rfl ht

end

/-- A code that does not act changes nothing but the mark. -/
theorem codeMarked_none_section {x : Sec} {s u : State} {put : Option Mark → SectionData → SectionData}
    (hu : s.CodeTaken u x) : (commit s (codeMarked x put u none)).section_ x =
      put (if (s.section_ x).state = .closed ∨ (s.section_ x).state = .through then none else some .outOfTurn)
        (s.section_ x) := by
  rw [commit_section, codeMarked_none, setMark_section, hu.section_, markFor_eq]
  simp

/-- A code that acts is marked TAKEN, on what it makes of a section that is worked. -/
theorem codeMarked_some_section {x : Sec} {s u w : State} {put : Option Mark → SectionData → SectionData}
    (hu : s.CodeTaken u x) {st : SecState} (hs : (s.section_ x).state = st) (hst : st.worked) :
    (commit s (codeMarked x put u (some w))).section_ x = put (some .taken) (w.section_ x) := by
  obtain ⟨hc, ht⟩ := hst
  rw [commit_section, codeMarked_some, setMark_section, hu.section_, markFor_eq, hs]
  simp [hc, ht]

section
variable {x : Sec} {s u w : State} {st : SecState} (hu : s.CodeTaken u x) (hs : (s.section_ x).state = st) (hst : st.worked)
include hu hs hst

theorem codeMarked_sentMark : ((commit s (codeMarked x markSent u (some w))).section_ x).sentMark = some .taken := by
  rw [codeMarked_some_section hu hs hst]
  rfl

theorem codeMarked_rcvdMark : ((commit s (codeMarked x markRcvd u (some w))).section_ x).rcvdMark = some .taken := by
  rw [codeMarked_some_section hu hs hst]
  rfl

end

/-- Settles O32: each code by its direction, its meaning and the section's state, and the mark it leaves. -/
theorem codesAtASection : Obligations.CodesAtASection := by
  intro x s h hw k ident offered crossed cancelled reported
  refine ⟨fun hd => ?_, fun hd => ?_, fun hd => ?_⟩
  · obtain ⟨u, hu, he⟩ := outCodeTaken_of_waits hw hd
    have hstate : (u.section_ x).state = k.state := by rw [hu.section_]
    refine ⟨commit s (outCodeTaken x s), rfl, ?_⟩
    rw [he]
    refine ⟨fun hc ht hn => codeMarked_reports (hstate ▸ hc) (hstate ▸ ht) (fun w => outCodeResult_classes)
      (hu.classes ▸ hn), fun cls hc hs => ?_, fun cls hc hs => ?_, fun hc hs => ?_, fun ho hc => ?_⟩
    · rw [outCodeResult_offer hc (hstate.trans hs)]
      exact ⟨takeOffer_offered hu hs (marked_codeMarked (.inl rfl)),
        codeMarked_sentMark hu hs (by simp [SecState.worked])⟩
    · rw [outCodeResult_crosses hc (hstate.trans hs)]
      exact ⟨crossOffers_endsBlocked hu (marked_codeMarked (.inl rfl)),
        codeMarked_sentMark hu hs (by simp [SecState.worked])⟩
    · rw [outCodeResult_cancels hc (hstate.trans hs)]
      exact ⟨cancelled_endsBlocked hu (marked_codeMarked (.inl rfl)),
        codeMarked_sentMark hu hs (by simp [SecState.worked])⟩
    · rw [outCodeResult_none (by rwa [hstate]) (by rwa [hstate]), codeMarked_none_section hu]
      rfl
  · obtain ⟨u, hu, he⟩ := inCodeTaken_of_waits hw (by simp [hd])
    have hstate : (u.section_ x).state = k.state := by rw [hu.section_]
    have hheard : (u.section_ x).enteringHeard = k.enteringHeard := by rw [hu.section_]
    refine ⟨commit s (inCodeTaken x s), rfl, ?_⟩
    rw [he, if_pos hd]
    refine ⟨fun hc ht hn => codeMarked_reports (hstate ▸ hc) (hstate ▸ ht) (fun w => inCodeResult_classes)
      (hu.classes ▸ hn), fun cls hc hs => ?_, fun cls hc hs => ?_, fun hc hs => ?_, fun hc hs hh => ?_,
      fun hc hs hh => ?_, fun ho hc hen => ?_⟩
    · rw [inCodeResult_offer hc (hstate.trans hs)]
      exact ⟨takeOffer_offered hu hs (marked_codeMarked (.inr rfl)),
        codeMarked_rcvdMark hu hs (by simp [SecState.worked])⟩
    · rw [inCodeResult_crosses hc (hstate.trans hs)]
      exact ⟨crossOffers_endsBlocked hu (marked_codeMarked (.inr rfl)),
        codeMarked_rcvdMark hu hs (by simp [SecState.worked])⟩
    · rw [inCodeResult_cancels hc (hstate.trans hs)]
      exact ⟨cancelled_endsBlocked hu (marked_codeMarked (.inr rfl)),
        codeMarked_rcvdMark hu hs (by simp [SecState.worked])⟩
    · rw [inCodeResult_cancelHeard hc (hstate.trans hs) (hheard.trans hh),
        codeMarked_some_section hu hs (by simp [SecState.worked]), State.section_setSection, if_pos rfl, hu.section_]
      rfl
    · rw [inCodeResult_enteringHeard hc (hstate.trans hs) (hheard.trans hh),
        codeMarked_some_section hu hs (by simp [SecState.worked]), State.section_setSection, if_pos rfl, hu.section_]
      rfl
    · rw [inCodeResult_none (by rwa [hstate]) (by rwa [hstate, hheard]) (by rwa [hstate, hheard]),
        codeMarked_none_section hu]
      rfl
  · obtain ⟨u, hu, he⟩ := inCodeTaken_of_waits hw (by simp [hd])
    have hstate : (u.section_ x).state = k.state := by rw [hu.section_]
    refine ⟨commit s (inCodeTaken x s), rfl, ?_⟩
    rw [he, if_neg (by simp [hd])]
    refine ⟨fun hc ht hn => codeMarked_reports (hstate ▸ hc) (hstate ▸ ht) (by simp) (hu.classes ▸ hn), ?_⟩
    rw [codeMarked_none_section hu]
    rfl

end Sys2Proof.Machine
end
